-- ==== Sys2Proof/Word.lean ====
section
/-! DEFINITION. The word types of Nepor revision 1 (00 R3, 04 R106): what the manual calls a byte, a
64-bit register, a parcel and a register number. -/
namespace Sys2Proof

/-- One byte of memory. -/
abbrev Byte := BitVec 8

/-- A 64-bit register value (04 R106). -/
abbrev Word := BitVec 64

/-- A 32-bit parcel of an instruction stream (03 R68). -/
abbrev Parcel := BitVec 32

/-- A 5-bit register number. -/
abbrev Reg := BitVec 5

end Sys2Proof
end

