-- ==== Sys2Proof/Machine/Types.lean ====
section
/-! DEFINITION. The element formats named by a type code (02 R38, R39): their widths and the sets of codes
that families of instructions accept. -/
namespace Sys2Proof.Ty

/-- Code 31: the format held in VTYPE (02 R38). -/
def dyn : Nat := 31

def isSigned (t : Nat) : Bool := t ≤ 3 || t == 13 || t == 14
/-- i8 to i64 and z8 to z64. -/
def isInt (t : Nat) : Bool := t ≤ 7
/-- i4 and i6. -/
def isSub (t : Nat) : Bool := t == 13 || t == 14
/-- bf16, f32, f64: the arithmetic floating formats. -/
def isF (t : Nat) : Bool := t == 8 || t == 9 || t == 10
/-- Every binary floating format. -/
def isFloat (t : Nat) : Bool := 8 ≤ t && t ≤ 12
/-- bfp2 to bfp8. -/
def isBfp (t : Nat) : Bool := 16 ≤ t && t ≤ 22
/-- A code that R38 neither reserves nor calls dyn. -/
def isFormat (t : Nat) : Bool := t ≤ 14 || isBfp t
/-- Formats of 8 to 64 bits per element. -/
def isWhole (t : Nat) : Bool := t ≤ 12

/-- m of a bfpm code: code − 14 (02 R38). -/
def bfpM (t : Nat) : Nat := t - 14

/-- Bytes of a BFP block, 1 + 4m (02 R45). -/
def bfpBytes (t : Nat) : Nat := 1 + 4 * bfpM t

/-- Bits of one element; a BFP format counts as 8 (05 R149, R155). -/
def width (t : Nat) : Nat :=
  match t with
  | 0 => 8 | 1 => 16 | 2 => 32 | 3 => 64
  | 4 => 8 | 5 => 16 | 6 => 32 | 7 => 64
  | 8 => 16 | 9 => 32 | 10 => 64 | 11 => 8 | 12 => 8
  | 13 => 4 | 14 => 6
  | _ => 8

/-- VADD, VSUB, VMIN, VMAX, VSADD, VSSUB, VCMP (05 R142). -/
def accAdd (t : Nat) : Bool := isInt t || isSub t
/-- VMUL, VMULH, shifts, VABSD, VIDX (05 R142). -/
def accMul (t : Nat) : Bool := isInt t
/-- VAND, VOR, VXOR, VMERGE, VMOVX (05 R142). -/
def accBits (t : Nat) : Bool := t ≤ 14
/-- VWMUL, VWADD (05 R142). -/
def accWiden (t : Nat) : Bool := t ≤ 2 || (4 ≤ t && t ≤ 6)
/-- VNARROW (05 R142). -/
def accNarrow (t : Nat) : Bool := t ≤ 3 || (5 ≤ t && t ≤ 7)
/-- VFCVT's S and D (05 R149). -/
def accCvt (t : Nat) : Bool := t ≤ 14 || isBfp t
/-- VLD, VST (06 R159). -/
def accLd (t : Nat) : Bool := isFormat t
/-- VLDFF (06 R159). -/
def accLdff (t : Nat) : Bool := isWhole t || isBfp t
/-- The VPERM moves that take BFP blocks (05 R151, R152). -/
def accMove (t : Nat) : Bool := isWhole t || isBfp t
/-- VXQADD (05 R154). -/
def accXqAdd (t : Nat) : Bool := isInt t || isF t
/-- VEXTA (05 R155). -/
def accExta (t : Nat) : Bool := t ≤ 2 || t == 8 || t == 9 || t == 11 || t == 12 || isBfp t
/-- VINSA (05 R156). -/
def accInsa (t : Nat) : Bool := t == 8 || t == 9 || t == 11 || t == 12
/-- VZERA (05 R156). -/
def accZera (t : Nat) : Bool := t == 9
/-- Row arithmetic and accumulator instructions (10 R275, R279). -/
def accRow (t : Nat) : Bool := t ≤ 2 || (4 ≤ t && t ≤ 6) || t == 8 || t == 9
/-- RCVT's S and D (10 R277). -/
def accRcvt (t : Nat) : Bool := accRow t || t == 11 || t == 12
/-- MMA with BR = 0 (12 R324). -/
def accMma (t : Nat) : Bool := t == 0 || t == 8 || t == 11 || t == 12 || t == 16 || t == 18 || t == 22
/-- Sparse A (12 R319). -/
def accSparse (t : Nat) : Bool := t == 0 || t == 8 || t == 11 || t == 12
/-- MTLD, MTST, MQCAST (12 R323). -/
def accTile (t : Nat) : Bool := t == 8 || t == 9

/-- VFCVT's conditions on destination and source (05 R149). -/
def cvtOk (d s : Nat) (me : Bool) : Bool :=
  accCvt d && accCvt s && d != s && !(isBfp d && isBfp s) && !(me && (isBfp d || isBfp s))

end Sys2Proof.Ty
end

