-- ==== Sys2Proof/Syntax.lean ====
section
/-! DEFINITION. The instructions and steps of the machine: one constructor of Instr per row of
spec/opcode_table.json. Scalar parcels carry their decoded fields (03 R71, R72); vector, matrix and bank
words carry the fields of their word (03 R83, R86, R88); the steps of the device, the host and the world
carry what they act on (95). -/
namespace Sys2Proof

/-- The fields of a vector word (03 R83), less its opcode. -/
structure VWord where
  vd  : Reg
  vs1 : Reg
  vs2 : Reg
  vs3 : Reg
  xl  : Reg
  me  : Bool
  mp  : BitVec 3
  pol : Bool
  ty  : BitVec 5
  te  : BitVec 3
  rm  : BitVec 2
  imm : BitVec 16
  deriving DecidableEq, Repr

/-- The fields of a matrix word (03 R86), less its operation. -/
structure MWord where
  ad  : BitVec 2
  md  : BitVec 4
  ms1 : BitVec 4
  ms2 : BitVec 4
  xa  : Reg
  xb  : Reg
  ta  : BitVec 5
  tb  : BitVec 5
  sw  : BitVec 3
  sp  : Bool
  rm  : BitVec 2
  imm : BitVec 16
  deriving DecidableEq, Repr

/-- The fields of a bank word (03 R88), less its operation. -/
structure BWord where
  sd  : BitVec 2
  sa  : BitVec 2
  sb  : BitVec 2
  q   : Bool
  pr  : Bool
  ty  : BitVec 5
  bd  : BitVec 4
  bs1 : BitVec 4
  bs2 : BitVec 4
  imm : BitVec 31
  deriving DecidableEq, Repr

/-- A flit of a Uapoash port (19 R413): LINE 0 to 2 and the three headers of MSG from the lowest byte up. -/
structure Flit where
  seq   : BitVec 12
  ack   : BitVec 12
  slots : BitVec 3
  lines : BitVec 1536
  msg   : BitVec 384
  crc   : BitVec 64
  deriving DecidableEq, Repr

/-- Bytes +0x00 to +0xF7 of a flit, over which its CRC is formed. -/
def Flit.covered (f : Flit) : BitVec 1984 := f.msg ++ f.lines ++ (0 : BitVec 37) ++ f.slots ++ f.ack ++ f.seq

/-- The operation of an AMO, or CAS (07 R202, R204). -/
inductive AmoOp where
  | swap | add | and | or | xor | min | max | minn | maxn | cas
  deriving DecidableEq, Repr

/-- What an agent of one package asks of a line's home in another (07 R197; 09 R234, R237; 19 R416). `read` also
stands for the look that BWAIT and BTEST take at a whole object. -/
inductive PodOp where
  | read (n : Nat)
  | write (data : List Byte)
  /-- A write of the bits of `data` that `mask` has (06 R166). -/
  | merge (data mask : List Byte)
  | amo (op : AmoOp) (word : Bool) (b c : Nat)
  | binit (n : Nat) | binval | barrive | bexp (n : Nat)
  /-- The count of a transfer against an object: captured generation and bytes (09 R249). -/
  | count (gen : Nat) (bytes : Nat)
  deriving DecidableEq, Repr

/-- The bytes at the address that an operation names. -/
def PodOp.bytes : PodOp → Nat
  | .read n => n
  | .write d => d.length
  | .merge d _ => d.length
  | .amo _ w _ _ => if w then 4 else 8
  | _ => 32

/-- A home's answer: the line as the operation found it, that it is not mapped, or that it cannot be corrected
(19 R416, 07 R201). -/
inductive PodReply where
  | line (data : List Byte) | unmapped | bad
  deriving DecidableEq, Repr

/-- One instruction, or one step of the device, the host or the world. A bank is named by
1024·tower + 16·PC + bank, a stream by its kind-3 index (11 R282), a hart by 9·core + HARTID.HART. -/
inductive Instr where
  -- integer register instructions (04 R121, R122)
  | add (d a b : Reg) | addW (d a b : Reg) | sub (d a b : Reg) | subW (d a b : Reg)
  | and (d a b : Reg) | or (d a b : Reg) | xor (d a b : Reg) | andn (d a b : Reg)
  | sll (d a b : Reg) | sllW (d a b : Reg) | srl (d a b : Reg) | srlW (d a b : Reg)
  | sra (d a b : Reg) | sraW (d a b : Reg) | rol (d a b : Reg) | ror (d a b : Reg)
  | slt (d a b : Reg) | sltn (d a b : Reg) | min (d a b : Reg) | max (d a b : Reg)
  | minn (d a b : Reg) | maxn (d a b : Reg) | mul (d a b : Reg) | mulW (d a b : Reg)
  | mulh (d a b : Reg) | mulhn (d a b : Reg) | div (d a b : Reg) | divW (d a b : Reg)
  | divn (d a b : Reg) | divnW (d a b : Reg) | rem (d a b : Reg) | remW (d a b : Reg)
  | remn (d a b : Reg) | remnW (d a b : Reg)
  | clz (d a : Reg) | ctz (d a : Reg) | popc (d a : Reg)
  -- immediates (R123 to R125)
  | addi (d a : Reg) (imm : BitVec 15) | andi (d a : Reg) (imm : BitVec 15)
  | ori (d a : Reg) (imm : BitVec 15) | xori (d a : Reg) (imm : BitVec 15)
  | slti (d a : Reg) (imm : BitVec 15) | sltni (d a : Reg) (imm : BitVec 15)
  | slli (d a : Reg) (sh : BitVec 6) | srli (d a : Reg) (sh : BitVec 6)
  | srai (d a : Reg) (sh : BitVec 6) | rori (d a : Reg) (sh : BitVec 6)
  | ldhi (d : Reg) (imm : BitVec 20) | addpc (d : Reg) (imm : BitVec 20)
  -- loads and stores (R126)
  | ld (d a : Reg) (cls : BitVec 4) (size : BitVec 2) (sx : Bool) (imm : BitVec 8)
  | st (b a : Reg) (cls : BitVec 4) (size : BitVec 2) (imm : BitVec 8)
  -- control transfer (R127, R128)
  | beq (a b : Reg) (off : BitVec 12) | bne (a b : Reg) (off : BitVec 12)
  | blt (a b : Reg) (off : BitVec 12) | bge (a b : Reg) (off : BitVec 12)
  | bltn (a b : Reg) (off : BitVec 12) | bgen (a b : Reg) (off : BitVec 12)
  | jal (d : Reg) (off : BitVec 20) | jalr (d a : Reg) (imm : BitVec 15)
  -- atomics and fences (07 R202 to R206)
  | amoswap (d a b : Reg) (sem : BitVec 2) (scope : BitVec 3) (w : Bool)
  | amoadd (d a b : Reg) (sem : BitVec 2) (scope : BitVec 3) (w : Bool)
  | amoand (d a b : Reg) (sem : BitVec 2) (scope : BitVec 3) (w : Bool)
  | amoor (d a b : Reg) (sem : BitVec 2) (scope : BitVec 3) (w : Bool)
  | amoxor (d a b : Reg) (sem : BitVec 2) (scope : BitVec 3) (w : Bool)
  | amomin (d a b : Reg) (sem : BitVec 2) (scope : BitVec 3) (w : Bool)
  | amomax (d a b : Reg) (sem : BitVec 2) (scope : BitVec 3) (w : Bool)
  | amominn (d a b : Reg) (sem : BitVec 2) (scope : BitVec 3) (w : Bool)
  | amomaxn (d a b : Reg) (sem : BitVec 2) (scope : BitVec 3) (w : Bool)
  | cas (d a b : Reg) (sem : BitVec 2) (scope : BitVec 3) (w : Bool)
  | fence (mask : BitVec 16) (scope : BitVec 3)
  | fenceI
  -- system instructions (04 R112, R129 to R132; 05 R134)
  | trap (code : BitVec 10) | rett | yield (v : Bool) | waite (d a : Reg)
  | csrr (d : Reg) (csr : BitVec 12) | csrw (a : Reg) (csr : BitVec 12)
  | csrs (a : Reg) (csr : BitVec 12) | csrc (a : Reg) (csr : BitVec 12)
  | csrx (d a : Reg) (csr : BitVec 12)
  | setvl (d a : Reg) (ty : BitVec 5) | setvlDistance (d a b : Reg) (ty : BitVec 5)
  -- engine instructions (03 R74)
  | cpw (idx : BitVec 5) (a : Reg) | cpgo (d a : Reg) | tlwait (a b : Reg) (scope : BitVec 3)
  | tlread (d a : Reg) | binit (a b : Reg) | barrive (d a : Reg) | bexp (a b : Reg)
  | bwait (a : Reg) (scope : BitVec 3) | btest (d a : Reg) | binval (a : Reg)
  | klaunch (d a b : Reg) | gsync (id : BitVec 5) (scope : BitVec 3) | gexit | mxgo (d a : Reg)
  | hint (imm : BitVec 25)
  -- VALU (05 R141 to R146)
  | vadd (w : VWord) | vsub (w : VWord) | vmul (w : VWord) | vmulh (w : VWord) | vmin (w : VWord)
  | vmax (w : VWord) | vand (w : VWord) | vor (w : VWord) | vxor (w : VWord) | vsll (w : VWord)
  | vsrl (w : VWord) | vsra (w : VWord) | vsadd (w : VWord) | vssub (w : VWord) | vabsd (w : VWord)
  | vmerge (w : VWord) | vmovx (w : VWord) | vidx (w : VWord) | vcmp (w : VWord) | vwmul (w : VWord)
  | vwadd (w : VWord) | vnarrow (w : VWord)
  | pand (w : VWord) | por (w : VWord) | pxor (w : VWord) | pandn (w : VWord) | pset (w : VWord)
  | pcnt (w : VWord) | pfirst (w : VWord)
  -- VFPU (R147 to R150)
  | vfadd (w : VWord) | vfsub (w : VWord) | vfmul (w : VWord) | vfma (w : VWord) | vfms (w : VWord)
  | vfnma (w : VWord) | vfdiv (w : VWord) | vfsqrt (w : VWord) | vfmin (w : VWord) | vfmax (w : VWord)
  | vfcmp (w : VWord) | vfcvt (w : VWord) | vfrece (w : VWord) | vfrsqe (w : VWord)
  -- VMEM (06 R158 to R172)
  | vld (w : VWord) | vlds (w : VWord) | vldx (w : VWord) | vldff (w : VWord) | vst (w : VWord)
  | vsts (w : VWord) | vstx (w : VWord)
  -- VPERM (05 R151 to R153)
  | vperm (w : VWord) | vslideup (w : VWord) | vslidedn (w : VWord) | vcompress (w : VWord)
  | vexpand (w : VWord) | vbcaste (w : VWord) | vzip (w : VWord) | vunzip (w : VWord)
  | vredsum (w : VWord) | vredmax (w : VWord) | vredmin (w : VWord) | vfredsum (w : VWord)
  -- VXQ, VACC, VSTR (R154 to R156; 06 R176, R177)
  | vxqadd (w : VWord) | vxqmax (w : VWord) | vxqfma (w : VWord)
  | vexta (w : VWord) | vinsa (w : VWord) | vzera (w : VWord) | srd (w : VWord) | srstat (w : VWord)
  -- matrix words (12 R324 to R332)
  | mma (w : MWord) | mzero (w : MWord) | mtld (w : MWord) | mtst (w : MWord) | mqld (w : MWord)
  | mqst (w : MWord) | mqadd (w : MWord) | mqmul (w : MWord) | chisel (w : MWord) | mqcast (w : MWord)
  | mqrank (w : MWord) | mqfree (w : MWord) | mqscl (w : MWord) | mthdr (w : MWord)
  -- bank words (10 R268 to R281, 11 R291 to R310)
  | act (w : BWord) | pre (w : BWord) | wb (w : BWord) | refb (w : BWord) | refq (w : BWord)
  | rcopy (w : BWord) | rzero (w : BWord) | radd (w : BWord) | rsub (w : BWord) | rmul (w : BWord)
  | rmax (w : BWord) | rmin (w : BWord) | rand (w : BWord) | rior (w : BWord) | rxor (w : BWord)
  | rshr (w : BWord) | rscadd (w : BWord) | rcmp (w : BWord) | rsel (w : BWord) | rcvt (w : BWord)
  | qzero (w : BWord) | qacc (w : BWord) | qmac (w : BWord) | qwb (w : BWord) | qld (w : BWord)
  | rsweep (w : BWord) | shmov (w : BWord) | bufst (w : BWord) | bufld (w : BWord) | bli (w : BWord)
  | badd (w : BWord) | bbr (w : BWord) | bloop (w : BWord) | bpset (w : BWord) | bsplit (w : BWord)
  | bjoin (w : BWord) | bsig (w : BWord) | bend (w : BWord) | bwaitt (w : BWord) | brett (w : BWord)
  | bnop (w : BWord)
  -- steps of the banks and the plinth (10, 11)
  | tacuElapsed (bank slot : Nat) | rowPassEnd (bank : Nat) | twbkElapsed (bank slot : Nat)
  | tpreElapsed (bank slot : Nat) | rcopyComplete (bank slot : Nat) | refbComplete (bank : Nat)
  | busMoveEnd (stream : Nat) | refreshInterval (bank : Nat) | refreshDeadline (stream : Nat)
  | forcedRefresh (bank : Nat) | plinthRefresh (bank : Nat)
  | ordinaryAccess (bank group row : Nat) | streamYield (stream : Nat) | yieldEnd (stream : Nat)
  | activateHint (bank group row : Nat)
  | streamWake (stream : Nat) | streamPark (stream : Nat) | streamResume (stream : Nat)
  -- steps of the harts and the scheduler (04, 14 to 17)
  | hartWake (hart : Nat) | hartUnstall (hart : Nat) | preempt (hart : Nat)
  | preemptionRequest (group : Nat) | coreRecordSave (group core : Nat)
  | hartResume (group member core : Nat)
  | tilePlacement (ctx queue : Nat) (cores : List Nat) | queueAging (ctx queue : Nat)
  | kernelAdmission (ctx queue : Nat) | kernelComplete (kernel : Nat) | kernelSkipped (kernel : Nat)
  | tileHardwareFault (group core : Nat) (coreLost : Bool)
  | accHandoff (core acc : Nat) | matrixWordComplete (core : Nat) | gatherDelivered (hart vd : Nat)
  -- steps of the engines (08, 13)
  | transferOpStart (ctx chan num : Nat) | elementGroupLands (ctx chan num : Nat)
  | transferOpComplete (ctx chan num : Nat) | transferOpFault (ctx chan num : Nat)
  | lamAdmission (ctx chan num : Nat) | lamDeadline (tower entry : Nat)
  | lamComputeStart (tower entry : Nat) | lamWeightFault (tower entry : Nat)
  | lamComputeEnd (tower entry : Nat) | lamSplitComplete (tower entry : Nat)
  -- host commands (15 R362, R471; 18 R400 to R405; 19)
  | createContext (addr : BitVec 58) | enableQueue (addr : BitVec 58) | disableQueue (addr : BitVec 58)
  | suspendContext (addr : BitVec 58) | resumeContext (addr : BitVec 58)
  | clearContextFault (addr : BitVec 58) | destroyContext (addr : BitVec 58)
  | ringNotify (addr : BitVec 58)
  | tlbinvVa (ctx : BitVec 16) | tlbinvAll (ctx : BitVec 16) | tlbinvDone
  | acctrSelect | acctrClear
  | remapRetireBank (tower : BitVec 3) (pc : BitVec 6) (bank : BitVec 4)
  | remapSetFloor (tower : BitVec 3) (floor : BitVec 12) | remapDone
  | hosterrClear | podidWrite (v : Word) | registerWrite (mgmt : Bool) (off : Nat) (v : Word)
  | hostBar2Read (addr len : Nat) | hostBar2Write (addr : Nat) (data : List Byte)
  -- ports (19)
  | poolPortUp (port width size : Nat) | poolPortDown (port : Nat)
  | ulportEnable (port : Nat) | ulportDrain (port : Nat) | ulportRetireLane (port : Nat) (lane : BitVec 2)
  | laneTrainingDone (port : Nat) (lanes : BitVec 4) (peer : BitVec 11) (peerPort : BitVec 6)
  | laneErrorThreshold (port : Nat) (lane : BitVec 2) | partnerLost (port : Nat)
  | portDrained (port : Nat) | flitReceived (port : Nat) (flit : Flit)
  | podRequestReceived (peer addr : Nat) (op : PodOp)
  /-- `req` is the request's place among those that this package has sent and not yet done with. -/
  | podResponseReceived (peer req : Nat) (reply : PodReply)
  -- power, heat and service (20)
  | laneRateChange (core : Nat) (half : Bool) | voltageDroop (core : Nat)
  | wayGate (tower : Nat) | wayEnable (tower : Nat)
  | hotTrip (die col : Nat) | hotClear (die col : Nat) | throttleTrip (die col : Nat)
  | throttleClear (die col : Nat) | critTrip (die col : Nat) | supplyLoss | hardPowerOff
  | watchdogExpiry | bistGo (tower : BitVec 3) (pc : BitVec 6) (bank : BitVec 4) | bistDone (pass : Bool)
  | fwCommit | fwAttest | fwBootromRestore | deviceReset
  -- further timers of the banks (10 R254, R256; 11 R296, R299)
  | taprElapsed (bank slot : Nat) | taadElapsed (bank : Nat) | tfawWindowElapsed (tower pc : Nat)
  | yieldRowCopyEnd (bank : Nat) | plinthBufferCrossingEnd (tower entry : Nat)
  deriving DecidableEq, Repr

end Sys2Proof
end

