-- ==== Sys2Proof/Decode.lean ====
section
/-! DEFINITION. Decoding (03 R68 to R91): parcels, convoy headers, vector, matrix and bank words to Instr,
rejecting by name; then the encoder written from the same tables. Conditions that read a CSR, the variant or
the kind of stream are not decoding: they are the meaning's. -/
namespace Sys2Proof

/-- Why a word is not an instruction (03 R90). Every one of them is ILLEGAL_INSTR in a hart or sequencer
and bank trap ILLEGAL in a bank stream. -/
inductive Reject where
  | majorUnassigned | oprSelector | reservedBits | shiReserved | ldSize | stSx | brCond | amoOp
  | scopeReserved | fenceIBits | sysSelector | csrOp | csrZeroField | engSelector | cpwIndex | bopUnassigned
  | headerCount | headerReserved | headerUnit | headerStream | vopUnassigned | vectorField
  | mopUnassigned | matrixField | bankField | truncated
  deriving DecidableEq, Repr

abbrev Decoded := Except Reject Instr

/-- The field of `n` bits of `w` that begins at bit `lo`. -/
abbrev fld {k : Nat} (w : BitVec k) (lo n : Nat) : BitVec n := w.extractLsb' lo n

/-- `i` when the fixed fields `c` are as R72 gives, else the reject `r`. -/
def need (c : Bool) (r : Reject) (i : Instr) : Decoded := if c then .ok i else .error r

/-- A scope code that is not reserved (01 R15). -/
def scopeOk (s : BitVec 3) : Bool := s.toNat < 6

/-- Major 0x00: OPR (03 R73). -/
def decodeOpr (w : Parcel) : Decoded :=
  let d := fld w 7 5; let a := fld w 12 5; let b := fld w 17 5
  match (fld w 28 4).toNat, (fld w 22 6).toNat with
  | 0, 0 => .ok (.add d a b) | 1, 0 => .ok (.addW d a b)
  | 0, 1 => .ok (.sub d a b) | 1, 1 => .ok (.subW d a b)
  | 0, 2 => .ok (.and d a b) | 0, 3 => .ok (.or d a b)
  | 0, 4 => .ok (.xor d a b) | 0, 5 => .ok (.andn d a b)
  | 0, 6 => .ok (.sll d a b) | 1, 6 => .ok (.sllW d a b)
  | 0, 7 => .ok (.srl d a b) | 1, 7 => .ok (.srlW d a b)
  | 0, 8 => .ok (.sra d a b) | 1, 8 => .ok (.sraW d a b)
  | 0, 9 => .ok (.rol d a b) | 0, 10 => .ok (.ror d a b)
  | 0, 11 => .ok (.slt d a b) | 0, 12 => .ok (.sltn d a b)
  | 0, 13 => .ok (.min d a b) | 0, 14 => .ok (.max d a b)
  | 0, 15 => .ok (.minn d a b) | 0, 16 => .ok (.maxn d a b)
  | 0, 17 => .ok (.mul d a b) | 1, 17 => .ok (.mulW d a b)
  | 0, 18 => .ok (.mulh d a b) | 0, 19 => .ok (.mulhn d a b)
  | 0, 20 => .ok (.div d a b) | 1, 20 => .ok (.divW d a b)
  | 0, 21 => .ok (.divn d a b) | 1, 21 => .ok (.divnW d a b)
  | 0, 22 => .ok (.rem d a b) | 1, 22 => .ok (.remW d a b)
  | 0, 23 => .ok (.remn d a b) | 1, 23 => .ok (.remnW d a b)
  | 0, 24 => need (b == 0) .reservedBits (.clz d a)
  | 0, 25 => need (b == 0) .reservedBits (.ctz d a)
  | 0, 26 => need (b == 0) .reservedBits (.popc d a)
  | _, _ => .error .oprSelector

/-- Major 0x07: SHI (03 R72, 04 R124). -/
def decodeShi (w : Parcel) : Decoded :=
  let d := fld w 7 5; let a := fld w 12 5; let sh := fld w 17 6
  if fld w 25 7 ≠ 0 then .error .shiReserved else
  match (fld w 23 2).toNat with
  | 0 => .ok (.slli d a sh) | 1 => .ok (.srli d a sh)
  | 2 => .ok (.srai d a sh) | _ => .ok (.rori d a sh)

/-- Major 0x0C: BR (04 R127). -/
def decodeBr (w : Parcel) : Decoded :=
  let a := fld w 7 5; let b := fld w 12 5; let off := fld w 20 12
  match (fld w 17 3).toNat with
  | 0 => .ok (.beq a b off) | 1 => .ok (.bne a b off) | 2 => .ok (.blt a b off)
  | 3 => .ok (.bge a b off) | 4 => .ok (.bltn a b off) | 5 => .ok (.bgen a b off)
  | _ => .error .brCond

/-- Major 0x0F: AMO (07 R202). -/
def decodeAmo (w : Parcel) : Decoded :=
  let d := fld w 7 5; let a := fld w 12 5; let b := fld w 17 5
  let sem := fld w 26 2; let sc := fld w 28 3; let z := fld w 31 1 == 1
  let ok := scopeOk sc
  match (fld w 22 4).toNat with
  | 0 => need ok .scopeReserved (.amoswap d a b sem sc z)
  | 1 => need ok .scopeReserved (.amoadd d a b sem sc z)
  | 2 => need ok .scopeReserved (.amoand d a b sem sc z)
  | 3 => need ok .scopeReserved (.amoor d a b sem sc z)
  | 4 => need ok .scopeReserved (.amoxor d a b sem sc z)
  | 5 => need ok .scopeReserved (.amomin d a b sem sc z)
  | 6 => need ok .scopeReserved (.amomax d a b sem sc z)
  | 7 => need ok .scopeReserved (.amominn d a b sem sc z)
  | 8 => need ok .scopeReserved (.amomaxn d a b sem sc z)
  | _ => .error .amoOp

/-- Major 0x11: FENCE and FENCE.I (07 R205, R206). -/
def decodeFence (w : Parcel) : Decoded :=
  if fld w 31 1 == 1 then need (fld w 7 24 == 0) .fenceIBits .fenceI
  else if fld w 7 5 ≠ 0 then .error .reservedBits
  else need (scopeOk (fld w 28 3)) .scopeReserved (.fence (fld w 12 16) (fld w 28 3))

/-- Major 0x12: SYS (04 R129 to R132). -/
def decodeSys (w : Parcel) : Decoded :=
  if fld w 28 4 ≠ 0 then .error .reservedBits else
  match (fld w 22 6).toNat with
  | 0 => need (fld w 7 5 == 0) .reservedBits (.trap (fld w 12 10))
  | 1 => need (fld w 7 15 == 0) .reservedBits .rett
  | 2 => need (fld w 7 10 == 0 && fld w 18 4 == 0) .reservedBits (.yield (fld w 17 1 == 1))
  | 3 => need (fld w 17 5 == 0) .reservedBits (.waite (fld w 7 5) (fld w 12 5))
  | _ => .error .sysSelector

/-- Major 0x13: CSR (04 R112). -/
def decodeCsr (w : Parcel) : Decoded :=
  let d := fld w 7 5; let a := fld w 12 5; let c := fld w 17 12
  match (fld w 29 3).toNat with
  | 0 => need (a == 0) .csrZeroField (.csrr d c)
  | 1 => need (d == 0) .csrZeroField (.csrw a c)
  | 2 => need (d == 0) .csrZeroField (.csrs a c)
  | 3 => need (d == 0) .csrZeroField (.csrc a c)
  | 4 => .ok (.csrx d a c)
  | _ => .error .csrOp

/-- Major 0x14: SETVL (05 R134). A reserved type code is ILLEGAL (02 R39). -/
def decodeSetvl (w : Parcel) : Decoded :=
  let d := fld w 7 5; let a := fld w 12 5; let t := fld w 17 5
  if fld w 28 4 ≠ 0 then .error .reservedBits
  else if !(Ty.isFormat t.toNat || t.toNat == Ty.dyn) then .error .vectorField
  else if fld w 22 1 == 1 then .ok (.setvlDistance d a (fld w 23 5) t)
  else need (fld w 23 5 == 0) .reservedBits (.setvl d a t)

/-- Major 0x15: ENG (03 R74). -/
def decodeEng (w : Parcel) : Decoded :=
  let d := fld w 7 5; let a := fld w 12 5; let b := fld w 17 5; let sc := fld w 28 3
  let d0 := d == 0; let a0 := a == 0; let b0 := b == 0; let s0 := sc == 0
  if fld w 31 1 ≠ 0 then .error .reservedBits else
  match (fld w 22 6).toNat with
  | 0 => if b.toNat < 10 then need (d0 && s0) .reservedBits (.cpw b a) else .error .cpwIndex
  | 1 => need (b0 && s0) .reservedBits (.cpgo d a)
  | 2 => if scopeOk sc then need d0 .reservedBits (.tlwait a b sc) else .error .scopeReserved
  | 3 => need (b0 && s0) .reservedBits (.tlread d a)
  | 4 => need (d0 && s0) .reservedBits (.binit a b)
  | 5 => need (b0 && s0) .reservedBits (.barrive d a)
  | 6 => need (d0 && s0) .reservedBits (.bexp a b)
  | 7 => if scopeOk sc then need (d0 && b0) .reservedBits (.bwait a sc) else .error .scopeReserved
  | 8 => need (b0 && s0) .reservedBits (.btest d a)
  | 9 => need (d0 && b0 && s0) .reservedBits (.binval a)
  | 10 => need s0 .reservedBits (.klaunch d a b)
  | 11 => if scopeOk sc then need (d0 && a0) .reservedBits (.gsync b sc) else .error .scopeReserved
  | 12 => need (d0 && a0 && b0 && s0) .reservedBits .gexit
  | 13 => need (b0 && s0) .reservedBits (.mxgo d a)
  | _ => .error .engSelector

/-- A scalar parcel, bit 0 clear (03 R68, R71, R72). -/
def decodeScalar (w : Parcel) : Decoded :=
  let d := fld w 7 5; let a := fld w 12 5; let imm15 := fld w 17 15
  match (fld w 1 6).toNat with
  | 0x00 => decodeOpr w
  | 0x01 => .ok (.addi d a imm15) | 0x02 => .ok (.andi d a imm15)
  | 0x03 => .ok (.ori d a imm15) | 0x04 => .ok (.xori d a imm15)
  | 0x05 => .ok (.slti d a imm15) | 0x06 => .ok (.sltni d a imm15)
  | 0x07 => decodeShi w
  | 0x08 => .ok (.ldhi d (fld w 12 20)) | 0x09 => .ok (.addpc d (fld w 12 20))
  | 0x0A =>
    need (!(fld w 23 1 == 1 && fld w 21 2 == 3)) .ldSize
      (.ld d a (fld w 17 4) (fld w 21 2) (fld w 23 1 == 1) (fld w 24 8))
  | 0x0B => need (fld w 23 1 == 0) .stSx (.st d a (fld w 17 4) (fld w 21 2) (fld w 24 8))
  | 0x0C => decodeBr w
  | 0x0D => .ok (.jal d (fld w 12 20))
  | 0x0E => .ok (.jalr d a imm15)
  | 0x0F => decodeAmo w
  | 0x10 =>
    if fld w 22 4 ≠ 0 then .error .amoOp
    else need (scopeOk (fld w 28 3)) .scopeReserved
      (.cas d a (fld w 17 5) (fld w 26 2) (fld w 28 3) (fld w 31 1 == 1))
  | 0x11 => decodeFence w
  | 0x12 => decodeSys w
  | 0x13 => decodeCsr w
  | 0x14 => decodeSetvl w
  | 0x15 => decodeEng w
  | 0x3F => .ok (.hint (fld w 7 25))
  | _ => .error .majorUnassigned

/-! ## Vector words -/

/-- The fields of a vector word (03 R83). -/
def unpackV (w : BitVec 64) : VWord where
  vd := fld w 8 5
  vs1 := fld w 13 5
  vs2 := fld w 18 5
  vs3 := fld w 23 5
  xl := fld w 28 5
  me := fld w 33 1 == 1
  mp := fld w 34 3
  pol := fld w 37 1 == 1
  ty := fld w 38 5
  te := fld w 43 3
  rm := fld w 46 2
  imm := fld w 48 16

namespace VWord

/-- A type field that the family accepts: one of its formats, or dyn, which is tested at use (02 R39). -/
def tyIn (v : VWord) (acc : Nat → Bool) : Bool := acc v.ty.toNat || v.ty.toNat == Ty.dyn

def z1 (v : VWord) : Bool := v.vs1 == 0
def z2 (v : VWord) : Bool := v.vs2 == 0
def z3 (v : VWord) : Bool := v.vs3 == 0
def rm0 (v : VWord) : Bool := v.rm == 0
def imm0 (v : VWord) : Bool := v.imm == 0
/-- ME, MP and POL as an instruction that takes any mask allows: MP and POL are unused, hence zero, while ME = 0. -/
def maskAny (v : VWord) : Bool := v.me || (v.mp == 0 && !v.pol)
/-- As `maskAny`, with POL = 0 required. -/
def maskMerge (v : VWord) : Bool := (v.me || v.mp == 0) && !v.pol
/-- ME = 0 required. -/
def maskNone (v : VWord) : Bool := !v.me && v.mp == 0 && !v.pol
/-- TE bits set only for the v sources read (03 R84): masks 1 vs1, 2 vs2, 4 vs3. -/
def teIn (v : VWord) (m : BitVec 3) : Bool := (v.te &&& ~~~m) == 0
/-- The predicate destination form of vd: bits [12:11] zero. -/
def pd (v : VWord) : Bool := v.vd.toNat < 8
def ps1 (v : VWord) : Bool := v.vs1.toNat < 8
def ps2 (v : VWord) : Bool := v.vs2.toNat < 8
def sx (v : VWord) : Bool := v.imm.getLsbD 0

/-- VALU binary (05 R140, R141). -/
def binary (v : VWord) (acc : Nat → Bool) : Bool :=
  v.tyIn acc && v.maskAny && v.rm0 &&
    (if v.sx then v.z2 && v.imm == 1 && v.teIn 1 else v.z3 && v.imm0 && v.teIn 3)

/-- VMOVX (05 R140, R143): DIR in imm16[0]. -/
def movx (v : VWord) : Bool :=
  v.tyIn Ty.accBits && v.rm0 && v.z2 &&
    (if v.imm == 1 then v.maskNone && v.teIn 1 else v.imm0 && v.maskAny && v.z1 && v.teIn 0)

/-- VCMP (05 R144). -/
def cmp (v : VWord) : Bool :=
  v.tyIn Ty.accAdd && v.maskAny && v.rm0 && v.pd && (fld v.imm 4 12 == 0) && (fld v.imm 1 3).toNat < 6 &&
    (if v.sx then v.z2 && v.teIn 1 else v.z3 && v.teIn 3)

/-- PAND to PANDN (05 R146). -/
def pbin (v : VWord) : Bool :=
  Ty.isFormat v.ty.toNat && v.maskAny && v.rm0 && v.pd && v.ps1 && v.ps2 && v.z3 && v.imm0 && v.teIn 0

/-- PCNT, PFIRST (05 R146). Their POL writes nothing and is allowed, as R140's "yes" gives. -/
def pcount (v : VWord) : Bool :=
  Ty.isFormat v.ty.toNat && v.maskAny && v.rm0 && v.ps1 && v.z2 && v.z3 && v.imm0 && v.teIn 0

/-- VFPU arithmetic of two sources (05 R140, R147); `rmOk` says which rounding fields it takes. -/
def fp2 (v : VWord) (rmOk : Bool) : Bool :=
  v.tyIn Ty.isF && v.maskAny && rmOk && v.z3 && v.imm0 && v.teIn 3

def fp1 (v : VWord) (rmOk : Bool) : Bool :=
  v.tyIn Ty.isF && v.maskAny && rmOk && v.z2 && v.z3 && v.imm0 && v.teIn 1

def fp3 (v : VWord) (rmOk : Bool) : Bool :=
  v.tyIn Ty.isF && v.maskAny && rmOk && v.imm0 && v.teIn 7

/-- Any rounding but SR (02 R48). -/
def rmNotSr (v : VWord) : Bool := v.rm ≠ 2

def fcmp (v : VWord) : Bool :=
  v.tyIn Ty.isF && v.maskAny && v.rm0 && v.pd && v.z3 && (fld v.imm 3 13 == 0) &&
    (fld v.imm 0 3).toNat < 5 && v.teIn 3

/-- VFCVT (05 R149): source type in imm16[4:0]. -/
def fcvt (v : VWord) : Bool :=
  let s := (fld v.imm 0 5).toNat
  v.maskAny && v.z2 && v.z3 && (fld v.imm 5 11 == 0) && v.teIn 1 && Ty.accCvt s &&
    !(v.me && Ty.isBfp s) && (v.ty.toNat == Ty.dyn || Ty.cvtOk v.ty.toNat s v.me)

/-- VNARROW (05 R145): the shift in imm16[5:0] is below the width. -/
def narrow (v : VWord) : Bool :=
  v.tyIn Ty.accNarrow && v.maskAny && v.z2 && v.z3 && v.teIn 1 && (fld v.imm 6 10 == 0) &&
    (v.ty.toNat == Ty.dyn || (fld v.imm 0 6).toNat < Ty.width v.ty.toNat)

/-- BFP eoff must be a multiple of 32 (06 R160), a sub-byte bit offset 0 to 7 (03 R83). -/
def eoffOk (v : VWord) (t : Nat) : Bool :=
  if Ty.isBfp t then fld v.imm 4 5 == 0 else if Ty.isSub t then fld v.imm 7 1 == 0 else true

/-- The fields every VMEM word shares (06 R158). -/
def mem (v : VWord) (acc : Nat → Bool) (te : BitVec 3) : Bool :=
  v.tyIn acc && v.rm0 && v.teIn te && (v.ty.toNat == Ty.dyn || v.eoffOk v.ty.toNat)

/-- A BFP permute takes no mask (05 R152). -/
def moveMask (v : VWord) : Bool := if Ty.isBfp v.ty.toNat then v.maskNone else v.maskAny

def move (v : VWord) (te : BitVec 3) : Bool := v.tyIn Ty.accMove && v.rm0 && v.moveMask && v.teIn te

/-- VXQ (05 R140, R154): RM zero for integers, not SR for floats. -/
def xq (v : VWord) (acc : Nat → Bool) : Bool :=
  v.tyIn acc && v.maskAny && v.z3 && (fld v.imm 1 15 == 0) && v.rmNotSr && (!Ty.isInt v.ty.toNat || v.rm0)

/-- VEXTA, with no mask for a BFP type (05 R140, R155). -/
def exta (v : VWord) : Bool :=
  v.tyIn Ty.accExta && v.z1 && v.z2 && v.teIn 0 && (fld v.imm 3 13 == 0) && v.moveMask

end VWord

/-- Units 0 and 1, VALU.A and VALU.B, which decode one map (03 R77, R85). -/
def decodeValu (vop : Nat) (v : VWord) : Decoded :=
  let n (c : Bool) (i : Instr) : Decoded := need c .vectorField i
  match vop with
  | 0 => n (v.binary Ty.accAdd) (.vadd v) | 1 => n (v.binary Ty.accAdd) (.vsub v)
  | 2 => n (v.binary Ty.accMul) (.vmul v) | 3 => n (v.binary Ty.accMul) (.vmulh v)
  | 4 => n (v.binary Ty.accAdd) (.vmin v) | 5 => n (v.binary Ty.accAdd) (.vmax v)
  | 6 => n (v.binary Ty.accBits) (.vand v) | 7 => n (v.binary Ty.accBits) (.vor v)
  | 8 => n (v.binary Ty.accBits) (.vxor v) | 9 => n (v.binary Ty.accMul) (.vsll v)
  | 10 => n (v.binary Ty.accMul) (.vsrl v) | 11 => n (v.binary Ty.accMul) (.vsra v)
  | 12 => n (v.binary Ty.accAdd) (.vsadd v) | 13 => n (v.binary Ty.accAdd) (.vssub v)
  | 14 => n (v.binary Ty.accMul) (.vabsd v)
  | 15 => n (v.tyIn Ty.accBits && v.me && !v.pol && v.rm0 && v.z3 && v.imm0 && v.teIn 3) (.vmerge v)
  | 16 => n v.movx (.vmovx v)
  | 17 => n (v.tyIn Ty.accMul && v.maskAny && v.rm0 && v.z1 && v.z2 && v.imm0 && v.teIn 0) (.vidx v)
  | 18 => n v.cmp (.vcmp v)
  | 19 => n (v.tyIn Ty.accWiden && v.maskAny && v.rm0 && v.z3 && v.imm0 && v.teIn 3) (.vwmul v)
  | 20 => n (v.tyIn Ty.accWiden && v.maskAny && v.rm0 && v.z3 && v.imm0 && v.teIn 3) (.vwadd v)
  | 21 => n v.narrow (.vnarrow v)
  | 32 => n v.pbin (.pand v) | 33 => n v.pbin (.por v)
  | 34 => n v.pbin (.pxor v) | 35 => n v.pbin (.pandn v)
  | 36 => n (Ty.isFormat v.ty.toNat && v.maskAny && v.rm0 && v.pd && v.z1 && v.z2 && v.z3 &&
      (fld v.imm 1 15 == 0) && v.teIn 0) (.pset v)
  | 37 => n v.pcount (.pcnt v) | 38 => n v.pcount (.pfirst v)
  | _ => .error .vopUnassigned

/-- Unit 2, VFPU. -/
def decodeVfpu (vop : Nat) (v : VWord) : Decoded :=
  let n (c : Bool) (i : Instr) : Decoded := need c .vectorField i
  match vop with
  | 0 => n (v.fp2 v.rmNotSr) (.vfadd v) | 1 => n (v.fp2 v.rmNotSr) (.vfsub v)
  | 2 => n (v.fp2 v.rmNotSr) (.vfmul v) | 3 => n (v.fp3 v.rmNotSr) (.vfma v)
  | 4 => n (v.fp3 v.rmNotSr) (.vfms v) | 5 => n (v.fp3 v.rmNotSr) (.vfnma v)
  | 6 => n (v.fp2 v.rmNotSr) (.vfdiv v) | 7 => n (v.fp1 v.rmNotSr) (.vfsqrt v)
  | 8 => n (v.fp2 v.rm0) (.vfmin v) | 9 => n (v.fp2 v.rm0) (.vfmax v)
  | 10 => n v.fcmp (.vfcmp v) | 11 => n v.fcvt (.vfcvt v)
  | 12 => n (v.fp1 v.rm0) (.vfrece v) | 13 => n (v.fp1 v.rm0) (.vfrsqe v)
  | _ => .error .vopUnassigned

/-- Unit 3, VMEM. -/
def decodeVmem (vop : Nat) (v : VWord) : Decoded :=
  let n (c : Bool) (i : Instr) : Decoded := need c .vectorField i
  match vop with
  | 0 => n (v.mem Ty.accLd 0 && v.maskAny && v.z2 && v.z3) (.vld v)
  | 1 => n (v.mem Ty.isWhole 0 && v.maskAny && v.z2) (.vlds v)
  | 2 => n (v.mem Ty.isWhole 2 && v.maskAny && v.z3) (.vldx v)
  | 3 => n (v.mem Ty.accLdff 0 && v.maskAny && v.z2 && v.z3) (.vldff v)
  | 4 => n (v.mem Ty.accLd 0 && v.maskMerge && v.z2 && v.z3) (.vst v)
  | 5 => n (v.mem Ty.isWhole 0 && v.maskMerge && v.z2) (.vsts v)
  | 6 => n (v.mem Ty.isWhole 2 && v.maskMerge && v.z3) (.vstx v)
  | _ => .error .vopUnassigned

/-- Unit 4, VPERM. -/
def decodeVperm (vop : Nat) (v : VWord) : Decoded :=
  let n (c : Bool) (i : Instr) : Decoded := need c .vectorField i
  let red (acc : Nat → Bool) : Bool := v.tyIn acc && v.maskMerge && v.z3 && v.imm0 && v.teIn 3
  match vop with
  | 0 => n (v.move 3 && v.z3 && v.imm0) (.vperm v)
  | 1 => n (v.move 1 && v.z2 && v.imm0) (.vslideup v)
  | 2 => n (v.move 1 && v.z2 && v.imm0) (.vslidedn v)
  | 3 => n (v.tyIn Ty.isWhole && v.rm0 && v.me && v.z2 && v.z3 && v.imm0 && v.teIn 1) (.vcompress v)
  | 4 => n (v.tyIn Ty.isWhole && v.rm0 && v.me && v.z2 && v.z3 && v.imm0 && v.teIn 1) (.vexpand v)
  | 5 => n (v.move 1 && v.z2 && v.imm0) (.vbcaste v)
  | 6 => n (v.move 3 && v.z3 && v.imm0) (.vzip v)
  | 7 => n (v.move 3 && v.z3 && (fld v.imm 1 15 == 0)) (.vunzip v)
  | 8 => n (red Ty.isInt && v.rm0) (.vredsum v)
  | 9 => n (red Ty.isInt && v.rm0) (.vredmax v)
  | 10 => n (red Ty.isInt && v.rm0) (.vredmin v)
  | 11 => n (red Ty.isF && (v.rm == 0 || v.rm == 3)) (.vfredsum v)
  | _ => .error .vopUnassigned

/-- Units 5, 6 and 7: VXQ, VACC, VSTR. -/
def decodeVxq (vop : Nat) (v : VWord) : Decoded :=
  let n (c : Bool) (i : Instr) : Decoded := need c .vectorField i
  match vop with
  | 0 => n (v.xq Ty.accXqAdd && v.z2 && v.teIn 1) (.vxqadd v)
  | 1 => n (v.xq Ty.isInt && v.z2 && v.teIn 1 && v.rm0) (.vxqmax v)
  | 2 => n (v.xq Ty.isF && v.teIn 3) (.vxqfma v)
  | _ => .error .vopUnassigned

def decodeVacc (vop : Nat) (v : VWord) : Decoded :=
  let n (c : Bool) (i : Instr) : Decoded := need c .vectorField i
  match vop with
  | 0 => n v.exta (.vexta v)
  | 1 => n (v.tyIn Ty.accInsa && v.maskAny && v.rm0 && v.vd == 0 && v.z2 && (fld v.imm 2 14 == 0) &&
      v.teIn 1) (.vinsa v)
  | 2 => n (v.tyIn Ty.accZera && v.maskNone && v.rm0 && v.vd == 0 && v.z1 && v.z2 && (fld v.imm 2 14 == 0) &&
      v.teIn 0) (.vzera v)
  | _ => .error .vopUnassigned

def decodeVstr (vop : Nat) (v : VWord) : Decoded :=
  let n (c : Bool) (i : Instr) : Decoded := need c .vectorField i
  let st := v.vs1.toNat < 4 && v.z2 && v.z3 && v.maskNone && v.rm0 && v.imm0 && v.teIn 0
  match vop with
  | 0 => n (st && v.tyIn Ty.accMove) (.srd v)
  | 1 => n (st && v.ty == 0 && v.xl == 0) (.srstat v)
  | _ => .error .vopUnassigned

/-- A slot word of a hart convoy in unit `unit` (03 R85). -/
def decodeVector (unit : Nat) (w : BitVec 64) : Decoded :=
  let vop := (fld w 0 8).toNat
  let v := unpackV w
  match unit with
  | 0 => decodeValu vop v | 1 => decodeValu vop v | 2 => decodeVfpu vop v | 3 => decodeVmem vop v
  | 4 => decodeVperm vop v | 5 => decodeVxq vop v | 6 => decodeVacc vop v | 7 => decodeVstr vop v
  | _ => .error .headerUnit

/-! ## Matrix words -/

/-- The fields of a matrix word (03 R86). -/
def unpackM (w : BitVec 64) : MWord where
  ad := fld w 8 2
  md := fld w 10 4
  ms1 := fld w 14 4
  ms2 := fld w 18 4
  xa := fld w 22 5
  xb := fld w 27 5
  ta := fld w 32 5
  tb := fld w 37 5
  sw := fld w 42 3
  sp := fld w 45 1 == 1
  rm := fld w 46 2
  imm := fld w 48 16

namespace MWord

/-- imm16[15] is FIN; the other bits but the allowed low ones are zero (12 R323). -/
def immOk (m : MWord) (low : Bool) : Bool := fld m.imm 1 14 == 0 && (low || fld m.imm 0 1 == 0)
def fin (m : MWord) : Bool := m.imm.getLsbD 15
def br (m : MWord) : Bool := m.imm.getLsbD 0
def rmOk (m : MWord) : Bool := m.rm ≠ 2

/-- The fields a word does not use are zero (03 R84, 12 R323); each argument says whether the field is used. -/
def only (m : MWord) (ad md ms1 ms2 xa xb ta tb sw sp rm : Bool) : Bool :=
  (ad || m.ad == 0) && (md || m.md == 0) && (ms1 || m.ms1 == 0) && (ms2 || m.ms2 == 0) &&
  (xa || m.xa == 0) && (xb || m.xb == 0) && (ta || m.ta == 0) && (tb || m.tb == 0) &&
  (sw || m.sw == 0) && (sp || !m.sp) && (rm || m.rm == 0)

end MWord

/-- K of an MMA operand type (12 R316). -/
def mmaK (t : Nat) : Nat :=
  match t with
  | 8 => 64 | 0 => 128 | 11 => 128 | 12 => 128 | 22 => 128 | 18 => 256 | 16 => 512 | _ => 0

/-- MMA's field and type rules (12 R318, R323, R324). -/
def mmaOk (m : MWord) : Bool :=
  let ta := m.ta.toNat; let tb := m.tb.toNat
  m.immOk true && m.rmOk && (!m.sp || Ty.accSparse ta) &&
    (if m.br then m.only true false false true true false true false true true true && ta == 8
     else m.only true false false false true true true true true true true && Ty.accMma ta && Ty.accMma tb &&
       mmaK ta == mmaK tb && (m.sw == 0 || (!Ty.isBfp ta && !Ty.isBfp tb)))

/-- A slot word of a sequencer convoy, unit 8 (03 R87, 12 R323). -/
def decodeMatrix (w : BitVec 64) : Decoded :=
  let m := unpackM w
  let n (c : Bool) (i : Instr) : Decoded := need c .matrixField i
  let t := m.ta.toNat
  match (fld w 0 8).toNat with
  | 0 => n (mmaOk m) (.mma m)
  | 1 => n (m.immOk false && m.only true false false false false false false false false false false) (.mzero m)
  | 2 => n (m.immOk false && Ty.accTile t &&
      m.only false true false false true false true false true false false) (.mtld m)
  | 3 => n (m.immOk false && Ty.accTile t && m.rmOk &&
      m.only false false true false true false true false true false true) (.mtst m)
  | 4 => n (m.immOk true && m.only false true false false true false false false false false false) (.mqld m)
  | 5 => n (m.immOk false && m.only false false true false true false false false false false false) (.mqst m)
  | 6 => n (m.immOk true && m.rmOk &&
      m.only false true true true false false false false false false true) (.mqadd m)
  | 7 => n (m.immOk true && m.rmOk &&
      m.only false true true true false false false false false false true) (.mqmul m)
  | 8 => n (m.immOk false && m.only false true true false false false false false false false false) (.chisel m)
  | 9 => n (m.immOk false && m.rmOk && Ty.accTile t &&
      m.only false true true false false false true false false false true) (.mqcast m)
  | 10 => n (m.immOk false && m.only false false true false true false false false false false false) (.mqrank m)
  | 11 => n (m.immOk false && m.only false true false false false false false false false false false) (.mqfree m)
  | 12 => n (m.immOk false && m.rmOk &&
      m.only false true true false true false false false false false true) (.mqscl m)
  | 13 => n (m.immOk false && Ty.isFormat t && (m.sw == 0 || !Ty.isBfp t) &&
      m.only false false false false true true true false true false false) (.mthdr m)
  | _ => .error .mopUnassigned

/-! ## Bank words -/

/-- The fields of a bank word (03 R88). -/
def unpackB (w : BitVec 64) : BWord where
  sd := fld w 8 2
  sa := fld w 10 2
  sb := fld w 12 2
  q := fld w 14 1 == 1
  pr := fld w 15 1 == 1
  ty := fld w 16 5
  bd := fld w 21 4
  bs1 := fld w 25 4
  bs2 := fld w 29 4
  imm := fld w 33 31

namespace BWord

/-- The fields a word does not use are zero (03 R89); `immW` immediate bits are used. -/
def only (b : BWord) (sd sa sb q pr ty bd bs1 bs2 : Bool) (immW : Nat) : Bool :=
  (sd || b.sd == 0) && (sa || b.sa == 0) && (sb || b.sb == 0) && (q || !b.q) && (pr || !b.pr) &&
  (ty || b.ty == 0) && (bd || b.bd == 0) && (bs1 || b.bs1 == 0) && (bs2 || b.bs2 == 0) &&
  b.imm.toNat < 2 ^ immW

/-- Row arithmetic of two sources (10 R268, R275). -/
def row2 (b : BWord) (immW : Nat) : Bool :=
  b.only true true true false true true false false false immW && Ty.accRow b.ty.toNat

/-- H is zero for 16-bit types (10 R266). -/
def hOk (b : BWord) : Bool := Ty.width b.ty.toNat != 16 || !b.imm.getLsbD 0

end BWord

/-- The condition on the words of bops 0 to 32 (10 R268 to R280). -/
def rowWordOk (bop : Nat) (b : BWord) : Bool :=
  let t := b.ty.toNat
  match bop with
  | 0 => b.only true false false false true false false true false 13 && (b.imm.getLsbD 12 || b.bs1 == 0)
  | 1 => b.only true false false false true false false false false 1
  | 2 => b.only true false false false true false false false false 0
  | 3 => b.only false false false false true false false false false 0
  | 4 => b.only false false false false true false true false false 3 && b.imm.toNat < 6
  | 5 => b.only true false false false true false false false false 24
  | 6 => b.only true false false false true false false false false 0
  | 16 => b.only true true false false true true false false false 6 && Ty.accRow t && Ty.isInt t &&
      b.imm.toNat < Ty.width t
  | 17 => b.only true true true false true true false true false 0 && Ty.accRow t
  | 18 => b.row2 3 && b.imm.toNat < 7 && !(Ty.isInt t && b.imm.toNat == 6)
  | 20 =>
    let s := (fld b.imm 0 5).toNat
    b.only true true false false true true false false false 7 && Ty.accRcvt t && Ty.accRcvt s && t != s &&
      (Ty.width t != Ty.width s || !b.imm.getLsbD 5)
  | 24 => b.only false false false true true false false false false 0
  | 25 => b.only false true false true true true false false false 1 && Ty.accRow t && b.hOk
  | 26 => b.only false true (!b.imm.getLsbD 1) true true true false (b.imm.getLsbD 1) false 2 && Ty.accRow t &&
      b.hOk
  | 27 => b.only true false false true true true false false false 1 && Ty.accRow t && b.hOk
  | 28 => b.only false true false true true true false false false 1 && Ty.accRow t && b.hOk
  | 32 =>
    b.only true false false true true true false (fld b.imm 24 2 == 1) false 27 && Ty.accRow t &&
      (Ty.width t != 16 || !b.imm.getLsbD 26)
  | _ => b.row2 0

/-- SHMOV's fields (11 R295); bcast's bound on k depends on the group and is the meaning's. -/
def shmovOk (b : BWord) : Bool :=
  let a := b.imm.getLsbD 6
  b.only true (!a) false a true false false false false 8 && (fld b.imm 0 2).toNat < 3 &&
    (a || (!b.imm.getLsbD 7 && b.sd != b.sa))

/-- The condition on the words of bops 40 to 59 (11 R295, R296, R302). -/
def moveWordOk (bop : Nat) (b : BWord) : Bool :=
  match bop with
  | 40 => shmovOk b
  | 41 => b.only false true false false true false false (b.imm.getLsbD 6) false 7
  | 42 => b.only true false false false true false false (b.imm.getLsbD 6) false 7
  | 48 => b.only false false false false true false true false false 31
  | 49 => b.only false false false false true false true true (!b.imm.getLsbD 0) 31 &&
      (b.imm.getLsbD 0 || b.imm.toNat < 2)
  | 50 =>
    let al := fld b.imm 0 3 == 6
    b.only false false false false false false false (!al) (!al) 15 && (fld b.imm 0 3).toNat < 7
  | 51 => b.only false false false false false false true false false 15 && b.bd ≠ 0 && fld b.imm 0 3 == 0
  | 52 =>
    let all := fld b.imm 0 3 == 6
    b.only false false false false (!all) false false (!all) (!all) 3 && b.imm.toNat < 7
  | 53 => b.only false false false false false false false false false 15 && fld b.imm 0 3 == 0
  | 57 => b.only false false false false false false false true true 0
  | _ => b.only false false false false false false false false false 0

/-- A bank word (03 R88, R89). A word that is not an instruction takes bank trap ILLEGAL. -/
def decodeBank (w : BitVec 64) : Decoded :=
  let b := unpackB w
  let bop := (fld w 0 8).toNat
  let r (i : Instr) : Decoded := need (rowWordOk bop b) .bankField i
  let m (i : Instr) : Decoded := need (moveWordOk bop b) .bankField i
  match bop with
  | 0 => r (.act b) | 1 => r (.pre b) | 2 => r (.wb b) | 3 => r (.refb b) | 4 => r (.refq b)
  | 5 => r (.rcopy b) | 6 => r (.rzero b)
  | 8 => r (.radd b) | 9 => r (.rsub b) | 10 => r (.rmul b) | 11 => r (.rmax b) | 12 => r (.rmin b)
  | 13 => r (.rand b) | 14 => r (.rior b) | 15 => r (.rxor b) | 16 => r (.rshr b) | 17 => r (.rscadd b)
  | 18 => r (.rcmp b) | 19 => r (.rsel b) | 20 => r (.rcvt b)
  | 24 => r (.qzero b) | 25 => r (.qacc b) | 26 => r (.qmac b) | 27 => r (.qwb b) | 28 => r (.qld b)
  | 32 => r (.rsweep b)
  | 40 => m (.shmov b) | 41 => m (.bufst b) | 42 => m (.bufld b)
  | 48 => m (.bli b) | 49 => m (.badd b) | 50 => m (.bbr b) | 51 => m (.bloop b) | 52 => m (.bpset b)
  | 53 => m (.bsplit b) | 54 => m (.bjoin b) | 55 => m (.bsig b) | 56 => m (.bend b) | 57 => m (.bwaitt b)
  | 58 => m (.brett b) | 59 => m (.bnop b)
  | _ => .error .bopUnassigned

/-! ## Headers -/

/-- COUNT of a convoy header (03 R76). -/
def headerCount (h : Parcel) : Nat := (fld h 1 3).toNat
def headerChain (h : Parcel) : Bool := fld h 4 1 == 1
/-- The unit code of slot i. -/
def headerUnit (h : Parcel) (i : Nat) : Nat := (fld h (5 + 4 * i) 4).toNat

/-- The header faults of R78 that the header alone shows, for a hart stream (`seq` false) or a sequencer
stream (`seq` true). -/
def headerCheck (seq : Bool) (h : Parcel) : Except Reject Unit :=
  let c := headerCount h
  let slots := List.range 6
  if c == 0 || c == 7 then .error .headerCount
  else if fld h 29 3 ≠ 0 then .error .headerReserved
  else if slots.any (fun i => decide (c ≤ i) && headerUnit h i != 0) then .error .headerUnit
  else if slots.any (fun i => decide (9 ≤ headerUnit h i)) then .error .headerUnit
  else if (List.range c).any (fun i => (headerUnit h i == 8) != seq) then .error .headerStream
  else if seq && headerChain h then .error .headerStream
  else .ok ()

/-- The word of slot i of a convoy with header h. -/
def decodeSlot (h : Parcel) (i : Nat) (w : BitVec 64) : Decoded :=
  if headerUnit h i == 8 then decodeMatrix w else decodeVector (headerUnit h i) w

/-! ## The encoder -/

/-- The word a well-formed instruction stands as: a parcel, a slot word with its unit code, a bank word, or
nothing for a step of the device. -/
inductive Encoded where
  | parcel (w : Parcel)
  | slot (unit : Nat) (w : BitVec 64)
  | bank (w : BitVec 64)
  | none
  deriving DecidableEq, Repr

/-- The major opcode with bit 0 clear, bits [6:0] (03 R71). -/
abbrev majorBits (m : BitVec 6) : BitVec 7 := m ++ (0 : BitVec 1)

/-- Format R (03 R71). -/
def packR (fn4 : BitVec 4) (fn6 : BitVec 6) (b a d : Reg) (major : BitVec 6) : Parcel :=
  fn4 ++ fn6 ++ b ++ a ++ d ++ majorBits major

/-- Format I (03 R71). -/
def packI (imm : BitVec 15) (a d : Reg) (major : BitVec 6) : Parcel := imm ++ a ++ d ++ majorBits major

/-- Formats U and J (03 R71). -/
def packU (imm : BitVec 20) (d : Reg) (major : BitVec 6) : Parcel := imm ++ d ++ majorBits major

def bit1 (b : Bool) : BitVec 1 := if b then 1 else 0

def packShi (kind : BitVec 2) (sh : BitVec 6) (a d : Reg) : Parcel :=
  (0 : BitVec 7) ++ kind ++ sh ++ a ++ d ++ majorBits 0x07

def packBr (off : BitVec 12) (cond : BitVec 3) (b a : Reg) : Parcel :=
  off ++ cond ++ b ++ a ++ majorBits 0x0C

def packMem (imm : BitVec 8) (sx : Bool) (size : BitVec 2) (cls : BitVec 4) (a d : Reg) (major : BitVec 6) :
    Parcel := imm ++ bit1 sx ++ size ++ cls ++ a ++ d ++ majorBits major

def packAmo (w : Bool) (scope : BitVec 3) (sem : BitVec 2) (op : BitVec 4) (b a d : Reg) (major : BitVec 6) :
    Parcel := bit1 w ++ scope ++ sem ++ op ++ b ++ a ++ d ++ majorBits major

def packCsr (op : BitVec 3) (csr : BitVec 12) (a d : Reg) : Parcel := op ++ csr ++ a ++ d ++ majorBits 0x13

def packEng (scope : BitVec 3) (fn6 : BitVec 6) (b a d : Reg) : Parcel :=
  (0 : BitVec 1) ++ scope ++ fn6 ++ b ++ a ++ d ++ majorBits 0x15

/-- A vector word (03 R83). -/
def packV (vop : BitVec 8) (v : VWord) : BitVec 64 :=
  v.imm ++ v.rm ++ v.te ++ v.ty ++ bit1 v.pol ++ v.mp ++ bit1 v.me ++ v.xl ++ v.vs3 ++ v.vs2 ++ v.vs1 ++ v.vd ++ vop

/-- A matrix word (03 R86). -/
def packM (mop : BitVec 8) (m : MWord) : BitVec 64 :=
  m.imm ++ m.rm ++ bit1 m.sp ++ m.sw ++ m.tb ++ m.ta ++ m.xb ++ m.xa ++ m.ms2 ++ m.ms1 ++ m.md ++ m.ad ++ mop

/-- A bank word (03 R88). -/
def packB (bop : BitVec 8) (b : BWord) : BitVec 64 :=
  b.imm ++ b.bs2 ++ b.bs1 ++ b.bd ++ b.ty ++ bit1 b.pr ++ bit1 b.q ++ b.sb ++ b.sa ++ b.sd ++ bop

/-- The words of an instruction, from the encoding tables of 03 R72 to R74, R85, R87 and R89. Steps of the
device, the host and the world have no word. -/
def encode : Instr → Encoded
  | .add d a b => .parcel (packR 0 0 b a d 0x00)
  | .addW d a b => .parcel (packR 1 0 b a d 0x00)
  | .sub d a b => .parcel (packR 0 1 b a d 0x00)
  | .subW d a b => .parcel (packR 1 1 b a d 0x00)
  | .and d a b => .parcel (packR 0 2 b a d 0x00)
  | .or d a b => .parcel (packR 0 3 b a d 0x00)
  | .xor d a b => .parcel (packR 0 4 b a d 0x00)
  | .andn d a b => .parcel (packR 0 5 b a d 0x00)
  | .sll d a b => .parcel (packR 0 6 b a d 0x00)
  | .sllW d a b => .parcel (packR 1 6 b a d 0x00)
  | .srl d a b => .parcel (packR 0 7 b a d 0x00)
  | .srlW d a b => .parcel (packR 1 7 b a d 0x00)
  | .sra d a b => .parcel (packR 0 8 b a d 0x00)
  | .sraW d a b => .parcel (packR 1 8 b a d 0x00)
  | .rol d a b => .parcel (packR 0 9 b a d 0x00)
  | .ror d a b => .parcel (packR 0 10 b a d 0x00)
  | .slt d a b => .parcel (packR 0 11 b a d 0x00)
  | .sltn d a b => .parcel (packR 0 12 b a d 0x00)
  | .min d a b => .parcel (packR 0 13 b a d 0x00)
  | .max d a b => .parcel (packR 0 14 b a d 0x00)
  | .minn d a b => .parcel (packR 0 15 b a d 0x00)
  | .maxn d a b => .parcel (packR 0 16 b a d 0x00)
  | .mul d a b => .parcel (packR 0 17 b a d 0x00)
  | .mulW d a b => .parcel (packR 1 17 b a d 0x00)
  | .mulh d a b => .parcel (packR 0 18 b a d 0x00)
  | .mulhn d a b => .parcel (packR 0 19 b a d 0x00)
  | .div d a b => .parcel (packR 0 20 b a d 0x00)
  | .divW d a b => .parcel (packR 1 20 b a d 0x00)
  | .divn d a b => .parcel (packR 0 21 b a d 0x00)
  | .divnW d a b => .parcel (packR 1 21 b a d 0x00)
  | .rem d a b => .parcel (packR 0 22 b a d 0x00)
  | .remW d a b => .parcel (packR 1 22 b a d 0x00)
  | .remn d a b => .parcel (packR 0 23 b a d 0x00)
  | .remnW d a b => .parcel (packR 1 23 b a d 0x00)
  | .clz d a => .parcel (packR 0 24 0 a d 0x00)
  | .ctz d a => .parcel (packR 0 25 0 a d 0x00)
  | .popc d a => .parcel (packR 0 26 0 a d 0x00)
  | .addi d a imm => .parcel (packI imm a d 1)
  | .andi d a imm => .parcel (packI imm a d 2)
  | .ori d a imm => .parcel (packI imm a d 3)
  | .xori d a imm => .parcel (packI imm a d 4)
  | .slti d a imm => .parcel (packI imm a d 5)
  | .sltni d a imm => .parcel (packI imm a d 6)
  | .slli d a sh => .parcel (packShi 0 sh a d)
  | .srli d a sh => .parcel (packShi 1 sh a d)
  | .srai d a sh => .parcel (packShi 2 sh a d)
  | .rori d a sh => .parcel (packShi 3 sh a d)
  | .ldhi d imm => .parcel (packU imm d 0x08)
  | .addpc d imm => .parcel (packU imm d 0x09)
  | .ld d a cls size sx imm => .parcel (packMem imm sx size cls a d 0x0A)
  | .st b a cls size imm => .parcel (packMem imm false size cls a b 0x0B)
  | .beq a b off => .parcel (packBr off 0 b a)
  | .bne a b off => .parcel (packBr off 1 b a)
  | .blt a b off => .parcel (packBr off 2 b a)
  | .bge a b off => .parcel (packBr off 3 b a)
  | .bltn a b off => .parcel (packBr off 4 b a)
  | .bgen a b off => .parcel (packBr off 5 b a)
  | .jal d off => .parcel (packU off d 0x0D)
  | .jalr d a imm => .parcel (packI imm a d 0x0E)
  | .amoswap d a b sem sc w => .parcel (packAmo w sc sem 0 b a d 0x0F)
  | .amoadd d a b sem sc w => .parcel (packAmo w sc sem 1 b a d 0x0F)
  | .amoand d a b sem sc w => .parcel (packAmo w sc sem 2 b a d 0x0F)
  | .amoor d a b sem sc w => .parcel (packAmo w sc sem 3 b a d 0x0F)
  | .amoxor d a b sem sc w => .parcel (packAmo w sc sem 4 b a d 0x0F)
  | .amomin d a b sem sc w => .parcel (packAmo w sc sem 5 b a d 0x0F)
  | .amomax d a b sem sc w => .parcel (packAmo w sc sem 6 b a d 0x0F)
  | .amominn d a b sem sc w => .parcel (packAmo w sc sem 7 b a d 0x0F)
  | .amomaxn d a b sem sc w => .parcel (packAmo w sc sem 8 b a d 0x0F)
  | .cas d a b sem sc w => .parcel (packAmo w sc sem 0 b a d 0x10)
  | .fence mask sc => .parcel ((0 : BitVec 1) ++ sc ++ mask ++ (0 : BitVec 5) ++ majorBits 0x11)
  | .fenceI => .parcel 0x80000022
  | .trap code => .parcel ((0 : BitVec 4) ++ (0 : BitVec 6) ++ code ++ (0 : BitVec 5) ++ majorBits 0x12)
  | .rett => .parcel (packR 0 1 0 0 0 0x12)
  | .yield v => .parcel (packR 0 2 ((0 : BitVec 4) ++ bit1 v) 0 0 0x12)
  | .waite d a => .parcel (packR 0 3 0 a d 0x12)
  | .csrr d csr => .parcel (packCsr 0 csr 0 d)
  | .csrw a csr => .parcel (packCsr 1 csr a 0)
  | .csrs a csr => .parcel (packCsr 2 csr a 0)
  | .csrc a csr => .parcel (packCsr 3 csr a 0)
  | .csrx d a csr => .parcel (packCsr 4 csr a d)
  | .setvl d a ty => .parcel ((0 : BitVec 4) ++ (0 : BitVec 5) ++ (0 : BitVec 1) ++ ty ++ a ++ d ++ majorBits 0x14)
  | .setvlDistance d a b ty => .parcel ((0 : BitVec 4) ++ b ++ (1 : BitVec 1) ++ ty ++ a ++ d ++ majorBits 0x14)
  | .cpw idx a => .parcel (packEng 0 0 idx a 0)
  | .cpgo d a => .parcel (packEng 0 1 0 a d)
  | .tlwait a b sc => .parcel (packEng sc 2 b a 0)
  | .tlread d a => .parcel (packEng 0 3 0 a d)
  | .binit a b => .parcel (packEng 0 4 b a 0)
  | .barrive d a => .parcel (packEng 0 5 0 a d)
  | .bexp a b => .parcel (packEng 0 6 b a 0)
  | .bwait a sc => .parcel (packEng sc 7 0 a 0)
  | .btest d a => .parcel (packEng 0 8 0 a d)
  | .binval a => .parcel (packEng 0 9 0 a 0)
  | .klaunch d a b => .parcel (packEng 0 10 b a d)
  | .gsync id sc => .parcel (packEng sc 11 id 0 0)
  | .gexit => .parcel (packEng 0 12 0 0 0)
  | .mxgo d a => .parcel (packEng 0 13 0 a d)
  | .hint imm => .parcel (imm ++ majorBits 0x3F)
  | .vadd w => .slot 0 (packV 0 w)
  | .vsub w => .slot 0 (packV 1 w)
  | .vmul w => .slot 0 (packV 2 w)
  | .vmulh w => .slot 0 (packV 3 w)
  | .vmin w => .slot 0 (packV 4 w)
  | .vmax w => .slot 0 (packV 5 w)
  | .vand w => .slot 0 (packV 6 w)
  | .vor w => .slot 0 (packV 7 w)
  | .vxor w => .slot 0 (packV 8 w)
  | .vsll w => .slot 0 (packV 9 w)
  | .vsrl w => .slot 0 (packV 10 w)
  | .vsra w => .slot 0 (packV 11 w)
  | .vsadd w => .slot 0 (packV 12 w)
  | .vssub w => .slot 0 (packV 13 w)
  | .vabsd w => .slot 0 (packV 14 w)
  | .vmerge w => .slot 0 (packV 15 w)
  | .vmovx w => .slot 0 (packV 16 w)
  | .vidx w => .slot 0 (packV 17 w)
  | .vcmp w => .slot 0 (packV 18 w)
  | .vwmul w => .slot 0 (packV 19 w)
  | .vwadd w => .slot 0 (packV 20 w)
  | .vnarrow w => .slot 0 (packV 21 w)
  | .pand w => .slot 0 (packV 32 w)
  | .por w => .slot 0 (packV 33 w)
  | .pxor w => .slot 0 (packV 34 w)
  | .pandn w => .slot 0 (packV 35 w)
  | .pset w => .slot 0 (packV 36 w)
  | .pcnt w => .slot 0 (packV 37 w)
  | .pfirst w => .slot 0 (packV 38 w)
  | .vfadd w => .slot 2 (packV 0 w)
  | .vfsub w => .slot 2 (packV 1 w)
  | .vfmul w => .slot 2 (packV 2 w)
  | .vfma w => .slot 2 (packV 3 w)
  | .vfms w => .slot 2 (packV 4 w)
  | .vfnma w => .slot 2 (packV 5 w)
  | .vfdiv w => .slot 2 (packV 6 w)
  | .vfsqrt w => .slot 2 (packV 7 w)
  | .vfmin w => .slot 2 (packV 8 w)
  | .vfmax w => .slot 2 (packV 9 w)
  | .vfcmp w => .slot 2 (packV 10 w)
  | .vfcvt w => .slot 2 (packV 11 w)
  | .vfrece w => .slot 2 (packV 12 w)
  | .vfrsqe w => .slot 2 (packV 13 w)
  | .vld w => .slot 3 (packV 0 w)
  | .vlds w => .slot 3 (packV 1 w)
  | .vldx w => .slot 3 (packV 2 w)
  | .vldff w => .slot 3 (packV 3 w)
  | .vst w => .slot 3 (packV 4 w)
  | .vsts w => .slot 3 (packV 5 w)
  | .vstx w => .slot 3 (packV 6 w)
  | .vperm w => .slot 4 (packV 0 w)
  | .vslideup w => .slot 4 (packV 1 w)
  | .vslidedn w => .slot 4 (packV 2 w)
  | .vcompress w => .slot 4 (packV 3 w)
  | .vexpand w => .slot 4 (packV 4 w)
  | .vbcaste w => .slot 4 (packV 5 w)
  | .vzip w => .slot 4 (packV 6 w)
  | .vunzip w => .slot 4 (packV 7 w)
  | .vredsum w => .slot 4 (packV 8 w)
  | .vredmax w => .slot 4 (packV 9 w)
  | .vredmin w => .slot 4 (packV 10 w)
  | .vfredsum w => .slot 4 (packV 11 w)
  | .vxqadd w => .slot 5 (packV 0 w)
  | .vxqmax w => .slot 5 (packV 1 w)
  | .vxqfma w => .slot 5 (packV 2 w)
  | .vexta w => .slot 6 (packV 0 w)
  | .vinsa w => .slot 6 (packV 1 w)
  | .vzera w => .slot 6 (packV 2 w)
  | .srd w => .slot 7 (packV 0 w)
  | .srstat w => .slot 7 (packV 1 w)
  | .mma w => .slot 8 (packM 0 w)
  | .mzero w => .slot 8 (packM 1 w)
  | .mtld w => .slot 8 (packM 2 w)
  | .mtst w => .slot 8 (packM 3 w)
  | .mqld w => .slot 8 (packM 4 w)
  | .mqst w => .slot 8 (packM 5 w)
  | .mqadd w => .slot 8 (packM 6 w)
  | .mqmul w => .slot 8 (packM 7 w)
  | .chisel w => .slot 8 (packM 8 w)
  | .mqcast w => .slot 8 (packM 9 w)
  | .mqrank w => .slot 8 (packM 10 w)
  | .mqfree w => .slot 8 (packM 11 w)
  | .mqscl w => .slot 8 (packM 12 w)
  | .mthdr w => .slot 8 (packM 13 w)
  | .act w => .bank (packB 0 w)
  | .pre w => .bank (packB 1 w)
  | .wb w => .bank (packB 2 w)
  | .refb w => .bank (packB 3 w)
  | .refq w => .bank (packB 4 w)
  | .rcopy w => .bank (packB 5 w)
  | .rzero w => .bank (packB 6 w)
  | .radd w => .bank (packB 8 w)
  | .rsub w => .bank (packB 9 w)
  | .rmul w => .bank (packB 10 w)
  | .rmax w => .bank (packB 11 w)
  | .rmin w => .bank (packB 12 w)
  | .rand w => .bank (packB 13 w)
  | .rior w => .bank (packB 14 w)
  | .rxor w => .bank (packB 15 w)
  | .rshr w => .bank (packB 16 w)
  | .rscadd w => .bank (packB 17 w)
  | .rcmp w => .bank (packB 18 w)
  | .rsel w => .bank (packB 19 w)
  | .rcvt w => .bank (packB 20 w)
  | .qzero w => .bank (packB 24 w)
  | .qacc w => .bank (packB 25 w)
  | .qmac w => .bank (packB 26 w)
  | .qwb w => .bank (packB 27 w)
  | .qld w => .bank (packB 28 w)
  | .rsweep w => .bank (packB 32 w)
  | .shmov w => .bank (packB 40 w)
  | .bufst w => .bank (packB 41 w)
  | .bufld w => .bank (packB 42 w)
  | .bli w => .bank (packB 48 w)
  | .badd w => .bank (packB 49 w)
  | .bbr w => .bank (packB 50 w)
  | .bloop w => .bank (packB 51 w)
  | .bpset w => .bank (packB 52 w)
  | .bsplit w => .bank (packB 53 w)
  | .bjoin w => .bank (packB 54 w)
  | .bsig w => .bank (packB 55 w)
  | .bend w => .bank (packB 56 w)
  | .bwaitt w => .bank (packB 57 w)
  | .brett w => .bank (packB 58 w)
  | .bnop w => .bank (packB 59 w)
  | _ => .none

/-- What the decoder reads from encoded words. -/
def decodeEncoded : Encoded → Decoded
  | .parcel w => if w.getLsbD 0 then .error .headerCount else decodeScalar w
  | .slot 8 w => decodeMatrix w
  | .slot u w => decodeVector u w
  | .bank w => decodeBank w
  | .none => .error .truncated

/-- The instruction read from an instruction of `nbits` bits whose value is `w` (bit 0 the lowest bit of the
first word): one parcel; or, of 64 bits, a bank word; or, of 96 bits, a convoy header of one slot and its
word. Words missing at the top are zero. -/
def decodeTableWord (nbits w : Nat) : Option Instr :=
  let p : Parcel := BitVec.ofNat 32 w
  let r : Decoded :=
    if nbits == 64 then decodeBank (BitVec.ofNat 64 w)
    else if p.getLsbD 0 then
      match headerCheck (headerUnit p 0 == 8) p with
      | .ok _ => if headerCount p == 1 then decodeSlot p 0 (BitVec.ofNat 64 (w / 2 ^ 32)) else .error .headerCount
      | .error e => .error e
    else decodeScalar p
  match r with
  | .ok i => some i
  | .error _ => none

end Sys2Proof
end

