-- ==== Sys2Proof/Machine/State.lean ====
section
/-! DEFINITION. The state of the machine: every piece of state the manual names, as plain data. A sparse table is
a list of (key, value) pairs with strictly rising keys; an absent key stands for the value the manual gives a
place that nothing has used. -/
namespace Sys2Proof.Machine

/-- A sparse table with natural-number keys, strictly rising. -/
abbrev NatMap (α : Type) := List (Nat × α)

/-- The three variants of the package (00 R1, 01 R36). -/
inductive Variant where
  | nx8 | nx6 | nx4m
  deriving DecidableEq, Repr

/-! ## Timelines -/

/-- A timeline of numbered operations (08 R214 to R216): the last number assigned, the completed watermark, the
numbers above it that have completed or been skipped, and the faulted numbers not skipped. -/
structure Timeline where
  last    : Nat := 0
  mark    : Nat := 0
  ended   : List Nat := []
  faulted : List Nat := []
  deriving DecidableEq, Repr

/-! ## Harts and sequencers (04) -/

/-- Life of a hart or sequencer place (04 R100). A PARKED or RETIRED hart's group remembers it; the place it
left is FREE. -/
inductive Life where
  | free | bound | ready | issuing | stalled | waiting | parked | retired
  deriving DecidableEq, Repr

/-- STATE of a stream register (06 R175, R177). -/
inductive StrmState where
  | unbound | bound | ended | faulted
  deriving DecidableEq, Repr

/-- A stream register st0 to st3 (06 R175): its state, the handle of the bound channel, the element format of
the binding, and the elements landed and not yet taken, oldest first (a BFP format holds one whole block per entry). -/
structure StreamReg where
  state  : StrmState := .unbound
  handle : BitVec 16 := 0
  /-- The number of the bound operation. -/
  num    : Nat := 0
  fmt    : BitVec 5 := 0
  elems  : List Nat := []
  deriving DecidableEq, Repr

/-- VSTATE (04 R107). -/
inductive VState where
  | off | clean | dirty
  deriving DecidableEq, Repr

/-- One level's copy of the trap CSRs (04 R109, R110). -/
structure TrapRegs where
  tvec   : Word := 0
  tepc   : Word := 0
  tcause : Word := 0
  tval   : Word := 0
  tscr   : Word := 0
  tval2  : Word := 0
  deriving DecidableEq, Repr

/-- TSTAT (04 R109); `prv` is true at S. -/
structure TStat where
  prv  : Bool := false
  ie   : Bool := false
  pie  : Bool := false
  pprv : Bool := false
  uie  : Bool := true
  upie : Bool := false
  deriving DecidableEq, Repr

/-- The WAITE monitor armed on a line (04 R132), and whether a write by another agent has been seen. -/
structure Monitor where
  line : Nat
  seen : Bool
  deriving DecidableEq, Repr

/-- An element that a gather has read: its index and its bits. -/
structure GatherElem where
  idx  : Nat
  bits : Nat
  deriving DecidableEq, Repr

/-- A gather in flight (06 R168): its register, the bits of an element, the elements still to be written there,
and the lowest that could not be corrected (06 R169), with its address. -/
structure Gather where
  vd    : Nat
  width : Nat
  elems : List GatherElem
  bad   : Option (Nat × Word) := none
  deriving DecidableEq, Repr

/-- An SRD in flight (06 R176): its register, stream register and type, the elements delivered and vl, whether a later
instruction has written FFI, its header and slot, and where its hart stood after it: pc, slot and INSTRET. -/
structure StreamRead where
  vd    : Nat
  strm  : Nat
  ty    : Nat
  done  : Nat
  vl    : Nat
  quiet : Bool := false
  pc    : Word := 0
  slot  : BitVec 3 := 0
  next  : Word × BitVec 3 := (0, 0)
  count : Word := 0
  deriving DecidableEq, Repr

/-- A vector hart, or a matrix sequencer, at one of the nine places of a core (04 R100, R106, R109). -/
structure Hart where
  life     : Life := .free
  /-- The group that is bound here. -/
  group    : Nat := 0
  /-- GRPID.INDEX. -/
  index    : Nat := 0
  pc       : Word := 0
  x        : Vector Word 32 := Vector.replicate 32 0
  v        : Vector (BitVec 16384) 32 := Vector.replicate 32 0
  /-- Full/empty bits: bit i is 1 when vi is full. -/
  full     : BitVec 32 := BitVec.allOnes 32
  /-- Failed registers (06 R169): register, with the failing address and element. -/
  failed   : NatMap (Word × Nat) := []
  p        : Vector (BitVec 4096) 8 := Vector.replicate 8 0
  st       : Vector StreamReg 4 := Vector.replicate 4 {}
  u        : TrapRegs := {}
  s        : TrapRegs := {}
  tdeleg   : BitVec 32 := 0
  tstat    : TStat := {}
  vgrant   : Nat := 0
  vtype    : BitVec 5 := 0
  /-- VSTART.ELEM and VSTART.SLOT (03 R82). -/
  elem     : BitVec 32 := 0
  slot     : BitVec 3 := 0
  /-- Where traps have stopped the convoys of a sequencer, which holds no VSTART: header and slot (03 R81). -/
  stops    : List (Word × BitVec 3) := []
  vstate   : VState := .clean
  vdirty   : BitVec 40 := 0
  ffi      : BitVec 32 := 0
  vxqc     : Word := 0
  fflags   : BitVec 5 := 0
  frm      : BitVec 3 := 0
  srseed   : BitVec 32 := 0
  srbase   : BitVec 32 := 0
  mqtol    : BitVec 32 := 0
  mqrmax   : BitVec 6 := 32
  instret  : Word := 0
  engfault : Word := 0
  shadow   : Vector Word 10 := Vector.replicate 10 0
  monitor  : Option Monitor := none
  /-- The released mark of YIELD with release (04 R131). -/
  released : Bool := false
  /-- A pre-emption request has reached the hart (04 R117). -/
  preempt  : Bool := false
  /-- The request has come while the hart's next turn may have begun: an aid to Activity.part (log 2). -/
  caught   : Bool := false
  /-- A YIELD has found the request pending: PREEMPT comes before the next instruction, also at S with IE = 0
  (04 R131). -/
  owed     : Bool := false
  /-- The request is in service (14 R349), with the registers that were empty, the VSTATE and the failed
  registers at PREEMPT entry. -/
  service  : Bool := false
  emptyAt  : BitVec 32 := 0
  vstateAt : VState := .clean
  failedAt : NatMap (Word × Nat) := []
  /-- The slots of the convoy in progress still to complete, and the address after it. -/
  slots    : List Instr := []
  nextPc   : Word := 0
  gathers  : List Gather := []
  /-- SRD instructions that wait for elements, oldest first (06 R176), and whether they are stopped: from PREEMPT
  entry or resumption to the next RETT (log 23). -/
  reads    : List StreamRead := []
  readsHeld : Bool := false
  /-- The register that a stalled VEXTA marked empty at its issue (05 R155). -/
  draining : Option Nat := none
  /-- The element at which the device stops the long instruction of this turn (05 R137, log 2). -/
  cut      : Option Nat := none
  /-- The waiting instruction: TLWAIT, BWAIT, GSYNC or WAITE (04 R100). -/
  latched  : Option Instr := none
  /-- The binding that a waiting TLWAIT on a kind-3 handle waits for: kernel and stream (11 R307). -/
  waitFor  : Option (Nat × Nat) := none
  /-- The object on which a waiting BWAIT waits, by physical address (09 R246). -/
  waitObj  : Option Nat := none
  /-- GSYNC: barriers at which this hart has arrived, with the phase it arrived in (17 R387). -/
  arrived  : NatMap Bool := []
  /-- Completed FIN words of a sequencer (12 R312). -/
  finMark  : Nat := 0
  /-- Set between a trap entry at S and the fetch of its first handler instruction: cause and resume address
  (04 R120). -/
  entering : Option (BitVec 64 × Word) := none
  /-- A GEXIT waits for the registers in flight: no PREEMPT is taken inside it (17 R389). -/
  exiting  : Bool := false
  /-- Synchronous traps taken since binding: the model's own field (log 16), read only to put a synchronous
  trap before PREEMPT (04 R117). -/
  traps    : Nat := 0
  deriving DecidableEq, Repr

/-! ## Cores (05, 12) -/

/-- A tile register (12 R320). Matrices are row-major, element 0 lowest. -/
inductive Tile where
  | empty
  | dense32 (m : BitVec 131072)
  | dense16 (m : BitVec 65536)
  | maquette (r : Nat) (u v : List (BitVec 32))
  deriving DecidableEq, Repr

/-- The effects of the matrix word in progress that come about at its completion (12 R311 to R314). -/
structure MatrixJob where
  acc : Option (Nat × BitVec 131072)
  fin : Bool
  deriving DecidableEq, Repr

/-- What the nine places of a core share. -/
structure Core where
  cycle   : Word := 0
  acc     : Vector (BitVec 131072) 4 := Vector.replicate 4 0
  tile    : Vector Tile 16 := Vector.replicate 16 .empty
  /-- The granules of the tile store that each tile register occupies, in order (12 R320), and the bytes that the window
  has stored in granules whose contents are not otherwise stated. -/
  grans   : Vector (List Nat) 16 := Vector.replicate 16 []
  store   : NatMap Byte := []
  /-- The matrix word in progress on the array. -/
  job     : Option MatrixJob := none
  /-- The members of each accumulator's order that wait, by hart or sequencer place, oldest first (12 R314). -/
  accQ    : Vector (List Nat) 4 := Vector.replicate 4 []
  /-- The hart that issued last (04 R102). -/
  last    : Nat := 7
  /-- Harts that a YIELD has placed last in the round-robin order of their level, each with the harts that have
  issued since (04 R131). -/
  yielded : NatMap (List Nat) := []
  halfRate : Bool := false
  /-- The caps of the vector memory unit (20 R419): outstanding element requests, and gather elements per cycle. -/
  requests : Nat := 256
  gatherCap : Nat := 16
  /-- Left service (01 R37, 16 R378). -/
  lost    : Bool := false
  deriving DecidableEq, Repr

/-! ## Banks, streams and towers (10, 11) -/

/-- State of a row slot (10 R252). -/
inductive SlotState where
  | closed | opening | openClean | openDirty | writing | precharging
  deriving DecidableEq, Repr

/-- A row slot (10 R251 to R259): the row it last latched, its contents with the uncorrectable lines, the cycle
at which its present passage ends, and the cycle of its activate. -/
structure Slot where
  state : SlotState := .closed
  row   : Nat := 0
  bits  : BitVec 65536 := 0
  bad   : BitVec 128 := 0
  due   : Nat := 0
  actAt : Nat := 0
  deriving DecidableEq, Repr

/-- What a row pass in progress writes when it ends (10 R253). -/
inductive PassTarget where
  | slot (n : Nat) (bits : BitVec 65536) (bad : BitVec 128)
  | acc (q : Bool) (bits : BitVec 131072)
  | nothing
  deriving DecidableEq, Repr

/-- A row pass, or a bus move, in progress in a bank: the cycle it ends, the slots it reads, and its result. -/
structure Pass where
  due    : Nat
  reads  : List Nat
  target : PassTarget
  /-- A move on the shuffle bus (11 R295). -/
  move   : Bool := false
  deriving DecidableEq, Repr

/-- An RCOPY in progress (10 R274): slot, source and destination rows, start cycle, and the row as latched. -/
structure RCopy where
  slot  : Nat
  src   : Nat
  dst   : Nat
  start : Nat
  bits  : BitVec 65536
  bad   : BitVec 128
  deriving DecidableEq, Repr

/-- An ordinary access accepted for a held bank (11 R298): cycle, group and row, and whether a row pass reads the row,
as a lamination's does (13 R343). -/
structure Ordinary where
  at_   : Nat
  group : Nat
  row   : Nat
  pass  : Bool := false
  deriving DecidableEq, Repr

/-- What a yield does next in a slot (11 R299): it activates the requested row, passes it for a lamination (13 R343),
precharges it, precharges it in a slot that was CLOSED, which ends as it was, or activates the row that the slot held,
which ends with the contents it had. -/
inductive YieldAct where
  | activate (row : Nat)
  | pass
  | precharge
  | shut (was : Slot)
  | restore (was : Slot) (dirty : Bool)
  deriving DecidableEq, Repr

/-- A step that a yield has still to begin: its cycle and slot. -/
structure YieldStep where
  at_  : Nat
  slot : Nat
  act  : YieldAct
  deriving DecidableEq, Repr

/-- One bank (10, 11 R284). -/
structure Bank where
  slot     : Vector Slot 4 := Vector.replicate 4 {}
  q        : Vector (BitVec 131072) 2 := Vector.replicate 2 0
  b        : Vector Word 16 := Vector.replicate 16 0
  group    : Nat := 0
  pred     : Bool := true
  saved    : Bool := false
  debt     : Nat := 0
  /-- A REFRESH_DEADLINE pending (10 R262, R273). -/
  deadline : Bool := false
  /-- The handler runs for this bank's REFRESH_DEADLINE (10 R262). -/
  handling : Bool := false
  /-- The debt passed 11: forced refresh is due, or its REFBs go on (10 R264). -/
  forced   : Bool := false
  /-- The cycle at which the last interval that raised the debt ended (10 R260). -/
  refAt    : Nat := 0
  /-- The slots that a transparent refresh opens again when its REFB ends (10 R263). -/
  reopen   : Option (List Nat) := none
  pass     : Option Pass := none
  rcopy    : List RCopy := []
  /-- The end of a REFB in progress. -/
  refb     : Option Nat := none
  /-- The bank's latest activates, for tAAD (10 R254). -/
  acts     : List Nat := []
  yieldRow : BitVec 65536 := 0
  yieldBad : BitVec 128 := 0
  /-- Copies of a dirty slot to and from the yield row: the cycle each ends, the slot, and whether it is the copy
  back (11 R299). -/
  yieldCopies : List (Nat × Nat × Bool) := []
  /-- The steps that the yields have still to begin in the bank's slots, in order. -/
  plan     : List YieldStep := []
  /-- The cycle at which the last ordinary access served in the bank is done (11 R299), and that at which the last row
  pass of a lamination in it ends (13 R343). -/
  servedBy : Nat := 0
  readBy   : Nat := 0
  /-- Ordinary accesses waiting for this bank (11 R298). -/
  waiting  : List Ordinary := []
  /-- The stream that controls the bank (11 R282). -/
  owner    : Option Nat := none
  /-- Moved to a spare of its pseudo-channel (20 R425). -/
  spared   : Bool := false
  deriving DecidableEq, Repr

/-- State of a bank stream (11 R286). -/
inductive StreamState where
  | idle | running | waiting | handler | suspended | parked | faulted | ended
  deriving DecidableEq, Repr

/-- How a split runs (11 R292). -/
inductive SplitKind where
  | parallel (secondary : Nat) | serialFirst | serialSecond | alone
  /-- The entry's copy in a secondary, whose BJOIN returns its banks (11 R293). -/
  | returns
  deriving DecidableEq, Repr

/-- An entry of the split stack (11 R291): the predicates, P1 and P0 as masks of banks, the target and the kind. -/
structure Split where
  preds  : BitVec 16
  part   : BitVec 16
  p1     : BitVec 16
  p0     : BitVec 16
  target : Nat
  kind   : SplitKind
  deriving DecidableEq, Repr

/-- A bank stream (11 R285). Masks are of bank indices of its pseudo-channel. -/
structure Stream where
  state   : StreamState := .idle
  kernel  : Nat := 0
  /-- The group as bound. -/
  bound   : BitVec 16 := 0
  /-- The banks of the running part (11 R294). -/
  mask    : BitVec 16 := 0
  bpc     : BitVec 9 := 0
  /-- The stream has run on to word CODELEN (11 R285). -/
  ranOff  : Bool := false
  swc     : BitVec 12 := 0
  entry   : BitVec 9 := 0
  en      : Bool := false
  btepc   : BitVec 9 := 0
  btcause : BitVec 32 := 0
  split   : List Split := []
  code    : List (BitVec 64) := []
  /-- BSIG words performed (11 R306). -/
  mark    : Nat := 0
  /-- The stream from which a BSPLIT divided this one (11 R292, R307). -/
  primary : Option Nat := none
  /-- The banks in which the word in progress has begun (11 R283). -/
  begun   : BitVec 16 := 0
  /-- The word's checks have been made and it has begun or waits to begin (11 R283). -/
  checked : Bool := false
  /-- RSWEEP: 0 the row is being activated, 1 its passes run and its slots are precharged, 2 its slots are
  precharged before a trap, 3 before a yield; SHMOV: 1 while a move is on the bus. -/
  phase   : Nat := 0
  /-- The word waits for a bank, a cycle or a boundary: an aid to the choice of the next turn (log 2). -/
  held    : Bool := false
  /-- The earliest cycle of the next word (10 R255). -/
  readyAt : Nat := 0
  /-- The end of the arbitration window of an accepted ordinary access (11 R298). -/
  window  : Option Nat := none
  /-- The state left when SUSPENDED or WAITING. -/
  left    : StreamState := .running
  /-- The state left when PARKED. -/
  kept    : StreamState := .running
  preempt : Bool := false
  /-- The end of the yield in progress (11 R299). -/
  yieldDue : Nat := 0
  /-- The offset of its bank record in the park region, once allocated (14 R352). -/
  record  : Option Nat := none
  /-- The banks of a PARKED stream, as its bank record holds them (14 R351, R354). -/
  saved   : NatMap Bank := []
  /-- The binding that an unmet BWAITT on a kind-3 handle waits for: kernel and stream (11 R307). -/
  waitFor : Option (Nat × Nat) := none
  /-- Its kernel has faulted: it stops at its next row boundary (11 R290). -/
  stopping : Bool := false
  deriving DecidableEq, Repr

/-- State of a lamination entry (13 R341). -/
inductive LamState where
  | free | forming | dispatched | computing | splitting
  deriving DecidableEq, Repr

/-- A member of a lamination entry: context, channel, number, rows and captured X. -/
structure LamMember where
  ctx  : Nat
  chan : Nat
  num  : Nat
  h    : Nat
  x    : Bool
  deriving DecidableEq, Repr

/-- The key of a lamination entry (13 R341). -/
structure LamKey where
  p0    : Nat
  k     : Nat
  n     : Nat
  wfmt  : BitVec 5
  banks : BitVec 16
  deriving DecidableEq, Repr

/-- One of the 64 entries of a tower's lamination buffer (13 R341). -/
structure LamEntry where
  state    : LamState := .free
  key      : LamKey := ⟨0, 0, 0, 0, 0⟩
  deadline : Nat := 0
  prio     : Nat := 0
  height   : Nat := 0
  members  : List LamMember := []
  deriving DecidableEq, Repr

/-- A BUFST whose row is crossing to the plinth buffer (11 R296, R297): entry, its stream, and the row. -/
structure Crossing where
  entry  : Nat
  stream : Nat
  bits  : BitVec 65536
  deriving DecidableEq, Repr

/-- What belongs to one tower as a whole (01 R12, R23, R24). -/
structure Tower where
  /-- Plinth cycles since reset, as far as the events so far have reached. -/
  now     : Nat := 0
  floor   : Nat := 0xC00
  moving  : Bool := false
  /-- Retired banks, by 64·bank + PC, rising (01 R19, R24). -/
  retired : List Nat := []
  /-- The activates of the last 20 cycles of each pseudo-channel, oldest first (10 R256). -/
  acts    : NatMap (List Nat) := []
  /-- The end of the move on each pseudo-channel's shuffle bus (11 R295). -/
  bus     : NatMap Nat := []
  /-- Plinth-buffer entries (11 R296), and the kernel each is granted to. -/
  pbuf    : NatMap (BitVec 65536) := []
  pgrant  : NatMap Nat := []
  /-- BUFST rows on their way to the buffer, oldest first. -/
  crossing : List Crossing := []
  lam     : NatMap LamEntry := []
  /-- Arrivals that wait for an entry, in arrival order (13 R341). -/
  lamWait : List LamMember := []
  /-- Live ways of the memory-side cache (20 R420). -/
  ways    : Nat := 16
  deriving DecidableEq, Repr

/-! ## Engines (08, 13) -/

/-- State of an operation (08 R216). -/
inductive OpState where
  | queued | running | suspended
  deriving DecidableEq, Repr

/-- Where an operation's BAR reached at launch (09 R248): generation and physical address of the object. -/
structure BarCapture where
  va    : Word
  gen   : BitVec 16
  home  : Nat
  /-- A TLBINV has dropped the translation since (09 R250). -/
  again : Bool := false
  /-- It was reached through a counted entry (18 R401). -/
  cnt   : Bool := false
  deriving DecidableEq, Repr

/-- A transfer operation (08 R214 to R230): the values CPGO captured, and how many destination bytes have
landed. -/
structure XferOp where
  num    : Nat
  state  : OpState := .queued
  shadow : Vector Word 10
  frm    : BitVec 3
  seed   : BitVec 32
  base   : BitVec 32
  prv    : Bool
  /-- The group of the launching hart, and the core it ran on. -/
  group  : Nat
  core   : Nat
  bar    : Option BarCapture
  landed : Nat := 0
  /-- Bytes that this operation has overwritten, as they were before (08 R233). -/
  old    : List Host.Cell := []
  /-- The hart place of a register-bound or stream destination (08 R223, R224), the 64 KiB block of physical
  addresses in which a register-bound one lies, and the number of a stream register. -/
  hart   : Option Nat := none
  home   : Nat := 0
  strm   : Option Nat := none
  regs   : BitVec 32 := 0
  /-- Source lines that the operation has read, by virtual address, in its private buffer (07 R179, 08 R220). -/
  buf    : List Host.Cell := []
  /-- Lines of the destination, by virtual address ÷ 64, in which bytes beyond `landed` have landed. -/
  ahead  : List Nat := []
  /-- The header is written (08 R222). -/
  headed : Bool := false
  /-- A destination that R221, R223 or R224 refused when the operation started: cause and address. -/
  fail   : Option (Nat × Word) := none
  deriving DecidableEq, Repr

/-- A transfer channel (08 R215). -/
structure Channel where
  line : Timeline := {}
  ops  : List XferOp := []
  deriving DecidableEq, Repr

/-- A lamination operation (13 R339, R340). -/
structure LamOp where
  num    : Nat
  shadow : Vector Word 10
  prv    : Bool
  group  : Nat
  core   : Nat
  x      : Bool
  hold   : Nat
  prio   : Nat
  bar    : Option BarCapture
  /-- Admission has ended (13 R340), in this tower and at this cycle. -/
  admitted : Bool := false
  tower  : Nat := 0
  arrival : Nat := 0
  /-- The physical address of weight row 0, and the rows whose translations are counted (18 R401). -/
  p0     : Nat := 0
  wcnt   : List Nat := []
  /-- The activation rows read at admission, element bits, row by row. -/
  acts   : List Nat := []
  /-- The output pages found at admission, by virtual 64 KiB page: the physical address of its first byte, whether
  it names a hosting-core slot, and whether it is counted. A TLBINV that drops one removes it (13 R340). -/
  outs   : NatMap (Nat × Bool × Bool) := []
  /-- Output bits formed in COMPUTING, row by row, until they are written. -/
  result : List Nat := []
  /-- A TLBINV has dropped a translation by which the weights are still to be read (18 R400). -/
  dropped : Bool := false
  deriving DecidableEq, Repr

/-- A lamination channel (13 R334). -/
structure LamChannel where
  line : Timeline := {}
  ops  : List LamOp := []
  deriving DecidableEq, Repr

/-! ## Contexts, queues, kernels and groups (14 to 17) -/

/-- STATE of a queue (15 R363). -/
inductive QueueState where
  | disabled | active | halted
  deriving DecidableEq, Repr

/-- A queue (15 R363 to R369). -/
structure Queue where
  desc    : Nat := 0
  state   : QueueState := .disabled
  prio    : Nat := 0
  feed    : Bool := false
  ring    : Nat := 0
  size    : Nat := 2
  weight  : Nat := 1
  starve  : Nat := 0
  rd      : Nat := 0
  wr      : Nat := 0
  admitted : Word := 0
  /-- The kernel number of the last record that has left the ring, since the queue was first enabled (16 R377). -/
  base    : Nat := 0
  line    : Timeline := {}
  /-- Level captured by KLAUNCH for each ring slot; absent is U (18 R473). -/
  levels  : NatMap Bool := []
  /-- Aged: STARVE scheduler cycles have passed without a placement (15 R369). -/
  aged    : Bool := false
  /-- Tiles placed in this turn of the rotation (15 R368). -/
  turn    : Nat := 0
  /-- The bindings that the dependence waits of the record at RD on kind-3 handles wait for, by wait; none where no
  stream was bound when the wait issued (11 R307, 15 R366). -/
  waits   : NatMap (Option (Nat × Nat)) := []
  deriving DecidableEq, Repr

/-- STATE of a context (14 R346, R347). -/
inductive CtxState where
  | created | runnable | resident | suspended | faulted | lost | destroyed
  deriving DecidableEq, Repr

/-- A context (14 R345, R346). -/
structure Context where
  desc     : Nat
  state    : CtxState := .created
  ptroot   : Nat := 0
  parkbase : Nat := 0
  parksize : Nat := 0
  parkva   : Word := 0
  fqsize   : Nat := 8
  resume   : Word := 0
  stvec    : Word := 0
  lamhold  : BitVec 24 := 0
  lamx     : Bool := false
  xfer     : NatMap Channel := []
  lam      : NatMap LamChannel := []
  queues   : NatMap Queue := []
  /-- Allocated records of the park region: offset and size (14 R352). -/
  park     : List (Nat × Nat) := []
  /-- Units written to the fault queue since it was created: the place of a record in all that it has carried
  (14 R359, 16 R377). -/
  fqTotal  : Nat := 0
  deriving DecidableEq, Repr

/-- Work that waits for room and has had a victim asked to park (15 R370): the context, queue and number of a
kernel, and its tile. -/
structure Want where
  ctx   : Nat
  queue : Nat
  num   : Nat
  tile  : Nat
  deriving DecidableEq, Repr

/-- State of a kernel (16 R377). -/
inductive KernState where
  | running | completing | complete | faulted | skipped
  deriving DecidableEq, Repr

/-- An arrival count and phase of a GSYNC barrier (17 R387). -/
structure GBar where
  count : Nat := 0
  phase : Bool := false
  deriving DecidableEq, Repr

/-- A kernel (16 R373, R377). -/
structure Kernel where
  ctx     : Nat
  queue   : Nat
  num     : Nat
  record  : BitVec 2048
  prv     : Bool := false
  state   : KernState := .running
  /-- The next tile to place. -/
  next    : Nat := 0
  /-- Tiles whose group has ended well. -/
  finished : Nat := 0
  /-- The code words of a bank kernel, copied at admission (16 R377). -/
  code    : List (BitVec 64) := []
  /-- Bank streams bound, by kind-3 index. -/
  streams : List Nat := []
  /-- First plinth-buffer entry granted. -/
  bufBase : Nat := 0
  /-- The last unit of its KIND 10 record among all that the fault queue has carried (R377). -/
  recordAt : Option Nat := none
  /-- The rows of the plinth-buffer entries that the kernel, parked, has given up, by tower and entry number (11 R296,
  15 R371). -/
  bufHeld : Option (NatMap (NatMap (BitVec 65536))) := none
  /-- Streams of it that have faulted, each with the BSIG words it had performed (11 R306, R307). -/
  streamFaults : NatMap Nat := []
  /-- When its streams were last bound, among all bindings (15 R370). -/
  boundAt : Nat := 0
  /-- The work for whose room its streams were asked to park (15 R370). -/
  forWork : Option Want := none
  /-- Barriers of scope die and wider (17 R387), by 8192·die + 32·scope + id. -/
  bars    : NatMap GBar := []
  deriving DecidableEq, Repr

/-- State of a group (17 R383). -/
inductive GroupState where
  | waitingPlace | binding | running | parking | parked | ended
  deriving DecidableEq, Repr

/-- Where a member of a group is (04 R100). -/
inductive Where where
  | unbound
  /-- At a hart place. -/
  | place (key : Nat)
  | parked
  | retired
  deriving DecidableEq, Repr

/-- A member of a group: a vector hart, or the sequencer of a slot (member numbers from 64). The rest is
device-held state of a PARKED member: its park record's offset, its GSYNC bits, its FIN watermark, where traps have
stopped its convoys, its stream registers, and where each failed register failed (06 R169, 12 R312, 14 R351, 17 R387). -/
structure Member where
  at_     : Where := .unbound
  parkAt  : Option Nat := none
  arrived : NatMap Bool := []
  fin     : Nat := 0
  stops   : List (Word × BitVec 3) := []
  st      : Vector StreamReg 4 := Vector.replicate 4 {}
  failed  : NatMap (Word × Nat) := []
  /-- SRD instructions that its park stopped (06 R176). -/
  reads   : List StreamRead := []
  /-- The slot on which it was bound again, where not its own (17 R382). -/
  slot    : Option Nat := none
  deriving DecidableEq, Repr

/-- A group (17 R380, R383). -/
structure Group where
  kernel  : Nat
  tile    : Nat
  state   : GroupState := .waitingPlace
  /-- Hosting cores by slot, and the die of those that it last ran on. -/
  cores   : List Nat := []
  die     : Nat := 0
  members : NatMap Member := []
  /-- Replays after a hardware fault (16 R378). -/
  replays : Nat := 0
  /-- A core that failed, on which the tile is not placed again (16 R378). -/
  avoid   : List Nat := []
  /-- Barriers of scope core and quad, by 8192·slot + 32·scope + id (17 R387). -/
  bars    : NatMap GBar := []
  /-- The offset of the core record of each slot in the park region, once allocated (14 R352). -/
  records : NatMap Nat := []
  /-- The slots whose core record is written, and the uncorrectable units of each scratchpad image (14 R351). -/
  written : List Nat := []
  bad     : NatMap (List Nat) := []
  /-- The cores chosen for each slot while a PARKED group binds again. -/
  placing : NatMap Nat := []
  /-- The tile for whose place the group was asked to park (15 R370). -/
  forWork : Option Want := none
  /-- When it was last bound, among all bindings (15 R370). -/
  boundAt : Nat := 0
  /-- The group migrates off a hot column (17 R390). -/
  migrating : Bool := false
  deriving DecidableEq, Repr

/-! ## The host, the ports and the service controllers (18 to 20) -/

/-- STATE of a Uapoash port (19 R414, R415). -/
inductive UlState where
  | down | training | active | degraded | draining | quiesced
  deriving DecidableEq, Repr

/-- ULPORT n (19 R415), with the last sequence number received correctly, the next one to send, and the replay buffer:
the flits sent that the partner has not acknowledged, oldest first (19 R413). -/
structure UlPort where
  state    : UlState := .down
  lanes    : BitVec 4 := 0
  peer     : BitVec 11 := 0
  peerPort : BitVec 6 := 0
  cmd      : BitVec 3 := 0
  lane     : BitVec 2 := 0
  replays  : BitVec 16 := 0
  seq      : BitVec 12 := 0xFFF
  next     : BitVec 12 := 0
  replay   : List Flit := []
  deriving DecidableEq, Repr

/-- POOLPORT p (19 R412). -/
structure PoolPort where
  up    : Bool := false
  width : BitVec 8 := 0
  size  : BitVec 48 := 0
  deriving DecidableEq, Repr

/-- The host command block but for the ports (19 R408). -/
structure HostRegs where
  hqcmd   : Word := 0
  tlbva   : Word := 0
  /-- TLBINV: CTX, ALL, DONE, ERR. -/
  tlbctx  : BitVec 16 := 0
  tlball  : Bool := false
  tlbdone : Bool := true
  tlberr  : Bool := false
  thresh  : BitVec 16 := 0
  acen    : Bool := false
  drops   : BitVec 32 := 0
  log2n   : BitVec 5 := 8
  ringBase : BitVec 40 := 0
  acRd    : BitVec 32 := 0
  acWr    : BitVec 32 := 0
  acclear : Bool := false
  account : BitVec 16 := 0
  acfrm   : BitVec 36 := 0
  /-- REMAP: the written fields, BUSY and ERR. -/
  remap   : BitVec 26 := 0
  remapBusy : Bool := false
  remapErr : Bool := false
  podid   : BitVec 12 := 0
  unmapped : Bool := false
  /-- The MSI-X table, the words written so far, and its pending bits (log 49). -/
  msix    : NatMap Word := []
  pending : BitVec 8 := 0
  deriving DecidableEq, Repr

/-- THERM n (20 R424), with the temperature that each column showed last. -/
structure Therm where
  hot   : BitVec 4 := 0
  throt : BitVec 4 := 0
  crit  : Bool := false
  temp  : Vector (BitVec 8) 4 := Vector.replicate 4 0
  deriving DecidableEq, Repr

/-- The management registers and the firmware state (20 R424 to R428). -/
structure Service where
  ctrl     : BitVec 2 := 0
  safe     : Bool := false
  restarts : BitVec 16 := 0
  therm    : NatMap Therm := []
  /-- The HOT threshold of firmware (20 R422). -/
  hotAt    : Nat := 95
  /-- BIST: TOWER, PC, BANK and GO. -/
  bist     : BitVec 14 := 0
  bistBusy : Bool := false
  bistResult : BitVec 2 := 0
  fwcomp   : BitVec 8 := 0
  fwcmd    : BitVec 2 := 0
  fwbusy   : Bool := false
  fwresult : BitVec 3 := 0
  fwsrc    : BitVec 52 := 0
  /-- The image that the commit in progress writes; none once the write has failed. -/
  image    : Option (List Byte) := none
  /-- Committed version and image digest of each component, and its version floor. -/
  version  : NatMap (BitVec 32) := []
  floor    : NatMap (BitVec 32) := []
  digest   : NatMap (BitVec 256) := []
  /-- Spare banks in use in each pseudo-channel, by 64·tower + PC (20 R425). -/
  spares   : NatMap Nat := []
  /-- A power emergency has begun (20 R422). -/
  emergency : Bool := false
  powered  : Bool := true
  deriving DecidableEq, Repr

/-- A request to a peer (19 R416) that its agent has not done with: the pod address, the agent (log 59), what is
asked, the virtual address from which a hart asks and the mode of its page, the port that carries it (R417), whether a
TLBINV has dropped the translation (18 R400), and the answer once it has come. -/
structure PodLine where
  addr    : Nat
  by_     : Nat
  op      : PodOp
  va      : Word := 0
  mode    : Nat := 0
  port    : Nat := 0
  dropped : Bool := false
  answer  : Option PodReply := none
  deriving DecidableEq, Repr

/-! ## The machine -/

/-- The agent whose turn it is. -/
inductive Agent where
  | hart (key : Nat)
  | stream (idx : Nat)
  deriving DecidableEq, Repr

/-- One turn of the machine: an agent issues, or an event of the table comes about. -/
inductive Activity where
  /-- A core cycle: the scalar front end of core c issues one READY hart (04 R102). -/
  | core (c : Nat)
  /-- The sequencer of core c issues. -/
  | seq (c : Nat)
  /-- The hart or sequencer at this place goes on with its convoy. -/
  | slot (key : Nat)
  /-- The same, with the device stopping a long instruction at an element (05 R137). -/
  | part (key : Nat) (elem : Nat)
  /-- A bank stream issues. -/
  | stream (idx : Nat)
  | event (i : Instr)
  deriving DecidableEq, Repr

/-- The whole machine. Harts are keyed by 9·core + HART, banks by 1024·tower + 16·PC + bank, streams by their
kind-3 index; a PARKED stream whose sequencer another stream has taken stands at a key from 4096 that is its index
modulo 4096 (15 R371). -/
structure State where
  variant  : Variant := .nx8
  mem      : List Host.Cell := []
  /-- Uncorrectable units, by home key of their first byte (07 R201). -/
  bad      : List Nat := []
  harts    : NatMap Hart := []
  cores    : NatMap Core := []
  banks    : NatMap Bank := []
  streams  : NatMap Stream := []
  towers   : NatMap Tower := []
  ctxs     : NatMap Context := []
  kernels  : NatMap Kernel := []
  groups   : NatMap Group := []
  /-- The next name for a kernel or a group, and the next place in the order of bindings. -/
  fresh    : Nat := 1
  /-- The rotation of the queues, by context and queue number: the head is served first (15 R368). -/
  rotation : List (Nat × Nat) := []
  /-- Cores and banks that victims have freed by parking, each with the work for which it is kept (15 R370). -/
  keptCores : NatMap Want := []
  keptBanks : NatMap Want := []
  host     : HostRegs := {}
  ulports  : NatMap UlPort := []
  poolports : NatMap PoolPort := []
  svc      : Service := {}
  /-- Times each MSI-X vector has been raised (19 R409). -/
  raised   : NatMap Nat := []
  /-- Access counters by 64 KiB frame (18 R401). -/
  counters : NatMap (BitVec 16) := []
  pod      : List PodLine := []
  /-- The last answer that this package has given a peer. -/
  podOut   : Option PodReply := none
  /-- What the capability list gives until the next reset (01 R32, R37): the cores that were out of service at the
  last one, and the pool bytes then present. -/
  lostAt   : List Nat := []
  poolAt   : Nat := 0
  /-- Bytes of the last BAR2 or sideband read. -/
  hostData : List Byte := []
  /-- The agent whose turn it is, and the turns to come: the model's own (log 2). -/
  cur      : Option Agent := none
  agenda   : List Activity := []
  /-- Rounds of the agents since a device step came between them: the model's own (log 2). -/
  rounds   : Nat := 0
  /-- Free-value counter: the model's own (log 16). -/
  free     : Nat := 0
  deriving DecidableEq, Repr

/-- Why a step stops with a fault. -/
inductive Fault where
  /-- Raised by exec on an instruction of a hart, a sequencer or a bank stream when it is not the turn of such an
  agent. No run of the machine reaches it, since step decodes only for the agent whose turn it is. Safe. -/
  | noAgent
  deriving DecidableEq, Repr

/-- Why exec gives no meaning. -/
inductive Refusal where
  /-- Raised by an arm of exec whose instruction has no meaning yet. Safe. -/
  | notModelled (mnemonic : String)
  deriving DecidableEq, Repr

/-- The machine right after reset: the values the chapters state, and where they state none, those of log
entries 3, 11, 16, 17, 19, 22, 48 and 49. -/
def State.reset : State := {}

end Sys2Proof.Machine
end

