-- ==== Sys2Proof/Machine/Maps.lean ====
section
/-! DEFINITION. The operations on sparse tables and on memory cells. Every read and write of a table of State goes
through them. -/
namespace Sys2Proof.Machine

/-- The value at a key. -/
def NatMap.get? {α : Type} : NatMap α → Nat → Option α
  | [], _ => none
  | (j, a) :: t, k => if j = k then some a else NatMap.get? t k

/-- The value at a key, or `d` where nothing is listed. -/
def NatMap.getD {α : Type} (m : NatMap α) (k : Nat) (d : α) : α := (m.get? k).getD d

/-- Set the value at a key, keeping the keys strictly rising. -/
def NatMap.set {α : Type} : NatMap α → Nat → α → NatMap α
  | [], k, a => [(k, a)]
  | (j, b) :: t, k, a =>
    if k < j then (k, a) :: (j, b) :: t
    else if k = j then (k, a) :: t
    else (j, b) :: NatMap.set t k a

/-- Remove a key. -/
def NatMap.erase {α : Type} : NatMap α → Nat → NatMap α
  | [], _ => []
  | (j, b) :: t, k => if j = k then t else (j, b) :: NatMap.erase t k

/-- Keys strictly rising, all above `lo`. -/
def NatMap.risingFrom {α : Type} : Nat → NatMap α → Bool
  | _, [] => true
  | lo, (j, _) :: t => decide (lo ≤ j) && NatMap.risingFrom (j + 1) t

/-- The canonical form of a table. -/
def NatMap.wf {α : Type} (m : NatMap α) : Bool := NatMap.risingFrom 0 m

/-- A byte of memory; an unlisted one reads zero (log 3). -/
def memRead (m : List Host.Cell) (k : Nat) : Byte := NatMap.getD m k 0

/-- Write a byte, keeping the canonical form: a zero byte is not listed. -/
def memWrite (m : List Host.Cell) (k : Nat) (b : Byte) : List Host.Cell :=
  if b = 0 then NatMap.erase m k else NatMap.set m k b

/-- The canonical form of memory: addresses strictly rising, no entry equal to what an unlisted address reads as. -/
def memWf (m : List Host.Cell) : Bool := NatMap.wf m && m.all (fun c => c.2 != 0)

/-- Insert into a rising list of naturals. -/
def insertNat : List Nat → Nat → List Nat
  | [], k => [k]
  | j :: t, k => if k < j then k :: j :: t else if k = j then j :: t else j :: insertNat t k

/-- The bytes of a number, least significant first (00 R3). -/
def toBytes : Nat → Nat → List Byte
  | 0, _ => []
  | n + 1, v => BitVec.ofNat 8 v :: toBytes n (v / 256)

/-- The number that bytes denote, least significant first (00 R3). -/
def ofBytes : List Byte → Nat
  | [] => 0
  | b :: t => b.toNat + 256 * ofBytes t

/-- `n` bits of `v` from bit `lo`. -/
def bitsAt (v lo n : Nat) : Nat := v / 2 ^ lo % 2 ^ n

/-- `v` with the `n` bits from bit `lo` replaced by the low bits of `f`. -/
def putBits (v lo n f : Nat) : Nat :=
  v - bitsAt v lo n * 2 ^ lo + f % 2 ^ n * 2 ^ lo

/-- A bit vector with the `n` bits from bit `lo` replaced: an element of a register, a row or an accumulator. -/
def putField {k : Nat} (v : BitVec k) (lo n f : Nat) : BitVec k :=
  let m : BitVec k := BitVec.ofNat k (2 ^ n - 1) <<< lo
  (v &&& ~~~m) ||| (BitVec.ofNat k (f % 2 ^ n) <<< lo)

/-- The `n` bits of a bit vector from bit `lo`, as a number. -/
def getField {k : Nat} (v : BitVec k) (lo n : Nat) : Nat := v.toNat / 2 ^ lo % 2 ^ n

/-- The signed value of the low `w` bits of `v`. -/
def signedOf (w v : Nat) : Int :=
  let u := v % 2 ^ w
  if u < 2 ^ (w - 1) then (u : Int) else (u : Int) - (2 ^ w : Nat)

/-- An integer modulo 2^w. -/
def wrapInt (w : Nat) (i : Int) : Nat := (i % (2 ^ w : Nat)).toNat

/-- Elements of width `w` packed least significant first. -/
def packElems (w : Nat) : List Nat → Nat
  | [] => 0
  | e :: t => e % 2 ^ w + 2 ^ w * packElems w t

end Sys2Proof.Machine
end

