-- ==== Sys2Proof/Machine/Num.lean ====
section
/-! DEFINITION. Numbers (02): the exact values that element formats denote, rounding, stochastic rounding,
block floating point and the summation order. Flags are those of FFLAGS (R50): NX 1, UF 2, OF 4, DZ 8, NV 16. -/
namespace Sys2Proof.Machine

abbrev Flags := BitVec 5
def fNX : Flags := 1
def fUF : Flags := 2
def fOF : Flags := 4
def fDZ : Flags := 8
def fNV : Flags := 16

/-- What a bit pattern denotes (02 R67, Decode): a NaN, an infinity, or (−1)^neg × m × 2^e. -/
inductive Val where
  | nan (signalling : Bool)
  | inf (neg : Bool)
  | fin (neg : Bool) (m : Nat) (e : Int)
  deriving DecidableEq, Repr

/-- A rounding mode (02 R47); SR carries SRSEED and SRBASE (R53). -/
inductive RMode where
  | rne | rtz | rdn | rup
  | sr (seed base : BitVec 32)
  deriving DecidableEq, Repr

/-- Fraction bits, exponent bits and bias of a binary floating format (02 R42). -/
def fracBits (t : Nat) : Nat := match t with | 8 => 7 | 9 => 23 | 10 => 52 | 11 => 3 | _ => 2
def expBits (t : Nat) : Nat := match t with | 8 => 8 | 9 => 8 | 10 => 11 | 11 => 4 | _ => 5
def fbias (t : Nat) : Nat := 2 ^ (expBits t - 1) - 1

/-- The canonical NaN of a format (02 R42, R44). -/
def canonNaN (t : Nat) : Nat :=
  match t with | 8 => 0x7FC0 | 9 => 0x7FC0_0000 | 10 => 0x7FF8_0000_0000_0000 | 11 => 0x7F | _ => 0x7E

/-- The infinity of a format, positive; E4M3 has none and gives its largest value, 448 (02 R42, R51). -/
def infBits (t : Nat) : Nat := if t = 11 then 0x7E else (2 ^ expBits t - 1) * 2 ^ fracBits t

/-- The largest finite value of a format, positive. -/
def maxBits (t : Nat) : Nat := if t = 11 then 0x7E else infBits t - 1

def signBit (t : Nat) (neg : Bool) : Nat := if neg then 2 ^ (fracBits t + expBits t) else 0

/-- Decode of a binary floating format (02 R42, R43). -/
def decodeF (t bits : Nat) : Val :=
  let f := fracBits t
  let x := expBits t
  let ff := bits % 2 ^ f
  let ef := bits / 2 ^ f % 2 ^ x
  let neg := bits / 2 ^ (f + x) % 2 == 1
  if t = 11 ∧ ef = 15 ∧ ff = 7 then .nan false
  else if t ≠ 11 ∧ ef = 2 ^ x - 1 then
    if ff = 0 then .inf neg else .nan (t != 12 && ff / 2 ^ (f - 1) == 0)
  else if ef = 0 then .fin neg ff (1 - (fbias t : Int) - f)
  else .fin neg (2 ^ f + ff) ((ef : Int) - fbias t - f)

/-- Decode of any format of 4 to 64 bits (02 R40 to R42). -/
def decodeElem (t bits : Nat) : Val :=
  if Ty.isFloat t then decodeF t bits
  else if Ty.isSigned t then
    let i := signedOf (Ty.width t) bits
    .fin (decide (i < 0)) i.natAbs 0
  else .fin false (bits % 2 ^ Ty.width t) 0

/-- ROTL32 (02 R67). -/
def rotl32 (v : BitVec 32) (s : Nat) : BitVec 32 := v.rotateLeft s

/-- One round of SRHASH. -/
def srRound (ab : BitVec 32 × BitVec 32) (ks : BitVec 32 × Nat) : BitVec 32 × BitVec 32 :=
  let a := ab.1 + ab.2 + ks.1
  (a, rotl32 (ab.2 ^^^ a) ks.2)

/-- SRHASH(seed, n), 24 bits (02 R55). -/
def srHash (seed n : BitVec 32) : Nat :=
  let r := [((0x9E37_79B9 : BitVec 32), 7), (0x7F4A_7C15, 13), (0x85EB_CA6B, 17), (0xC2B2_AE35, 5),
    (0x27D4_EB2F, 11), (0x1656_67B1, 19)].foldl srRound (seed, n)
  (r.1 ^^^ r.2).toNat / 256

/-- Whether a magnitude k + rem/2^sh, 0 < rem < 2^sh, is rounded away from zero (02 R47, R53). -/
def roundsUp (mode : RMode) (neg : Bool) (k rem sh n : Nat) : Bool :=
  match mode with
  | .rne => decide (2 ^ sh < 2 * rem) || (decide (2 ^ sh = 2 * rem) && k % 2 == 1)
  | .rtz => false
  | .rdn => neg
  | .rup => !neg
  | .sr seed base => decide (srHash seed (base + BitVec.ofNat 32 n) < rem * 2 ^ 24 / 2 ^ sh)

/-- The magnitude m × 2^e rounded to a multiple of 2^q: the multiple, and whether it is inexact. -/
def roundAt (mode : RMode) (neg : Bool) (m : Nat) (e q : Int) (n : Nat) : Nat × Bool :=
  if q ≤ e then (m * 2 ^ (e - q).toNat, false)
  else
    let sh := (q - e).toNat
    let k := m / 2 ^ sh
    let rem := m % 2 ^ sh
    if rem = 0 then (k, false)
    else (if roundsUp mode neg k rem sh n then k + 1 else k, true)

/-- The result of an overflow (02 R51): `chosen` says whether SR chose the upper neighbour. -/
def overflowBits (t : Nat) (mode : RMode) (neg chosen : Bool) : Nat :=
  signBit t neg + (match mode with
    | .rne => infBits t
    | .rtz => maxBits t
    | .rdn => if neg then infBits t else maxBits t
    | .rup => if neg then maxBits t else infBits t
    | .sr _ _ => if chosen then infBits t else maxBits t)

/-- Round of a finite non-zero magnitude to a binary floating format (02 R51, R53). Under SR a magnitude whose chosen
neighbour is the largest finite value does not overflow; one that overflows gives infinity where the upper neighbour
was chosen, and the largest finite value otherwise, on the grid itself too (DEDUCED, log 8). -/
def roundFin (t : Nat) (mode : RMode) (neg : Bool) (m : Nat) (e : Int) (n : Nat) : Nat × Flags :=
  let f : Int := fracBits t
  let emin : Int := 1 - (fbias t : Int)
  let lead : Int := (Nat.log2 m : Int) + e
  let q := max (lead - f) (emin - f)
  let (k, inexact) := roundAt mode neg m e q n
  let bits := (q - (emin - f)).toNat * 2 ^ fracBits t + k
  if maxBits t < bits then (overflowBits t mode neg (decide ((roundAt .rtz neg m e q n).1 < k)), fOF ||| fNX)
  else
    let tiny := decide (lead < emin) &&
      (let u := roundAt mode neg m e (lead - f) n
       decide (lead + 1 < emin) || decide (u.1 < 2 ^ (fracBits t + 1)))
    (signBit t neg + bits, if inexact then (if tiny then fNX ||| fUF else fNX) else 0)

/-- Round(x, fmt, mode, n) for a binary floating format (02 R67): NaN gives the canonical NaN, and an infinity
the format's (±448 with OF and NX in E4M3, R51). -/
def roundTo (t : Nat) (mode : RMode) (x : Val) (n : Nat) : Nat × Flags :=
  match x with
  | .nan _ => (canonNaN t, 0)
  | .inf neg => (signBit t neg + infBits t, if t = 11 then fOF ||| fNX else 0)
  | .fin neg m e => if m = 0 then (signBit t neg, 0) else roundFin t mode neg m e n

/-- RoundF32 (02 R67). -/
def roundF32 (mode : RMode) (x : Val) : Nat × Flags := roundTo 9 mode x 0

/-- A finite value rounded to an integer (02 R52): the integer and whether it is inexact. -/
def roundInt (mode : RMode) (neg : Bool) (m : Nat) (e : Int) (n : Nat) : Int × Bool :=
  let r := roundAt mode neg m e 0 n
  (if neg then -(r.1 : Int) else r.1, r.2)

/-- The least and greatest value of an integer format. -/
def intMin (t : Nat) : Int := if Ty.isSigned t then -(2 ^ (Ty.width t - 1) : Nat) else 0
def intMax (t : Nat) : Int :=
  if Ty.isSigned t then (2 ^ (Ty.width t - 1) : Nat) - 1 else (2 ^ Ty.width t : Nat) - 1

/-- Sat(x, lo, hi) (02 R67). -/
def satInt (lo hi x : Int) : Int := min (max x lo) hi

/-- An integer saturated to an integer format, as bits. -/
def satBits (t : Nat) (x : Int) : Nat := wrapInt (Ty.width t) (satInt (intMin t) (intMax t) x)

/-- Conversion to an integer format (02 R52). -/
def toIntFmt (t : Nat) (mode : RMode) (x : Val) (n : Nat) : Nat × Flags :=
  match x with
  | .nan _ => (0, fNV)
  | .inf neg => (wrapInt (Ty.width t) (if neg then intMin t else intMax t), fNV)
  | .fin neg m e =>
    let r := roundInt mode neg m e n
    if r.1 < intMin t ∨ intMax t < r.1 then (satBits t r.1, fNV)
    else (wrapInt (Ty.width t) r.1, if r.2 then fNX else 0)

/-! ## Exact arithmetic -/

def Val.isNaN : Val → Bool | .nan _ => true | _ => false
def Val.isInf : Val → Bool | .inf _ => true | _ => false
def Val.isZero : Val → Bool | .fin _ 0 _ => true | _ => false
/-- NV for a signalling NaN (02 R50). -/
def Val.nv : Val → Flags | .nan true => fNV | _ => 0
def Val.isNeg : Val → Bool | .inf n => n | .fin n _ _ => n | .nan _ => false

def Val.neg : Val → Val
  | .nan s => .nan s | .inf n => .inf (!n) | .fin n m e => .fin (!n) m e

def Val.abs : Val → Val
  | .nan s => .nan s | .inf _ => .inf false | .fin _ m e => .fin false m e

/-- A signed integer times 2^e, as a value; zero takes the sign given. -/
def ofIntExp (i : Int) (e : Int) (zneg : Bool) : Val :=
  if i = 0 then .fin zneg 0 0 else .fin (decide (i < 0)) i.natAbs e

def sgnInt (neg : Bool) (m : Nat) : Int := if neg then -(m : Int) else m

/-- The exact sum of two values; `rdn` gives the sign of an exact zero of unlike signs (02 R51). -/
def Val.add (rdn : Bool) (x y : Val) : Val × Flags :=
  match x, y with
  | .nan a, .nan b => (.nan false, if a || b then fNV else 0)
  | .nan a, _ => (.nan false, if a then fNV else 0)
  | _, .nan b => (.nan false, if b then fNV else 0)
  | .inf a, .inf b => if a = b then (.inf a, 0) else (.nan false, fNV)
  | .inf a, _ => (.inf a, 0)
  | _, .inf b => (.inf b, 0)
  | .fin a m e, .fin b k g =>
    let e0 := min e g
    let i := sgnInt a (m * 2 ^ (e - e0).toNat) + sgnInt b (k * 2 ^ (g - e0).toNat)
    (ofIntExp i e0 (if m = 0 ∧ k = 0 ∧ a = b then a else rdn), 0)

/-- The exact product of two values (02 R50, R60). -/
def Val.mul (x y : Val) : Val × Flags :=
  match x, y with
  | .nan a, .nan b => (.nan false, if a || b then fNV else 0)
  | .nan a, _ => (.nan false, if a then fNV else 0)
  | _, .nan b => (.nan false, if b then fNV else 0)
  | .inf a, .inf b => (.inf (a != b), 0)
  | .inf a, .fin b m _ => if m = 0 then (.nan false, fNV) else (.inf (a != b), 0)
  | .fin b m _, .inf a => if m = 0 then (.nan false, fNV) else (.inf (a != b), 0)
  | .fin a m e, .fin b k g => (.fin (a != b) (m * k) (e + g), 0)

/-- The quotient, exact but for a sticky bit below every place a rounding can reach (02 R50, R63). -/
def Val.div (x y : Val) : Val × Flags :=
  match x, y with
  | .nan a, .nan b => (.nan false, if a || b then fNV else 0)
  | .nan a, _ => (.nan false, if a then fNV else 0)
  | _, .nan b => (.nan false, if b then fNV else 0)
  | .inf _, .inf _ => (.nan false, fNV)
  | .inf a, .fin b _ _ => (.inf (a != b), 0)
  | .fin a _ _, .inf b => (.fin (a != b) 0 0, 0)
  | .fin a m e, .fin b k g =>
    if k = 0 then (if m = 0 then (.nan false, fNV) else (.inf (a != b), fDZ))
    else
      let n := m * 2 ^ 128
      (.fin (a != b) (2 * (n / k) + if n % k = 0 then 0 else 1) (e - g - 129), 0)

/-- The integer square root, bit by bit. -/
def isqrtGo (n : Nat) : Nat → Nat → Nat
  | 0, r => r
  | i + 1, r => isqrtGo n i (if (r + 2 ^ i) * (r + 2 ^ i) ≤ n then r + 2 ^ i else r)

/-- The square root, exact but for a sticky bit (02 R50). The square root of −0 is −0. -/
def Val.sqrt (x : Val) : Val × Flags :=
  match x with
  | .nan a => (.nan false, if a then fNV else 0)
  | .inf a => if a then (.nan false, fNV) else (.inf false, 0)
  | .fin a m e =>
    if m = 0 then (.fin a 0 0, 0)
    else if a then (.nan false, fNV)
    else
      let (m', e') := if e % 2 = 0 then (m, e) else (2 * m, e - 1)
      let n := m' * 2 ^ 140
      let r := isqrtGo n 140 0
      (.fin false (2 * r + if r * r = n then 0 else 1) (e' / 2 - 71), 0)

/-- Comparison of two values that are not NaN: −1, 0 or 1; −0 equals +0. -/
def Val.cmp (x y : Val) : Int :=
  match x, y with
  | .inf a, .inf b => if a = b then 0 else if a then -1 else 1
  | .inf a, _ => if a then -1 else 1
  | _, .inf b => if b then 1 else -1
  | .fin a m e, .fin b k g =>
    let e0 := min e g
    let i := sgnInt a (m * 2 ^ (e - e0).toNat) - sgnInt b (k * 2 ^ (g - e0).toNat)
    if i < 0 then -1 else if i = 0 then 0 else 1
  | _, _ => 0

def RMode.isRdn : RMode → Bool | .rdn => true | _ => false

/-- x + y rounded once. -/
def fAdd (t : Nat) (mode : RMode) (x y : Val) : Nat × Flags :=
  let a := x.add mode.isRdn y
  let r := roundTo t mode a.1 0
  (r.1, a.2 ||| r.2)

def fMul (t : Nat) (mode : RMode) (x y : Val) : Nat × Flags :=
  let a := x.mul y
  let r := roundTo t mode a.1 0
  (r.1, a.2 ||| r.2)

/-- x × y + z rounded once (02 R63). -/
def fFma (t : Nat) (mode : RMode) (x y z : Val) : Nat × Flags :=
  let p := x.mul y
  let a := p.1.add mode.isRdn z
  let r := roundTo t mode a.1 0
  (r.1, p.2 ||| a.2 ||| r.2)

def fDiv (t : Nat) (mode : RMode) (x y : Val) : Nat × Flags :=
  let a := x.div y
  let r := roundTo t mode a.1 0
  (r.1, a.2 ||| r.2)

def fSqrt (t : Nat) (mode : RMode) (x : Val) : Nat × Flags :=
  let a := x.sqrt
  let r := roundTo t mode a.1 0
  (r.1, a.2 ||| r.2)

/-! ## Block floating point (02 R45, R57) -/

/-- Element j of a BFPm block of 1 + 4m bytes, given as a number. -/
def bfpElem (m block j : Nat) : Val :=
  let e := block % 256
  if e = 255 then .nan false
  else
    let i := signedOf m (block / 2 ^ (8 + m * j))
    if i = 0 then .fin false 0 0 else .fin (decide (i < 0)) i.natAbs ((e : Int) - 127 - ((m : Int) - 2))

/-- The mantissa of one value at scale e: rounded, before saturation, and whether it is inexact; none for an
infinity. -/
def bfpMant (m : Nat) (mode : RMode) (e : Nat) (x : Val) (n : Nat) : Option (Int × Bool) :=
  match x with
  | .fin neg k g => some (roundInt mode neg k (g - ((e : Int) - 127 - ((m : Int) - 2))) n)
  | _ => none

def bfpFits (m : Nat) (mode : RMode) (e : Nat) (xs : List (Val × Nat)) : Bool :=
  xs.all fun (x, n) => match bfpMant m mode e x n with
    | some (i, _) => decide (-(2 ^ (m - 1) : Nat) ≤ i) && decide (i ≤ (2 ^ (m - 1) : Nat) - 1)
    | none => false

/-- QuantBFP (02 R57): the block of 32 values with their element indices, and its flags. -/
def quantBfp (m : Nat) (mode : RMode) (xs : List (Val × Nat)) : Nat × Flags :=
  if xs.any (fun p => p.1.isNaN) then (0xFF, fNV)
  else
    let e := ((List.range 255).find? fun e => bfpFits m mode e xs).getD 254
    let ms := xs.map fun (x, n) => match bfpMant m mode e x n with
      | some (i, inex) =>
        let s := satInt (-(2 ^ (m - 1) : Nat)) ((2 ^ (m - 1) : Nat) - 1) i
        (s, (if s ≠ i then fOF ||| fNX else 0) ||| (if inex then fNX else 0) |||
          (if s = 0 ∧ !x.isZero then fUF else 0))
      | none => (if x.isNeg then -((2 ^ (m - 1) : Nat) : Int) else (2 ^ (m - 1) : Nat) - 1, fOF ||| fNX)
    (e + 256 * packElems m (ms.map fun p => wrapInt m p.1), ms.foldl (fun a p => a ||| p.2) 0)

/-! ## Summation order (02 R58 to R60) -/

/-- The exact sum of a chunk: special values as R60. -/
structure ChunkSum where
  nan   : Bool := false
  pinf  : Bool := false
  ninf  : Bool := false
  i     : Int := 0
  e     : Int := 0
  flags : Flags := 0

def ChunkSum.push (c : ChunkSum) (a b : Val) : ChunkSum :=
  let p := a.mul b
  let c := { c with flags := c.flags ||| p.2 }
  match p.1 with
  | .nan _ => { c with nan := true }
  | .inf n => if n then { c with ninf := true } else { c with pinf := true }
  | .fin n m e =>
    if m = 0 then c
    else if c.i = 0 then { c with i := sgnInt n m, e := e }
    else
      let e0 := min c.e e
      { c with i := c.i * 2 ^ (c.e - e0).toNat + sgnInt n (m * 2 ^ (e - e0).toNat), e := e0 }

/-- Chunk32 (02 R60): none for an exact zero. -/
def ChunkSum.value (c : ChunkSum) : Option Val × Flags :=
  if c.pinf && c.ninf then (some (.nan false), c.flags ||| fNV)
  else if c.nan then (some (.nan false), c.flags)
  else if c.pinf then (some (.inf false), c.flags)
  else if c.ninf then (some (.inf true), c.flags)
  else if c.i = 0 then (none, c.flags)
  else (some (.fin (decide (c.i < 0)) c.i.natAbs c.e), c.flags)

/-- One chunk added to an accumulator of FP32 bits (02 R58, R59). -/
def addChunk (mode : RMode) (acc : Nat) (xs : List (Val × Val)) : Nat × Flags :=
  let v := (xs.foldl (fun (c : ChunkSum) p => c.push p.1 p.2) {}).value
  match v.1 with
  | none => (acc, v.2)
  | some s =>
    let r := fAdd 9 mode (decodeF 9 acc) s
    (r.1, v.2 ||| r.2)

/-- R58 over a list of factor pairs, from an accumulator: chunks of 32 in ascending order. The fuel is the number
of chunks. -/
def sumChunks (mode : RMode) : Nat → Nat × Flags → List (Val × Val) → Nat × Flags
  | 0, a, _ => a
  | n + 1, (acc, fl), xs =>
    match xs with
    | [] => (acc, fl)
    | _ =>
      let r := addChunk mode acc (xs.take 32)
      sumChunks mode n (r.1, fl ||| r.2) (xs.drop 32)

/-- R58 for one output element. -/
def dotFrom (mode : RMode) (acc : Nat) (xs : List (Val × Val)) : Nat × Flags :=
  sumChunks mode (xs.length / 32 + 1) (acc, 0) xs

end Sys2Proof.Machine
end

