-- ==== Sys2Proof/Config.lean ====
section
/-! DEFINITION. What the manual leaves open: free values, each an opaque constant of which nothing is known. -/
namespace Sys2Proof.Config

/-- The contents of a vector register after S writes CLEAN or DIRTY to a VSTATE that was OFF: not defined until
software writes them (04 R107). The arguments are the free-value counter and the register. -/
opaque freeVector : Nat → Nat → BitVec 16384

/-- The contents of a predicate register after the same event (04 R107). -/
opaque freePredicate : Nat → Nat → BitVec 4096

/-- A byte of a granule of the tile store that no DENSE register occupies: how a MAQUETTE lies in its granules is not
stated, nor what a released granule holds (12 R320). The arguments are the free-value counter and the byte. -/
opaque freeTileByte : Nat → Nat → Byte

/-- Which of the free granules a tile register takes is not architectural (12 R320). The arguments are the free-value
counter and how many are still to be taken. -/
opaque pickGranule : Nat → Nat → Nat

/-- The factors of a MAQUETTE after a store through the window into a granule of it (12 R320). The arguments are the
free-value counter and the register. -/
opaque freeTile : Nat → Nat → BitVec 131072

/-- A byte of a transfer whose source and destination overlap: read before or after the operation wrote it
(08 R233); `true` is after. The arguments are the free-value counter and the byte. -/
opaque overlapNew : Nat → Nat → Bool

/-- Which of the 128 64-byte units of a plinth-buffer entry a BUFLD takes new from a BUFST of another stream that it
meets (11 R297): bit l for unit l. The argument is the free-value counter. -/
opaque crossedUnits : Nat → BitVec 128

/-- Whether a hart's line request missed in every L2: which requests miss is not architectural (18 R401). The
arguments are the free-value counter and the line. -/
opaque missedL2 : Nat → Nat → Bool

/-- A byte that a host read through BAR2, or a peer's read, returns from a unit that cannot be corrected: the data
is not delivered (07 R201), and what arrives is not stated. The arguments are the free-value counter and the byte. -/
opaque freeHostByte : Nat → Nat → Byte

/-- The CRC-64 of bytes +0x00 to +0xF7 of a flit: its polynomial is not stated (19 R413). -/
opaque crc64 : BitVec 1984 → BitVec 64

/-- What a flit that this package sends holds: the line slots in use, its lines and its headers, whose layout is not
stated (19 R413). The arguments are the free-value counter and the port. -/
opaque flitSlots : Nat → Nat → BitVec 2
opaque flitLines : Nat → Nat → BitVec 1536
opaque flitMsg : Nat → Nat → BitVec 384

/-- The temperature that the sensors of a column show, in °C (20 R422). The arguments are the free-value counter and
4·die + column. -/
opaque temperature : Nat → Nat → BitVec 8

/-- Whether a peer's request was translated through a counted entry and missed there (18 R401): the request does not
say. The arguments are the free-value counter and the line. -/
opaque peerCounted : Nat → Nat → Bool

/-- Spare banks of a pseudo-channel (18 R404, 20 R425 name them and give no number). -/
opaque spareBanks : Nat

/-- Whether the spare that serves a bank under test holds when the test fails: RESULT 2, failed with no spare, is not
further explained (20 R425). The argument is the free-value counter. -/
opaque spareHolds : Nat → Bool

/-- Bexik's release key: modulus and public exponent (20 R426). -/
opaque releaseModulus : Nat
opaque releaseExponent : Nat

/-- The image that the boot ROM fetches from the host (20 R426). The arguments are the free-value counter and the
component. -/
opaque hostImage : Nat → Nat → List Byte

/-- The component, version, signature and signed part that an image carries (20 R426 names the fields, not their
places). -/
opaque imageComponent : List Byte → Nat
opaque imageVersion : List Byte → BitVec 32
opaque imageSignature : List Byte → BitVec 3072
opaque imageSigned : List Byte → List Byte

/-- The HOT threshold that an image of the power controller's firmware sets (20 R422). -/
opaque hotThreshold : List Byte → BitVec 8

/-- The length in bytes of the staged image at an address: the layout of an image is not stated (20 R426). -/
opaque imageLength : Nat → Nat

/-- Whether a write of an image in place fails (20 R426: a failure after step 4). -/
opaque commitFails : Nat → Bool

/-- The device key: modulus and private exponent, and the salt of a signature (20 R428). -/
opaque deviceModulus : Nat
opaque deviceExponent : Nat
opaque pssSalt : Nat → BitVec 256

/-- The package serial (20 R428). -/
opaque packageSerial : BitVec 128

/-- The bytes of the boot ROM (20 R428). -/
opaque bootRom : List Byte

end Sys2Proof.Config
end

