-- ==== Sys2Proof/Machine/Phys.lean ====
section
/-! DEFINITION. The physical address space (01 R18 to R26): where the byte at a physical address lies, the
capability list, the tower register blocks, and the device's own reads and writes by physical address. -/
namespace Sys2Proof.Machine

/-- Towers of a variant (01 R36). -/
def Variant.towers : Variant → Nat
  | .nx8 => 8 | .nx6 => 6 | .nx4m => 4

def Variant.hasPool (v : Variant) : Bool := v != .nx6
def Variant.hasXform (v : Variant) : Bool := v != .nx6
def Variant.hasMaquette (v : Variant) : Bool := v != .nx4m
def Variant.hasLamination (v : Variant) : Bool := v != .nx4m

/-! ## Components of the state -/

def State.hart (s : State) (k : Nat) : Hart := s.harts.getD k {}
def State.core (s : State) (c : Nat) : Core := s.cores.getD c {}
def State.bank (s : State) (b : Nat) : Bank := s.banks.getD b {}
def State.stream (s : State) (i : Nat) : Stream := s.streams.getD i {}
def State.tower (s : State) (t : Nat) : Tower := s.towers.getD t {}
def State.setHart (s : State) (k : Nat) (h : Hart) : State := { s with harts := s.harts.set k h }
def State.setCore (s : State) (c : Nat) (x : Core) : State := { s with cores := s.cores.set c x }
def State.setBank (s : State) (b : Nat) (x : Bank) : State := { s with banks := s.banks.set b x }
def State.setStream (s : State) (i : Nat) (x : Stream) : State := { s with streams := s.streams.set i x }
def State.setTower (s : State) (t : Nat) (x : Tower) : State := { s with towers := s.towers.set t x }
def State.setCtx (s : State) (c : Nat) (x : Context) : State := { s with ctxs := s.ctxs.set c x }
def State.setKernel (s : State) (k : Nat) (x : Kernel) : State := { s with kernels := s.kernels.set k x }
def State.setGroup (s : State) (g : Nat) (x : Group) : State := { s with groups := s.groups.set g x }

/-- The group bound at a hart place, with its kernel and context number. -/
def State.groupOf (s : State) (h : Hart) : Option (Group × Kernel) :=
  match s.groups.get? h.group with
  | none => none
  | some g => match s.kernels.get? g.kernel with
    | none => none
    | some k => some (g, k)

/-- The number of the context that a hart runs in (04 R109 CTXID). -/
def State.ctxOf (s : State) (h : Hart) : Nat :=
  match s.groupOf h with
  | some (_, k) => k.ctx
  | none => 0

/-- The name under which an engine operation keeps a PARKED member of a group (08 R225). -/
def parkKey (group member : Nat) : Nat := 2 ^ 16 + 128 * group + member

/-- A member that an operation keeps is PARKED still. -/
def State.stillParked (s : State) (key : Nat) : Bool :=
  decide (2 ^ 16 ≤ key) && (match s.groups.get? ((key - 2 ^ 16) / 128) with
    | some g => (match g.members.get? (key % 128) with | some m => m.at_ == .parked | none => false)
    | none => false)

/-- A core on which a group that has not ended is placed (17 R381). -/
def State.hostedGroup (s : State) (c : Nat) : Option Nat :=
  s.groups.findSome? fun (g, x) =>
    if x.cores.contains c && x.state != .ended && x.state != .parked then some g else none

/-- The group that has a core: placed on it, or binding there again (17 R383, R385). -/
def State.heldBy (s : State) (c : Nat) : Option Nat :=
  match s.hostedGroup c with
  | some g => some g
  | none => s.groups.findSome? fun (g, x) =>
      if x.state == .binding && x.placing.any (fun p => p.2 == c) then some g else none

/-! ## Banks and the spread region -/

/-- The `i`-th of the natural numbers not in a rising list. -/
def nthLive (retired : List Nat) (i : Nat) : Nat :=
  retired.foldl (fun k r => if r ≤ k then k + 1 else k) i

/-- Live banks of a tower (01 R24). -/
def Tower.live (t : Tower) : Nat := 1024 - t.retired.length

/-- Whether a bank (16·PC + bank) is live. -/
def Tower.isLive (t : Tower) (pc bank : Nat) : Bool := !t.retired.contains (64 * bank + pc)

/-- The RLPA of a byte of a row (01 R21). -/
def rlpa (tower pc bank group row off : Nat) : Nat :=
  2 ^ 47 + tower * 2 ^ 37 + pc * 2 ^ 31 + bank * 2 ^ 27 + group * 2 ^ 25 + row * 2 ^ 13 + off

/-- C_t of R19. -/
def Tower.spread (t : Tower) : Nat := t.live * 4 * (t.floor - 1) * 8192

/-- The RLPA of a spread address, given as tower and offset in the slab (01 R19). -/
def spreadKey (t : Tower) (tower off : Nat) : Nat :=
  let g := off / 256
  let l := nthLive t.retired (g % t.live)
  let j := g / t.live
  let sr := j / 32
  rlpa tower (l % 64) (l / 64) (sr % 4) (1 + sr / 4) (256 * (j % 32) + off % 256)

/-! ## Where a physical address leads -/

/-- What lies at a physical address. -/
inductive Home where
  /-- A byte of DRAM (by RLPA), of a scratchpad or of the pool (by physical address). -/
  | mem (key : Nat)
  | vreg (place off : Nat)
  | acc (core off : Nat)
  | ingress (core n : Nat)
  | tile (core off : Nat)
  | towerReg (tower off : Nat)
  | cap (off : Nat)
  | pod (addr : Nat)
  | none
  deriving DecidableEq, Repr

/-- The base of the on-chip window (01 R18). -/
def windowBase : Nat := 0x7F00_0000_0000

/-- The base of a core's block (01 R25). -/
def coreBase (c : Nat) : Nat := windowBase + c * 0x100_0000

/-- The on-chip window (01 R25, R26). -/
def windowHome (s : State) (pa : Nat) : Home :=
  let c := (pa - windowBase) / 0x100_0000
  let off := (pa - windowBase) % 0x100_0000
  if 64 * s.variant.towers ≤ c then .none
  else if (s.core c).lost then .none
  else if off < 0x8_0000 then .mem pa
  else if off < 0x10_0000 then
    let k := 9 * c + (off - 0x8_0000) / 0x1_0000
    let o := off % 0x1_0000
    if o < 4 * (s.hart k).vgrant ∧ (s.hart k).life ≠ .free then .vreg k o else .none
  else if off < 0x11_0000 then .acc c (off - 0x10_0000)
  else if off < 0x12_0000 then .ingress c ((off - 0x11_0000) / 0x4000)
  else if off < 0x16_0000 then .tile c (off - 0x12_0000)
  else .none

/-- Where the byte at a physical address lies (01 R18, R19, R21, R24, R32; 19 R410, R411, R416). -/
def physHome (s : State) (pa : Nat) : Home :=
  if pa < 2 ^ 40 then
    let t := pa / 2 ^ 37
    if t < s.variant.towers ∧ pa % 2 ^ 37 < (s.tower t).spread then
      .mem (spreadKey (s.tower t) t (pa % 2 ^ 37))
    else .none
  else if windowBase ≤ pa ∧ pa < 0x7F02_0000_0000 then windowHome s pa
  else if 0x7F08_0000_0000 ≤ pa ∧ pa < 0x7F08_0008_0000 then
    let t := (pa - 0x7F08_0000_0000) / 0x1_0000
    let o := pa % 0x1_0000
    if t < s.variant.towers ∧ (o < 16 ∨ (0x100 ≤ o ∧ o < 0x180)) then .towerReg t o else .none
  else if 0x7F10_0000_0000 ≤ pa ∧ pa < 0x7F10_0001_0000 then .cap (pa - 0x7F10_0000_0000)
  else if 2 ^ 47 ≤ pa ∧ pa < 2 ^ 47 + 2 ^ 40 then
    let t := bitsAt pa 37 3
    let tw := s.tower t
    let row := bitsAt pa 13 12
    if t < s.variant.towers ∧ tw.isLive (bitsAt pa 31 6) (bitsAt pa 27 4) = true ∧
        (row = 0 ∨ (tw.floor ≤ row ∧ row < 3072)) then .mem pa
    else .none
  else if 2 ^ 48 ≤ pa ∧ pa < 2 ^ 49 then
    let pp := s.poolports.getD (bitsAt pa 47 1) {}
    if s.variant.hasPool = true ∧ pp.up = true ∧ pa % 2 ^ 47 < pp.size.toNat * 0x1_0000 then .mem pa else .none
  else if 2 ^ 50 ≤ pa ∧ pa < 2 ^ 52 then
    let q := (pa - 2 ^ 50) / 2 ^ 40
    if s.host.podid.getLsbD 11 = true ∧ q ≤ 1151 ∧ q ≠ (s.host.podid.toNat % 2048) then .pod pa else .none
  else .none

/-- Row 0 of the row-linear region (01 R22). -/
def isRowZero (pa : Nat) : Bool := decide (2 ^ 47 ≤ pa) && decide (pa < 2 ^ 47 + 2 ^ 40) && bitsAt pa 13 12 == 0

/-- A name for the byte at a physical address that does not depend on the path taken to it. -/
def homeKey (s : State) (pa : Nat) : Nat :=
  match physHome s pa with
  | .mem k => k
  | _ => pa

/-- The first byte of the unit of correction that holds a byte (07 R201). -/
def unitOf (key : Nat) : Nat :=
  if windowBase ≤ key ∧ key < 0x7F02_0000_0000 then key - key % 8 else key - key % 64

/-- The bytes of the unit. -/
def unitSize (key : Nat) : Nat := if windowBase ≤ key ∧ key < 0x7F02_0000_0000 then 8 else 64

/-! ## The capability list (01 R32 to R36) -/

def le16 (v : Nat) : List Byte := toBytes 2 v

/-- One entry: header, payload padded to a multiple of 8. -/
def capEntry (id : Nat) (payload : List Byte) (isLast : Bool) : List Byte :=
  let pad := (8 - payload.length % 8) % 8
  let len := 8 + payload.length + pad
  le16 id ++ toBytes 2 1 ++ toBytes 4 (if isLast then 0 else len) ++ payload ++ List.replicate pad 0

/-- The MATRIX bitmap: the type codes accepted by MMA (12 R324). -/
def matrixBitmap : Nat := 2 ^ 0 + 2 ^ 8 + 2 ^ 11 + 2 ^ 12 + 2 ^ 16 + 2 ^ 18 + 2 ^ 22

/-- The core-present bitmap of a die: all but the cores that were out of service at the last reset (01 R37). -/
def coreBitmap (lost : List Nat) (die : Nat) : List Byte :=
  (List.range 8).map fun b => BitVec.ofNat 8 ((List.range 8).foldl (fun a i =>
    if lost.contains (64 * die + 8 * b + i) then a else a + 2 ^ i) 0)

/-- The bytes of the capability list, which change at a reset alone (01 R32; log 58). -/
def capList (s : State) : List Byte :=
  let t := s.variant.towers
  capEntry 0x0001 (le16 t ++ le16 64 ++ le16 8 ++ le16 16384 ++ (List.range t).flatMap (coreBitmap s.lostAt)) false ++
  capEntry 0x0002 (le16 64 ++ le16 16 ++ le16 4 ++ le16 3072 ++ le16 8192) false ++
  capEntry 0x0010 (toBytes 4 matrixBitmap) false ++
  capEntry 0x0011 [] false ++
  (if s.variant.hasMaquette then capEntry 0x0012 (le16 32 ++ le16 256) false else []) ++
  (if s.variant.hasLamination then capEntry 0x0013 (le16 64 ++ le16 64 ++ le16 16) false else []) ++
  (if s.variant.hasXform then capEntry 0x0014 (le16 4) false else []) ++
  capEntry 0x0015 [] false ++
  capEntry 0x0016 [] false ++
  (if s.variant.hasPool then capEntry 0x0020 (le16 2 ++ List.replicate 6 0 ++ toBytes 8 s.poolAt) false else []) ++
  capEntry 0x0021 (le16 36) false ++
  capEntry 0x0030 (le16 4 ++ le16 64) true

/-- A byte of a tower's register block (01 R23, R24). -/
def towerByte (t : Tower) (off : Nat) : Byte :=
  if off < 8 then
    (toBytes 8 (t.floor % 4096 + if t.moving then 2 ^ 63 else 0)).getD off 0
  else if off < 16 then (toBytes 8 t.live).getD (off - 8) 0
  else
    let b := off - 0x100
    BitVec.ofNat 8 ((List.range 8).foldl (fun a i =>
      let k := 8 * b + i
      if t.isLive (k / 16) (k % 16) then a + 2 ^ i else a) 0)

/-! ## Bytes -/

/-- The name under which the agent whose turn it is asks peers for lines: a hart's (log 59). -/
def State.asker (s : State) : Nat := match s.cur with | some (.hart k) => 4 * k | _ => 1

/-- The answer that an agent has had about the line of an address (19 R416). -/
def State.podReply (s : State) (who pa : Nat) : Option PodReply :=
  s.pod.findSome? fun p => if p.by_ = who ∧ p.addr / 64 = pa / 64 then p.answer else none

/-- A byte of a line that a peer has answered with. -/
def State.podByte (s : State) (who pa : Nat) : Byte :=
  match s.podReply who pa with
  | some (.line d) => d.getD (pa % 64) 0
  | _ => 0

/-- The tile register that occupies a granule, and which of its granules it is (12 R320). -/
def Core.holder (c : Core) (g : Nat) : Option (Nat × Nat) :=
  c.grans.toList.zipIdx.findSome? fun p => (p.1.findIdx? (· == g)).map fun j => (p.2, j)

/-- A byte of a granule: a DENSE register lies in its granules row by row, lowest byte first; of any other granule it is
what the window has stored since the granule was last taken, or else a free value (12 R320, log 16). -/
def tileByte (s : State) (c o : Nat) : Byte :=
  let x := s.core c
  let other := (x.store.get? o).getD (Config.freeTileByte s.free (0x4_0000 * c + o))
  match x.holder (o / 1024) with
  | some (i, j) => match x.tile.toList.getD i .empty with
    | .dense32 m => BitVec.ofNat 8 (getField m (8 * (1024 * j + o % 1024)) 8)
    | .dense16 m => BitVec.ofNat 8 (getField m (8 * (1024 * j + o % 1024)) 8)
    | _ => other
  | none => other

/-- The byte at a home. Row 0 reads as zero (01 R22); a pod byte is the answered one. -/
def homeByte (s : State) : Home → Byte
  | .mem k => if isRowZero k then 0 else memRead s.mem k
  | .vreg k o =>
    let n := (s.hart k).vgrant / 8
    let r := o / n
    if h : r < 32 then BitVec.ofNat 8 (getField ((s.hart k).v[r]) (8 * (o % n)) 8) else 0
  | .acc c o =>
    let r := o / 0x4000
    if h : r < 4 then BitVec.ofNat 8 (getField ((s.core c).acc[r]) (8 * (o % 0x4000)) 8) else 0
  | .tile c o => tileByte s c o
  | .towerReg t o => towerByte (s.tower t) o
  | .cap o => (capList s).getD o 0
  | .pod a => s.podByte s.asker a
  | _ => 0

/-- A MAQUETTE after a store through the window into a granule of it: the elements of its factors are free values, and
its rank stays (12 R320, log 16). -/
def freeFactors (n i r len : Nat) : Tile :=
  .maquette r ((List.range len).map fun k => (Config.freeTile n i).extractLsb' (32 * k) 32)
    ((List.range len).map fun k => (Config.freeTile n i).extractLsb' (65536 + 32 * k) 32)

/-- Store a byte in a granule through the window: into the DENSE register that occupies it, or to be read back. -/
def putTileByte (s : State) (c o : Nat) (b : Byte) : State :=
  let x := s.core c
  let kept := { x with store := x.store.set o b }
  match x.holder (o / 1024) with
  | some (i, j) =>
    let put (n : Nat) (m : BitVec n) : BitVec n := putField m (8 * (1024 * j + o % 1024)) 8 b.toNat
    match x.tile.toList.getD i .empty with
    | .dense32 m => s.setCore c { x with tile := x.tile.setIfInBounds i (.dense32 (put _ m)) }
    | .dense16 m => s.setCore c { x with tile := x.tile.setIfInBounds i (.dense16 (put _ m)) }
    | .maquette r u _ =>
      { s.setCore c { kept with tile := x.tile.setIfInBounds i (freeFactors s.free i r u.length) } with free := s.free + 1 }
    | .empty => s.setCore c kept
  | none => s.setCore c kept

/-- A write to vector state of register `r` (04 R107): OFF stays, and else VSTATE is DIRTY and VDIRTY notes it. -/
def Hart.noteV (h : Hart) (r : Nat) : Hart :=
  if h.vstate = .off then h
  else { h with vstate := .dirty, vdirty := h.vdirty ||| ((1 : BitVec 40) <<< r) }

/-- Write a byte at a home: registers through the window keep their full/empty bits (01 R27), and row 0 does not
change (R22). -/
def putHomeByte (s : State) (home : Home) (b : Byte) : State :=
  match home with
  | .mem k => if isRowZero k then s else { s with mem := memWrite s.mem k b }
  | .vreg k o =>
    let h := s.hart k
    let n := h.vgrant / 8
    let r := o / n
    if hr : r < 32 then
      s.setHart k ({ h with v := h.v.set r (putField h.v[r] (8 * (o % n)) 8 b.toNat) }.noteV r)
    else s
  | .acc c o =>
    let x := s.core c
    let r := o / 0x4000
    if hr : r < 4 then
      s.setCore c { x with acc := x.acc.set r (putField x.acc[r] (8 * (o % 0x4000)) 8 b.toNat) }
    else s
  | .tile c o => putTileByte s c o b
  | _ => s

/-- The byte at a physical address. -/
def physByte (s : State) (pa : Nat) : Byte := homeByte s (physHome s pa)

def putPhysByte (s : State) (pa : Nat) (b : Byte) : State := putHomeByte s (physHome s pa) b

/-- The `n` bytes from a physical address. -/
def physBytes (s : State) (pa : Nat) : Nat → List Byte
  | 0 => []
  | n + 1 => physByte s pa :: physBytes s (pa + 1) n

/-- Write bytes from a physical address. -/
def putPhysBytes (s : State) (pa : Nat) : List Byte → State
  | [] => s
  | b :: t => putPhysBytes (putPhysByte s pa b) (pa + 1) t

/-- The `n`-byte number at a physical address. -/
def physRead (s : State) (pa n : Nat) : Nat := ofBytes (physBytes s pa n)

/-- Whether any unit that holds one of the `n` bytes from `pa` cannot be corrected (07 R201); of a peer's line, its
answer says so. -/
def uncorrectable (s : State) (pa : Nat) (n : Nat) : Bool :=
  (!s.bad.isEmpty && (List.range n).any fun i => s.bad.contains (unitOf (homeKey s (pa + i)))) ||
    (decide (2 ^ 50 ≤ pa) && s.podReply s.asker pa == some .bad)

/-- A write of `n` bytes replaces the units that it covers whole (07 R201). -/
def replaceUnits (s : State) (pa n : Nat) : State :=
  if s.bad.isEmpty then s else
  { s with bad := s.bad.filter fun u =>
      !((List.range (unitSize u)).all fun j =>
        (List.range n).any fun i => homeKey s (pa + i) == u + j) }

/-! ## Monitors (04 R132) -/

/-- A write to lines of memory marks the monitors armed on them seen, but for that of the hart `by_`. -/
def markSeen (s : State) (lines : List Nat) (by_ : Option Nat) : State :=
  { s with harts := s.harts.map fun (k, h) =>
      match h.monitor with
      | some m => if lines.contains m.line && some k != by_ then (k, { h with monitor := some { m with seen := true } })
                  else (k, h)
      | none => (k, h) }

/-- The lines that hold the `n` bytes from `pa`. -/
def linesOf (s : State) (pa n : Nat) : List Nat :=
  ((List.range n).map fun i => homeKey s (pa + i) / 64).eraseDups

/-- A write of bytes by an agent: the bytes, the units and the monitors. -/
def store (s : State) (pa : Nat) (bs : List Byte) (by_ : Option Nat) : State :=
  markSeen (putPhysBytes (replaceUnits s pa bs.length) pa bs) (linesOf s pa bs.length) by_

/-- A write of an `n`-byte number by the device. -/
def physWrite (s : State) (pa n v : Nat) : State := store s pa (toBytes n v) none

end Sys2Proof.Machine
end

