-- ==== Sys2Proof/Machine/Ops.lean ====
section
/-! DEFINITION. The named operations that every family shares: registers of a hart, translation (18), the checks of
an access (04 R126, 17 R385), taking a trap and returning from one (04 R114 to R120), timelines (08 R216), the
fault queue (14 R359) and the ways an instruction ends. -/
namespace Sys2Proof.Machine

abbrev Out := Host.Outcome State Fault Refusal

/-- A step of the device that may be asked for at any time: where its object's chapter has no such event in this state,
it cannot occur (00 R9) and changes nothing (04 R100). -/
def comes (s : State) (o : Option State) : Out := .next (o.getD s)

/-- The state after an outcome, if it is a next state. -/
def nextOf : Out → Option State
  | .next t => some t
  | _ => none

/-! ## Traps -/

/-- A synchronous trap about to be taken: cause, and the values for TVAL and TVAL2 (04 R118). -/
structure Trap where
  code : Nat
  v1   : Word := 0
  v2   : Word := 0
  deriving DecidableEq, Repr

/-- How an instruction ends when it does not complete. -/
inductive Stop where
  | trap (t : Trap)
  /-- A trap after part of the instruction has come about (03 R81). -/
  | trapIn (s : State) (t : Trap)
  /-- STALLED (04 R100), with what has come about so far. -/
  | stall (s : State)
  /-- WAITING (04 R100), with what has come about so far. -/
  | wait (s : State)
  /-- Waits for a peer's answer to a request (19 R416), made from a virtual address in a page of a mode. -/
  | pod (addr : Nat) (op : PodOp) (va : Word) (mode : Nat)
  /-- The device stops inside a long instruction (05 R137), with its completed elements in VSTART. -/
  | part (s : State)

def cIllegal : Nat := 1
def cUnitAbsent : Nat := 2
def cPrivilege : Nat := 3
def cMisaligned : Nat := 4
def cPageLoad : Nat := 5
def cPageStore : Nat := 6
def cPageFetch : Nat := 7
def cAccess : Nat := 8
def cVlRange : Nat := 9
def cVecAbsent : Nat := 10
def cFeEmpty : Nat := 11
def cEngineFault : Nat := 12
def cBarrierOverflow : Nat := 13
def cBarrierStale : Nat := 14
def cRankOverflow : Nat := 15
def cTileStoreFull : Nat := 16
def cSwizzle : Nat := 17
def cHeaderFormat : Nat := 18
def cUncorrectable : Nat := 19
def cTrapInstr : Nat := 20
def cPreempt : Nat := 21
def cSibling : Nat := 23
def cBarrierPageStore : Nat := 24
def cChannelFaulted : Nat := 25
def cQueueFull : Nat := 26
def cGroupScope : Nat := 27

/-- The bits of TDELEG that a write reaches: all but those of the causes that R118 marks not delegable (04 R109). -/
def delegableMask : BitVec 32 :=
  ~~~([3, 5, 6, 7, 8, 10, 21].foldl (fun a c => a ||| ((1 : BitVec 32) <<< c)) 0)

/-- Raise a trap. -/
def raise {α : Type} (code : Nat) (v1 : Word := 0) (v2 : Word := 0) : Except Stop α :=
  .error (.trap ⟨code, v1, v2⟩)

/-- Raise a trap where a condition holds. -/
def trapIf (c : Bool) (code : Nat) (v1 : Word := 0) (v2 : Word := 0) : Except Stop Unit :=
  if c then raise code v1 v2 else .ok ()

/-! ## Registers of a hart -/

/-- x[r]; x0 reads zero (04 R106). -/
def Hart.rd (h : Hart) (r : Reg) : Word := if r = 0 then 0 else h.x[r.toNat]

/-- Write x[r]; a write to x0 is discarded (04 R106). -/
def Hart.wr (h : Hart) (r : Reg) (v : Word) : Hart :=
  if r = 0 then h else { h with x := h.x.set r.toNat v }

def State.modHart (s : State) (k : Nat) (f : Hart → Hart) : State := s.setHart k (f (s.hart k))

/-- Write an x register of the hart at place `k`. -/
def State.wrX (s : State) (k : Nat) (r : Reg) (v : Word) : State := s.modHart k fun h => h.wr r v

/-- The place of a matrix sequencer (04 R109, HARTID.HART 8). -/
def isSeqPlace (k : Nat) : Bool := k % 9 == 8

/-- Whether a vector instruction's or any register write leaves VSTATE DIRTY (04 R107). -/
def Hart.dirtied (h : Hart) : Hart := { h with vstate := .dirty }

/-- The rounding mode that FRM holds (02 R49), as an arithmetic instruction uses it: SR rounds in RNE (R48). -/
def frmMode (frm : BitVec 3) : RMode :=
  match frm.toNat with | 1 => .rtz | 2 => .rdn | 3 => .rup | _ => .rne

/-- The mode of an RM field in an instruction to which SR does not apply (02 R47, R48). -/
def arithMode (frm : BitVec 3) (rm : BitVec 2) : RMode :=
  match rm.toNat with | 1 => .rtz | 3 => frmMode frm | _ => .rne

/-- The mode of an RM field in a narrowing conversion or a drain, with SRSEED and SRBASE (02 R47, R48). -/
def cvtMode (frm : BitVec 3) (rm : BitVec 2) (seed base : BitVec 32) : RMode :=
  match rm.toNat with
  | 1 => .rtz
  | 2 => .sr seed base
  | 3 => if frm = 4 then .sr seed base else frmMode frm
  | _ => .rne

/-! ## Taking a trap (04 R114 to R116) -/

/-- A cause is delegated (04 R115). -/
def delegated (h : Hart) (code : Nat) : Bool :=
  !h.tstat.prv && h.tdeleg.getLsbD code && h.tstat.uie

/-- The cause as TCAUSE holds it. -/
def causeWord (code : Nat) (async : Bool) : Word := BitVec.ofNat 64 (code + if async then 256 else 0)

/-- A VEXTA that waited for its accumulator stops: its register is full again (05 R155). -/
def Hart.undrained (h : Hart) : BitVec 32 :=
  match h.draining with
  | some r => h.full ||| ((1 : BitVec 32) <<< r)
  | none => h.full

/-- Trap entry (04 R116): which level's copies are written, what TSTAT becomes and where the pc goes. The monitor
is disarmed, a convoy in progress is left with VSTART at its stop, and ENGINE_FAULT also writes ENGFAULT (R119). -/
def Hart.trapEntry (h : Hart) (code : Nat) (v1 v2 resume : Word) (async : Bool) : Hart :=
  let h := { h with monitor := none, slots := [], life := .ready, waitFor := none,
                    latched := none, owed := false, full := h.undrained, draining := none,
                    vstate := if h.slots ≠ [] ∧ h.vstate ≠ .off ∧ (h.elem ≠ 0 ∨ h.slot ≠ 0) then .dirty else h.vstate,
                    traps := if async then h.traps else h.traps + 1,
                    engfault := if code = cEngineFault
                      then (v2 <<< 16) ||| (v1 &&& 0xFFFF) else h.engfault }
  if delegated h code then
    { h with u := { h.u with tepc := resume, tcause := causeWord code async, tval := v1, tval2 := v2 },
             tstat := { h.tstat with upie := h.tstat.uie, uie := false },
             pc := h.u.tvec }
  else
    { h with s := { h.s with tepc := resume, tcause := causeWord code async, tval := v1, tval2 := v2 },
             tstat := { h.tstat with pprv := h.tstat.prv, pie := h.tstat.ie, ie := false, prv := true },
             pc := h.s.tvec,
             entering := some (causeWord code async, resume) }

/-- A sequencer keeps the slot at which a trap stops its convoy until a RETT to its header: R108 gives it no VSTART, and
the convoys of its handler begin at slot 0 (03 R81; DEDUCED, log 60). -/
def Hart.leaveSlot (h : Hart) (k : Nat) (resume : Word) : Hart :=
  let seq := isSeqPlace k
  { h with slot := if seq then 0 else h.slot,
           stops := if seq then h.stops.filter (·.1 != resume) ++ (if h.slot = 0 then [] else [(resume, h.slot)]) else h.stops }

/-- A sequencer returns to a convoy at the slot at which it stopped (DEDUCED, log 60). -/
def Hart.regainSlot (h : Hart) (k : Nat) : Hart :=
  let seq := isSeqPlace k
  { h with slot := if seq then ((h.stops.find? fun p => p.1 == h.pc).map (·.2)).getD 0 else h.slot,
           stops := if seq then h.stops.filter (·.1 != h.pc) else h.stops }

/-- Return from a trap (04 R130): clears the monitor, restores level and enables, and goes to TEPC. -/
def Hart.trapReturn (h : Hart) : Hart :=
  if h.tstat.prv then
    { h with monitor := none, pc := h.s.tepc,
             tstat := { h.tstat with prv := h.tstat.pprv, ie := h.tstat.pie } }
  else
    { h with monitor := none, pc := h.u.tepc, tstat := { h.tstat with uie := h.tstat.upie } }

/-- The order of each accumulator without the hart or sequencer at place `k` (12 R314). -/
def State.leaveOrders (s : State) (k : Nat) : State :=
  let c := s.core (k / 9)
  if c.accQ.any fun q => q.contains k then
    s.setCore (k / 9) { c with accQ := c.accQ.map fun q => q.filter (· != k) }
  else s

/-- The name of a request whose agent no longer waits for it. -/
def orphan : Nat := 2

/-- An agent leaves what it has asked peers for. A request that is still to be performed stays until it is. -/
def State.leaveAsks (s : State) (who : Nat) : State :=
  if s.pod.any fun p => p.by_ == who then
    { s with pod := s.pod.filterMap fun p =>
        if p.by_ = who then (if p.answer.isNone then some { p with by_ := orphan } else none) else some p }
  else s

/-- A hart leaves what it has asked peers for: its instruction has trapped, or it leaves its place. -/
def State.leavePods (s : State) (k : Nat) : State := s.leaveAsks (4 * k)

/-- The device runtime is being committed: traps to S wait, and U code runs (20 R427). -/
def State.runtimePaused (s : State) : Bool := s.svc.fwbusy && s.svc.fwcmd == 1 && s.svc.fwcomp == 3

/-- A trap with this cause at place `k` waits for the device runtime (20 R427), or for the word that a sequencer has on
the array (12 R311). -/
def State.trapWaits (s : State) (k code : Nat) : Bool :=
  (s.runtimePaused && !delegated (s.hart k) code) || (isSeqPlace k && (s.core (k / 9)).job.isSome)

/-- The synchronous trap `t` at place `k`: the resume address is the instruction, or the header of its convoy,
where the pc stands (04 R114). One that has to wait leaves the instruction to be tried again. -/
def State.takeTrap (s : State) (k : Nat) (t : Trap) : State :=
  if s.trapWaits k t.code then
    s.modHart k fun h => { h with life := if h.life = .waiting then .waiting else .stalled }
  else ((s.leavePods k).leaveOrders k).modHart k fun h => (h.trapEntry t.code t.v1 t.v2 h.pc false).leaveSlot k h.pc

/-! ## How an instruction ends -/

/-- A scalar instruction completes: INSTRET counts one (04 R111) and the pc is at `pc`. -/
def State.retire (s : State) (k : Nat) (pc : Word) : State :=
  s.modHart k fun h => { h with pc := pc, instret := h.instret + 1, life := .ready, waitFor := none, latched := none }

def State.setLife (s : State) (k : Nat) (l : Life) : State := s.modHart k fun h => { h with life := l }

/-- The port that takes a new request to a peer (19 R417). -/
def portTo (s : State) (q : Nat) : Option Nat :=
  s.ulports.findSome? fun p =>
    if (p.2.state = .active ∨ p.2.state = .degraded) ∧ p.2.peer.toNat = q then some p.1 else none

/-- The peer that a pod-global address names (19 R416). -/
def podPeer (pa : Nat) : Nat := (pa - 2 ^ 50) / 2 ^ 40

/-- A port sends a flit, and holds it until the partner acknowledges it (19 R413). -/
def sendFlit (s : State) (n : Nat) : State :=
  let p := s.ulports.getD n {}
  let f : Flit := { seq := p.next, ack := p.seq, slots := (Config.flitSlots s.free n).zeroExtend 3,
                    lines := Config.flitLines s.free n, msg := Config.flitMsg s.free n, crc := 0 }
  { s with ulports := s.ulports.set n { p with next := p.next + 1, replay := p.replay ++ [{ f with crc := Config.crc64 f.covered }] },
           free := s.free + 1 }

/-- An agent sends a request to a peer, unless it has sent it (19 R416, R417). -/
def State.askPod (s : State) (who addr : Nat) (op : PodOp) (va : Word := 0) (mode : Nat := 0) : State :=
  if s.pod.any (fun p => p.by_ == who && p.addr == addr && p.op == op && p.va == va) then s
  else
    let n := (portTo s (podPeer addr)).getD 0
    sendFlit { s with pod := s.pod ++ [{ addr := addr, by_ := who, op := op, va := va, mode := mode, port := n }] } n

/-- What a stop does to the state in which the instruction began. -/
def State.stop (s : State) (k : Nat) (r : Stop) : State :=
  match r with
  | .trap t => s.takeTrap k t
  | .trapIn s' t => s'.takeTrap k t
  | .stall s' => s'.setLife k .stalled
  | .wait s' => s'.setLife k .waiting
  | .pod a op va m => (s.askPod (4 * k) a op va m).setLife k .waiting
  | .part s' => s'.setLife k .issuing

/-- The end of a scalar instruction at place `k`: the next pc is the result's. -/
def finishAt (s : State) (k : Nat) (r : Except Stop (State × Word)) : Out :=
  match r with
  | .ok (s', pc) => .next (s'.retire k pc)
  | .error e => .next (s.stop k e)

/-- An instruction of a hart or sequencer that goes on at the next parcel. -/
def scalarOp (s : State) (f : Nat → Hart → Except Stop State) : Out :=
  match s.cur with
  | some (.hart k) =>
    let h := s.hart k
    finishAt s k ((f k h).map fun s' => (s', h.pc + 4))
  | _ => .fault .noAgent

/-- An instruction of a hart or sequencer that chooses the next pc. -/
def jumpOp (s : State) (f : Nat → Hart → Except Stop (State × Word)) : Out :=
  match s.cur with
  | some (.hart k) => finishAt s k (f k (s.hart k))
  | _ => .fault .noAgent

/-- An instruction that only writes x[d], from the registers of the hart (OPR and the immediates, 04 R121). -/
def writeOp (s : State) (d : Reg) (f : Hart → Word) : Out :=
  scalarOp s fun k h => .ok (s.wrX k d (f h))

/-! ## Device-side access by physical address, and timelines -/

/-- Timeline (08 R216): advance the watermark over an unbroken run of ended numbers. The fuel bounds the run. -/
def Timeline.advanceGo : Nat → Timeline → Timeline
  | 0, t => t
  | n + 1, t =>
    if t.ended.contains (t.mark + 1) then
      Timeline.advanceGo n { t with mark := t.mark + 1, ended := t.ended.filter (· != t.mark + 1) }
    else t

def Timeline.advance (t : Timeline) : Timeline := Timeline.advanceGo (t.ended.length + 1) t

/-- Number `n` completes or is skipped. -/
def Timeline.endNum (t : Timeline) (n : Nat) : Timeline :=
  ({ t with ended := insertNat t.ended n, faulted := t.faulted.filter (· != n) } : Timeline).advance

/-- Number `n` faults. -/
def Timeline.fault (t : Timeline) (n : Nat) : Timeline := { t with faulted := insertNat t.faulted n }

/-- Outstanding operations: assigned, above the watermark, neither ended nor faulted (08 R214). -/
def Timeline.outstanding (t : Timeline) : Nat := t.last - t.mark - t.ended.length - t.faulted.length

/-- The state of a context, also in its descriptor (14 R346, STATE). -/
def CtxState.code : CtxState → Nat
  | .created => 0 | .runnable => 1 | .resident => 2 | .suspended => 3 | .faulted => 4 | .lost => 5 | .destroyed => 6

def QueueState.code : QueueState → Nat
  | .disabled => 0 | .active => 1 | .halted => 2

/-- Set the state of a queue, also in its descriptor (15 R363). -/
def setQueueState (s : State) (c q : Nat) (x : QueueState) : State :=
  match s.ctxs.get? c with
  | none => s
  | some cx => match cx.queues.get? q with
    | none => s
    | some qu =>
      let s := physWrite s (qu.desc + 4) 1
        (putBits (physRead s (qu.desc + 4) 1) 4 2 x.code)
      match s.ctxs.get? c with
      | none => s
      | some cx => s.setCtx c { cx with queues := cx.queues.set q { qu with state := x } }

/-- Set the state of a context: its descriptor follows, its ACTIVE queues become HALTED when it is SUSPENDED,
FAULTED or LOST, HALTED ones ACTIVE when it is RUNNABLE or RESIDENT again, and all DISABLED when it is DESTROYED
(14 R347, 15 R364). -/
def setCtxState (s : State) (c : Nat) (x : CtxState) : State :=
  match s.ctxs.get? c with
  | none => s
  | some cx =>
    let s := s.setCtx c { cx with state := x }
    let s := physWrite s (cx.desc + 2) 1 (putBits (physRead s (cx.desc + 2) 1) 0 3 x.code)
    cx.queues.foldl (fun s (q, qu) =>
      match x, qu.state with
      | .suspended, .active => setQueueState s c q .halted
      | .faulted, .active => setQueueState s c q .halted
      | .lost, .active => setQueueState s c q .halted
      | .runnable, .halted => setQueueState s c q .active
      | .resident, .halted => setQueueState s c q .active
      | .destroyed, .active => setQueueState s c q .disabled
      | .destroyed, .halted => setQueueState s c q .disabled
      | _, _ => s) s

/-- A word of the MSI-X table: at reset every vector is masked (PRESUMED, log 49). -/
def HostRegs.msixWord (h : HostRegs) (i : Nat) : Word := h.msix.getD i (if i % 2 = 1 then 0x1_0000_0000 else 0)

/-- The mask bit of an entry of the MSI-X table (PRESUMED, log 49). -/
def HostRegs.masked (h : HostRegs) (v : Nat) : Bool := (h.msixWord (2 * v + 1)).getLsbD 32

/-- Raise an MSI-X vector (19 R409); a masked one is pending. -/
def raiseVector (s : State) (v : Nat) : State :=
  { s with raised := s.raised.set v (s.raised.getD v 0 + 1),
           host := if s.host.masked v then { s.host with pending := s.host.pending ||| ((1 : BitVec 8) <<< v) } else s.host }

/-- The fault queue of a context: its base, size, read and write index and drop count (14 R346, R359). -/
def fqBase (cx : Context) : Nat := cx.desc - cx.desc % 4096 + 4096

/-- Write a record to a context's fault queue, of 32-byte units (14 R359): dropped when it does not fit, and then
the context becomes FAULTED (R347). -/
def faultRecord (s : State) (c : Nat) (bytes : List Byte) : State :=
  match s.ctxs.get? c with
  | none => s
  | some cx =>
    let rd := physRead s (cx.desc + 0x30) 4
    let wr := physRead s (cx.desc + 0x34) 4
    let units := bytes.length / 32
    let free := (rd + 2 * cx.fqsize - wr - 1) % cx.fqsize
    if units ≤ free then
      let s := (List.range units).foldl (fun s i =>
        store s (fqBase cx + 32 * ((wr + i) % cx.fqsize)) ((bytes.drop (32 * i)).take 32) none) s
      let s := physWrite s (cx.desc + 0x34) 4 ((wr + units) % cx.fqsize)
      let s := s.setCtx c { cx with fqTotal := cx.fqTotal + units }
      if rd = wr then raiseVector s 2 else s
    else
      let drop := physRead s (cx.desc + 0x2C) 4
      let s := physWrite s (cx.desc + 0x2C) 4 (min (drop + 1) (2 ^ 32 - 1))
      match cx.state with
      | .runnable => setCtxState s c .faulted
      | .resident => setCtxState s c .faulted
      | .suspended => setCtxState s c .faulted
      | _ => s

/-- A record of four 64-bit words. -/
def record4 (a b c d : Nat) : List Byte := toBytes 8 a ++ toBytes 8 b ++ toBytes 8 c ++ toBytes 8 d

/-! ## Translation (18 R393 to R398) -/

/-- The kind of an access (18 R398). -/
inductive Acc where
  | load | store | atomic | fetch | barWrite | barRead
  deriving DecidableEq, Repr

def Acc.pageFault : Acc → Nat
  | .load => cPageLoad | .barRead => cPageLoad | .fetch => cPageFetch | _ => cPageStore

/-- A translated address (18 R394): where its page leads, its mode, and whether it is counted. -/
structure Leaf where
  pa   : Nat
  mode : Nat
  cnt  : Bool
  slot : Bool
  deriving DecidableEq, Repr

/-- The index of `va` at a table level, and the page shift of a leaf there (18 R393). -/
def levelIndex (level va : Nat) : Nat :=
  match level with
  | 4 => bitsAt va 42 15 | 3 => bitsAt va 36 6 | 2 => bitsAt va 30 6 | 1 => bitsAt va 22 8 | _ => bitsAt va 16 6

def pageShift (level : Nat) : Nat :=
  match level with | 3 => 36 | 2 => 30 | 1 => 22 | _ => 16

/-- Every byte of [base, base + size) lies in [lo, hi). -/
def within (base size lo hi : Nat) : Bool := decide (lo ≤ base) && decide (base + size ≤ hi)

/-- A well-formed leaf at a level (18 R394, R395, R397). -/
def leafOk (level pte : Nat) : Bool :=
  let base := bitsAt pte 16 36 * 2 ^ 16
  let size := 2 ^ pageShift level
  let mode := bitsAt pte 6 2
  let tier := bitsAt pte 8 2
  let slot := bitsAt pte 11 1
  let tiered := match tier with
    | 1 => within base size (2 ^ 48) (2 ^ 50)
    | 2 => within base size (2 ^ 50) (2 ^ 52)
    | _ => false
  bitsAt pte 12 4 == 0 && bitsAt pte 52 12 == 0 && base % size == 0 && (slot == 0 || mode == 2) &&
    (match mode with
     | 0 => if tier = 0 then within base size 0 (2 ^ 47) else tiered
     | 1 => tier == 0 && within base size (2 ^ 47) (2 ^ 47 + 2 ^ 40)
     | 2 => tier == 0 && within base size windowBase 0x7F02_0000_0000 && decide (level ≤ 1) &&
         (slot == 0 || bitsAt pte 26 7 == 0)
     | _ => level == 0 &&
         (if tier = 0 then within base size 0 (2 ^ 40) || within base size (2 ^ 47) (2 ^ 47 + 2 ^ 40) else tiered))

/-- The permissions of a leaf for an access at a level (18 R398). -/
def leafAllows (pte : Nat) (k : Acc) (prv : Bool) : Bool :=
  let r := bitsAt pte 2 1 == 1
  let w := bitsAt pte 3 1 == 1
  let x := bitsAt pte 4 1 == 1
  (prv || bitsAt pte 5 1 == 1) &&
    (match k with
     | .load => r | .barRead => r | .store => w | .barWrite => w | .atomic => r && w | .fetch => x)

/-- Whether the walker can read the entry at a physical address (18 R396). -/
def pteReadable (s : State) (e : Nat) : Bool :=
  (match physHome s e with
   | .mem _ => true | .towerReg _ _ => true | .cap _ => true | _ => false) && !uncorrectable s e 8

/-- The walk from a table at a level (18 R396): the leaf, or the cause of the fault. -/
def walkFrom (s : State) (va : Nat) (k : Acc) (prv : Bool) : Nat → Nat → Except Nat Leaf
  | level, table =>
    let e := table + 8 * levelIndex level va
    if !pteReadable s e then .error cAccess
    else
      let pte := physRead s e 8
      if bitsAt pte 0 1 = 0 then .error k.pageFault
      else if bitsAt pte 1 1 = 1 then
        if level = 4 ∨ leafOk level pte = false ∨ leafAllows pte k prv = false then .error k.pageFault
        else .ok ⟨bitsAt pte 16 36 * 2 ^ 16 + va % 2 ^ pageShift level, bitsAt pte 6 2,
          bitsAt pte 10 1 == 1, bitsAt pte 11 1 == 1⟩
      else if bitsAt pte 2 7 ≠ 0 ∨ bitsAt pte 52 12 ≠ 0 then .error k.pageFault
      else
        match level with
        | 0 => .error k.pageFault
        | l + 1 => walkFrom s va k prv l (bitsAt pte 9 43 * 512)

/-- The translation of an address for a context. -/
def walk (s : State) (c : Nat) (va : Nat) (k : Acc) (prv : Bool) : Except Nat Leaf :=
  match s.ctxs.get? c with
  | none => .error cAccess
  | some cx => walkFrom s va k prv 4 cx.ptroot

/-- Resolve a window page that names a hosting-core slot (18 R397, 17 R386), for a group; none when the slot has
no hosting core. -/
def resolveSlot (s : State) (g : Nat) (l : Leaf) : Option Nat :=
  if l.slot then
    match s.groups.get? g with
    | none => none
    | some grp =>
      match grp.cores[bitsAt l.pa 24 2]? with
      | none => none
      | some c => some (coreBase c + l.pa % 2 ^ 24)
  else some l.pa

/-! ## A hart's access -/

/-- The kernel-record fields read here (16 R373). -/
def recField (k : Kernel) (off lo n : Nat) : Nat := bitsAt k.record.toNat (8 * off + lo) n

/-- SPAD of a kernel. -/
def Kernel.spad (k : Kernel) : Nat := recField k 0 32 20

/-- A path leads to the peer of a pod-global address (19 R417). -/
def podReach (s : State) (pa : Nat) : Bool := (portTo s (podPeer pa)).isSome

/-- The physical checks of a hart's access of `n` bytes (04 R126: R18, R22, R25, the sibling window, barrier
pages): none when it may be performed, else the cause. An atomic finds a barrier page before an address that is not
mapped (07 R203). -/
def hartPhysFault (s : State) (h : Hart) (mode pa n : Nat) (k : Acc) : Option Nat :=
  if mode = 3 ∧ k = .atomic ∧ isRowZero pa = false then some cBarrierPageStore
  else
  let writes := k == .store || k == .atomic || k == .barWrite
  let c := (pa - windowBase) / 0x100_0000
  let owned (g : Nat) : Bool := match s.groups.get? g with
    | some x => (match s.kernels.get? x.kernel with | some kk => kk.ctx == s.ctxOf h | none => false)
    | none => false
  match physHome s pa with
  | .none => some cAccess
  | .ingress _ _ => some cAccess
  | .mem _ =>
    if windowBase ≤ pa ∧ pa < 0x7F02_0000_0000 then
      match s.heldBy c with
      | none => some cAccess
      | some g =>
        if k = .fetch then some cAccess
        else if g = h.group then
          match s.groupOf h with
          | some (_, kk) => if kk.spad < pa % 0x100_0000 + n then some cAccess else none
          | none => some cAccess
        else if owned g then some cSibling else some cAccess
    else if writes && isRowZero pa then some cAccess
    else if mode = 3 ∧ k = .store then some cBarrierPageStore
    else none
  | .vreg _ _ | .acc _ _ | .tile _ _ =>
    match s.heldBy c with
    | some g => if h.tstat.prv && owned g && k != .atomic && k != .fetch then none else some cAccess
    | none => some cAccess
  | .towerReg _ o =>
    if writes || !(decide (o + n ≤ 16) || (decide (0x100 ≤ o) && decide (o + n ≤ 0x180))) then some cAccess else none
  | .cap _ => if writes then some cAccess else none
  | .pod _ => if podReach s pa = false then some cAccess
    else if mode = 3 ∧ k = .store then some cBarrierPageStore else none

/-- A peer's answer to a request of an agent: whether it maps the address; none while it has not come. -/
def podAnswerTo (s : State) (who pa : Nat) (op : PodOp) : Option Bool :=
  (s.pod.find? fun p => p.by_ == who && p.addr == pa && p.op == op).bind fun p => p.answer.map (· != .unmapped)

/-- An agent has done with what it asked about a line. -/
def podDone (s : State) (who pa : Nat) : State :=
  if pa < 2 ^ 50 then s else { s with pod := s.pod.filter fun p => !(p.by_ == who && p.addr / 64 == pa / 64) }

/-- An agent has done with one answer. -/
def podTaken (s : State) (who pa : Nat) (op : PodOp) : State :=
  if pa < 2 ^ 50 then s else { s with pod := s.pod.filter fun p => !(p.by_ == who && p.addr == pa && p.op == op) }

/-- The hart whose turn it is has used an answer. -/
def podUsed (s : State) (pa : Nat) : State := podDone s s.asker pa

/-- What the hart whose turn it is has asked a peer from a virtual address. -/
def State.asked (s : State) (va : Word) (op : PodOp) : Option PodLine :=
  s.pod.find? fun p => p.by_ == s.asker && p.va == va && p.op == op

/-- Translate and check a hart's access of `n` bytes at `va` (04 R126, 06 R161 from step 2): the leaf with its
physical address resolved. `idx` is the faulting element (R118), and `op` what a peer that is the home is asked. Once
asked it is not translated again: the peer performs the access (19 R416). -/
def hartAddr (s : State) (h : Hart) (va : Word) (n : Nat) (k : Acc) (idx : Nat) (op : PodOp := .read n) :
    Except Stop Leaf :=
  let e (c : Nat) : Except Stop Leaf := raise c va (BitVec.ofNat 64 idx)
  match s.asked va op with
  | some p =>
    match p.answer with
    | none => .error (.pod p.addr op va p.mode)
    | some .unmapped => e cAccess
    | some _ => .ok ⟨p.addr, p.mode, false, false⟩
  | none =>
    if va.toNat / 2 ^ 57 ≠ 0 then e cAccess
    else
      match walk s (s.ctxOf h) va.toNat k h.tstat.prv with
      | .error c => e c
      | .ok l =>
        match resolveSlot s h.group l with
        | none => e cSibling
        | some pa =>
          match hartPhysFault s h l.mode pa n k with
          | some c => e c
          | none => if 2 ^ 50 ≤ pa then .error (.pod pa op va l.mode) else .ok { l with pa := pa }

/-- The WAITE monitor armed on the line of a byte (04 R132). -/
def State.arm (s : State) (k : Nat) (pa : Nat) : State :=
  let line := homeKey s pa / 64
  s.modHart k fun h => { h with monitor := some ⟨line, false⟩ }

/-! ## Access counters (18 R401, R402) -/

/-- The frame of a byte has a counter: those of tower DRAM and of the CXL tier (18 R401). -/
def counterAt (s : State) (pa : Nat) : Bool :=
  match physHome s pa with
  | .mem _ => !(decide (windowBase ≤ pa) && decide (pa < 0x7F02_0000_0000))
  | _ => false

/-- A counted line request increments the counter of its frame, and may write an event. -/
def countFrame (s : State) (pa : Nat) : State :=
  if s.host.acen = false ∨ counterAt s pa = false then s
  else
    let f := pa / 2 ^ 16
    let old := s.counters.getD f 0
    let new := if old = 0xFFFF then old else old + 1
    let s := { s with counters := s.counters.set f new }
    if new = s.host.thresh ∧ s.host.thresh ≠ 0 ∧ new ≠ old then
      let n := 2 ^ (min (max s.host.log2n.toNat 8) 20)
      let rd := s.host.acRd.toNat
      let wr := s.host.acWr.toNat
      if 0 < (rd + n - wr % n - 1) % n then
        let s := physWrite s (s.host.ringBase.toNat * 2 ^ 12 + 8 * (wr % n)) 8 (new.toNat + f * 2 ^ 16)
        let s := { s with host := { s.host with acWr := BitVec.ofNat 32 ((wr + 1) % n) } }
        if rd = wr then raiseVector s 1 else s
      else { s with host := { s.host with drops := if s.host.drops = 0xFFFF_FFFF then s.host.drops else s.host.drops + 1 } }
    else s

/-- A hart's access through a counted leaf: whether it missed in every L2 is not architectural (18 R401), a free
value. -/
def countHart (s : State) (l : Leaf) : State :=
  if l.cnt && s.host.acen then
    let s' := { s with free := s.free + 1 }
    if Config.missedL2 s.free (l.pa / 64) then countFrame s' l.pa else s'
  else s

/-! ## Reads and writes by a hart -/

/-- A load of `n` bytes at `va`: the bytes, and where they lie. -/
def hartLoad (s : State) (h : Hart) (va : Word) (n : Nat) (k : Acc) (idx : Nat) (op : PodOp := .read n) :
    Except Stop (Leaf × Nat) :=
  match hartAddr s h va n k idx op with
  | .error e => .error e
  | .ok l =>
    if uncorrectable s l.pa n then raise cUncorrectable va (BitVec.ofNat 64 idx)
    else .ok (l, physRead s l.pa n)

/-- The store of a hart that has passed its checks. The hart's own monitor stays as it is for a scalar store
(04 R132, log 9). -/
def hartStore (s : State) (k : Nat) (l : Leaf) (bytes : List Byte) (own : Bool) : State :=
  podUsed (store (countHart s l) l.pa bytes (if own then none else some k)) l.pa

/-! ## Members leaving -/

/-- A context's last bound member has gone (14 R347): RESIDENT becomes RUNNABLE, or SUSPENDED in a power emergency, with
every record committed (R358). -/
def settleCtx (s : State) (c : Nat) : State :=
  match s.ctxs.get? c with
  | some cx =>
    if cx.state = .resident then
      let bound := s.groups.any fun (_, g) =>
        (match s.kernels.get? g.kernel with | some k => k.ctx == c | none => false) &&
          g.members.any fun (_, m) => match m.at_ with | .place _ => true | _ => false
      let streams := s.streams.any fun (_, st) =>
        (match s.kernels.get? st.kernel with | some k => k.ctx == c | none => false) &&
          (st.state == .running || st.state == .waiting || st.state == .handler || st.state == .suspended)
      if bound || streams then s else setCtxState s c (if s.svc.emergency then .suspended else .runnable)
    else s
  | none => s

/-- The number under which a group holds the hart or sequencer at a place. -/
def memberNo (g : Group) (k : Nat) (h : Hart) : Nat :=
  if isSeqPlace k then 64 + (g.cores.findIdx? (· == k / 9)).getD 0 else h.index

/-- The slot of a member of a group with `per` harts per core (17 R380, R382). -/
def Member.slotOf (m : Member) (n per : Nat) : Nat := m.slot.getD (if 64 ≤ n then n - 64 else n / per)

def setMember (s : State) (gid n : Nat) (m : Member) : State :=
  match s.groups.get? gid with
  | none => s
  | some g => s.setGroup gid { g with members := g.members.set n m }

/-- Records of a context's park region are no longer in use (14 R352). -/
def parkFree (s : State) (c : Nat) (offs : List Nat) : State :=
  match s.ctxs.get? c with
  | some cx => s.setCtx c { cx with park := cx.park.filter fun p => !offs.contains p.1 }
  | none => s

/-- A core that its group leaves: its tile registers are EMPTY (12 R320), and no matrix word is in progress. -/
def Core.cleared (x : Core) : Core :=
  { x with tile := Vector.replicate 16 .empty, grans := Vector.replicate 16 [], store := [], job := none,
           accQ := Vector.replicate 4 [] }

/-- What a member keeps of a sequencer's watermark when it leaves its place: it never decreases (12 R312). -/
def State.finOf (s : State) (m : Member) : Nat :=
  match m.at_ with | .place k => (s.hart k).finMark | _ => m.fin

/-- The group ends (17 R383): its members are RETIRED, every place of its cores is FREE again, and its tile
registers are EMPTY (12 R320); its park records are given back. -/
def endGroup (s : State) (gid : Nat) : State :=
  match s.groups.get? gid with
  | none => s
  | some g =>
    let members := g.members.map fun (i, m) => (i, { m with at_ := .retired, parkAt := none, fin := s.finOf m })
    let s := (g.cores ++ g.placing.map (fun (p : Nat × Nat) => p.2)).foldl (fun s c =>
      let s := s.setCore c (s.core c).cleared
      (List.range 9).foldl (fun s i =>
        if (s.hart (9 * c + i)).group = gid ∧ (s.hart (9 * c + i)).life ≠ .free then
          (s.leavePods (9 * c + i)).setHart (9 * c + i) {} else s) s) s
    let s := match s.kernels.get? g.kernel with
      | some k => parkFree s k.ctx (g.members.filterMap (fun (p : Nat × Member) => p.2.parkAt) ++ g.records.map (fun (p : Nat × Nat) => p.2))
      | none => s
    s.setGroup gid { g with state := .ended, cores := [], placing := [], records := [], written := [], bad := [],
                            members := members }

/-- NLEVEL of a record (16 R373). -/
def Kernel.levels (k : Kernel) : Nat := recField k 0 5 3
def Kernel.bound (k : Kernel) (j : Nat) : Nat := recField k (0x20 + 8 * j) 0 32
def Kernel.step (k : Kernel) (j : Nat) : Nat := recField k (0x20 + 8 * j) 32 32
def Kernel.count (k : Kernel) (j : Nat) : Nat := (k.bound j + k.step j - 1) / k.step j
/-- The number of tiles (16 R375); a bank kernel, which has no levels, is placed whole as one (log 33). -/
def Kernel.tiles (k : Kernel) : Nat := (List.range k.levels).foldl (fun t j => t * k.count j) 1
def Kernel.isBank (k : Kernel) : Bool := recField k 0 0 1 == 1
def Kernel.coside (k : Kernel) : Bool := recField k 0 1 1 == 1
def Kernel.replay (k : Kernel) : Bool := recField k 0 2 1 == 1
def Kernel.order (k : Kernel) : Nat := recField k 0 3 2
def Kernel.gsize (k : Kernel) : Nat := recField k 0 8 6
def Kernel.vlen (k : Kernel) : Nat := 1024 * 2 ^ recField k 0 14 3
def Kernel.entry (k : Kernel) : Nat := recField k 8 0 64
def Kernel.seqEntry (k : Kernel) : Nat := recField k 0x10 0 64
def Kernel.arg (k : Kernel) : Nat := recField k 0x18 0 64
/-- The kernel handle, kind 4 (16 R377); a queue numbered 4,096 or more has an index that does not fit (R374). -/
def Kernel.handle (k : Kernel) : Nat := 0x4000 + k.queue % 4096

/-- Update a queue's timeline. -/
def modQueueLine (s : State) (c q : Nat) (f : Timeline → Timeline) : State :=
  match s.ctxs.get? c with
  | none => s
  | some cx => match cx.queues.get? q with
    | none => s
    | some qu => s.setCtx c { cx with queues := cx.queues.set q { qu with line := f qu.line } }

/-- A WAITE of the context's harts may wake at any time (04 R132); HART_WAKE shows it. -/
def kind10 (k : Kernel) (reason tile core : Nat) : List Byte :=
  record4 (10 + k.ctx * 2 ^ 16 + k.handle * 2 ^ 32 + reason * 2 ^ 48) k.num (tile + core * 2 ^ 32) 0

end Sys2Proof.Machine
end

