-- ==== Sys2Proof/Machine/Flight.lean ====
section
/-! DEFINITION. Registers in flight (05 R139): stream registers and the SRD instructions that wait on them (06 R175,
R176), gathers (R168, R169), and what a later instruction must wait for. -/
namespace Sys2Proof.Machine

/-- The width of what moves as one: an element, or a whole block (05 R152). -/
def unitBits (t : Nat) : Nat := if Ty.isBfp t then 8 * Ty.bfpBytes t else Ty.width t

/-- How many units hold `n` elements. -/
def unitsOf (t n : Nat) : Nat := if Ty.isBfp t then n / 32 else n

/-- A BFP destination: bytes from the end of the last whole block are zero (02 R46). -/
def bfpTrim (grant t : Nat) (v : BitVec 16384) : BitVec 16384 :=
  let used := 8 * (Ty.bfpBytes t * (grant / 8 / Ty.bfpBytes t))
  (putField v used (grant - used) 0)

/-- The destination of a long-latency producer is empty from its issue on (05 R139). -/
def Hart.emptied (h : Hart) (r : Nat) : Hart := { h with full := h.full &&& ~~~((1 : BitVec 32) <<< r) }

/-- A value lands in a v register after its instruction has issued (04 R107). -/
def Hart.landV (h : Hart) (r : Nat) (v : BitVec 16384) : Hart := Hart.noteV { h with v := h.v.setIfInBounds r v } r

/-- The register is full. -/
def Hart.filled (h : Hart) (r : Nat) : Hart := { h with full := h.full ||| ((1 : BitVec 32) <<< r) }

/-! ## Stream registers -/

def StrmState.code : StrmState → Nat | .unbound => 0 | .bound => 1 | .ended => 2 | .faulted => 3

def Hart.strm (h : Hart) (n : Nat) : StreamReg := h.st[n % 4]'(Nat.mod_lt _ (by decide))
def Hart.putStrm (h : Hart) (n : Nat) (r : StreamReg) : Hart :=
  { h with st := h.st.set (n % 4) r (Nat.mod_lt _ (by decide)) }

/-- AVAIL of a stream register, in elements (06 R177). -/
def StreamReg.avail (r : StreamReg) : Nat := if Ty.isBfp r.fmt.toNat then 32 * r.elems.length else r.elems.length

/-- Elements, or blocks, taken from a stream register: ENDED with none left becomes UNBOUND (06 R175). -/
def StreamReg.take (r : StreamReg) (n : Nat) : StreamReg :=
  let r := { r with elems := r.elems.drop n }
  if r.state = .ended ∧ r.elems = [] then {} else r

/-- A pending SRD takes what has landed (06 R176): the hart with the elements in vd, and what is left to do. At vl,
or when nothing more can come, the rest is zero, FFI.INDEX counts the elements delivered unless a later instruction
has written it, and vd is full. -/
def StreamRead.advance (h : Hart) (x : StreamRead) : Hart × Option StreamRead :=
  let r := h.strm x.strm
  let b := unitBits x.ty
  let per := if Ty.isBfp x.ty then 32 else 1
  let i0 := unitsOf x.ty x.done
  let m := min (unitsOf x.ty x.vl - i0) r.elems.length
  let v := (r.elems.take m).zipIdx.foldl (fun (v : BitVec 16384) p => putField v (b * (i0 + p.2)) b p.1) (h.v.toList.getD x.vd 0)
  let i := per * (i0 + m)
  let h := h.putStrm x.strm (r.take m)
  if r.state = .bound ∧ i < x.vl then
    (h.landV x.vd v, some { x with done := i })
  else
    let v := if i < x.vl then putField v (b * (i0 + m)) (b * (unitsOf x.ty x.vl - (i0 + m))) 0 else v
    let v := if Ty.isBfp x.ty then bfpTrim h.vgrant x.ty v else v
    ({ (h.landV x.vd v).filled x.vd with ffi := if x.quiet then h.ffi else BitVec.ofNat 32 i }, none)

/-- Pending SRD instructions go on, oldest first: the first on each stream register takes its elements before a
later one, and one that ends keeps those before it from writing FFI. -/
def advanceReadsGo (h : Hart) (left : List StreamRead) : List StreamRead → Hart × List StreamRead
  | [] => (h, left)
  | x :: t =>
    if left.any fun y => y.strm == x.strm then advanceReadsGo h (left ++ [x]) t
    else match x.advance h with
      | (h', some y) => advanceReadsGo h' (left ++ [y]) t
      | (h', none) => advanceReadsGo h' (if x.quiet then left else left.map fun y => { y with quiet := true }) t

/-- What lands is taken by the SRD instructions that wait for it, unless they are stopped (06 R176, log 23). -/
def Hart.advanceReads (h : Hart) : Hart :=
  if h.readsHeld || h.reads.isEmpty then h
  else
    let r := advanceReadsGo h [] h.reads
    { r.1 with reads := r.2 }

/-- An SRD that stops as a long instruction does (06 R176): the hart stands at it again, with the elements delivered in
VSTART.ELEM and below it in vd, which is full; it has not completed (04 R111). -/
def Hart.stopRead (h : Hart) (x : StreamRead) : Hart :=
  { h.filled x.vd with reads := h.reads.dropLast, slots := [], pc := x.pc, slot := x.slot, elem := BitVec.ofNat 32 x.done,
                       instret := h.instret - 1, vstate := if h.vstate = .off then .off else .dirty }

def Hart.stopReadsGo : Nat → Hart → Hart
  | 0, h => h
  | n + 1, h => match h.reads.getLast? with
    | some x => if x.next = (h.pc, h.slot) ∧ x.count = h.instret ∧ h.elem = 0 then Hart.stopReadsGo n (h.stopRead x) else h
    | none => h

/-- PREEMPT comes while SRD instructions wait: one after which its hart has begun nothing stops (06 R176). One whose hart
has issued on since stays in flight (log 23). -/
def Hart.stopReads (h : Hart) : Hart := if h.readsHeld then h else Hart.stopReadsGo h.reads.length h

/-- FFI is written by an instruction later than the pending SRD instructions. -/
def Hart.hushReads (h : Hart) : Hart := { h with reads := h.reads.map fun x => { x with quiet := true } }

/-! ## Gathers -/

/-- Deliver a gather to its register (06 R168, R169): it is full, or failed from its lowest uncorrectable element
on. -/
def Hart.deliver (h : Hart) (g : Gather) : Hart :=
  let v := g.elems.foldl (fun (v : BitVec 16384) (e : GatherElem) => putField v (g.width * e.idx) g.width e.bits)
    (h.v.toList.getD g.vd 0)
  match g.bad with
  | some (i, va) => { h.landV g.vd (putField v (g.width * i) (16384 - g.width * i) 0) with
                      failed := h.failed.set g.vd (va, i) }
  | none => (h.landV g.vd v).filled g.vd

/-- Every gather in flight delivers. -/
def Hart.deliverAll (h : Hart) : Hart := { h.gathers.foldl Hart.deliver h with gathers := [] }

/-- An instruction of the hart has not finished writing its registers (04 R113). -/
def Hart.busyRegs (h : Hart) : Bool := !h.gathers.isEmpty || (!h.readsHeld && !h.reads.isEmpty)

end Sys2Proof.Machine
end

