-- ==== Sys2Proof/Machine/Scalar.lean ====
section
/-! DEFINITION. Integer register instructions, immediates and control transfer (04 R121 to R128). -/
namespace Sys2Proof.Machine

/-! ## Shared arithmetic -/

/-- The signed quotient and remainder at any width (02 R40). -/
def quotS {w : Nat} (a b : BitVec w) : BitVec w := if b = 0 then BitVec.allOnes w else a.sdiv b
def remS {w : Nat} (a b : BitVec w) : BitVec w := if b = 0 then a else a.srem b
/-- The unsigned quotient and remainder (02 R40). -/
def quotU {w : Nat} (a b : BitVec w) : BitVec w := if b = 0 then BitVec.allOnes w else a / b
def remU {w : Nat} (a b : BitVec w) : BitVec w := if b = 0 then a else a % b

/-- A condition as a register value. -/
def boolWord (c : Bool) : Word := if c then 1 else 0

/-- A .w form (04 R122): the operation on bits [31:0], sign-extended from bit 31. -/
def onWords (f : BitVec 32 → BitVec 32 → BitVec 32) (a b : Word) : Word :=
  (f (a.extractLsb' 0 32) (b.extractLsb' 0 32)).signExtend 64

/-- The number of leading zero bits, 0 to 64. -/
def leadingZeros (a : Word) : Nat := if a = 0 then 64 else 63 - Nat.log2 a.toNat

/-- The number of trailing zero bits, 0 to 64, and of one bits, counted over `n` low bits. -/
def trailingZeros (a : Word) : Nat := ((List.range 64).find? fun i => a.getLsbD i).getD 64
def popCount (a : Word) : Nat := ((List.range 64).filter fun i => a.getLsbD i).length

/-- The shift amounts of R121 and R122. -/
def sh6 (b : Word) : Nat := b.toNat % 64
def sh5 (b : BitVec 32) : Nat := b.toNat % 32

/-! ## OPR (04 R121, R122) -/

def aluAdd (a b : Word) : Word := a + b
/-- ADD (04 R121). -/
def execAdd (d a b : Reg) (s : State) : Out := writeOp s d fun h => aluAdd (h.rd a) (h.rd b)

def aluSub (a b : Word) : Word := a - b
/-- SUB (04 R121). -/
def execSub (d a b : Reg) (s : State) : Out := writeOp s d fun h => aluSub (h.rd a) (h.rd b)

def aluAnd (a b : Word) : Word := a &&& b
/-- AND (04 R121). -/
def execAnd (d a b : Reg) (s : State) : Out := writeOp s d fun h => aluAnd (h.rd a) (h.rd b)

def aluOr (a b : Word) : Word := a ||| b
/-- OR (04 R121). -/
def execOr (d a b : Reg) (s : State) : Out := writeOp s d fun h => aluOr (h.rd a) (h.rd b)

def aluXor (a b : Word) : Word := a ^^^ b
/-- XOR (04 R121). -/
def execXor (d a b : Reg) (s : State) : Out := writeOp s d fun h => aluXor (h.rd a) (h.rd b)

def aluAndn (a b : Word) : Word := a &&& ~~~b
/-- ANDN (04 R121). -/
def execAndn (d a b : Reg) (s : State) : Out := writeOp s d fun h => aluAndn (h.rd a) (h.rd b)

def aluSll (a b : Word) : Word := a <<< sh6 b
/-- SLL (04 R121). -/
def execSll (d a b : Reg) (s : State) : Out := writeOp s d fun h => aluSll (h.rd a) (h.rd b)

def aluSrl (a b : Word) : Word := a >>> sh6 b
/-- SRL (04 R121). -/
def execSrl (d a b : Reg) (s : State) : Out := writeOp s d fun h => aluSrl (h.rd a) (h.rd b)

def aluSra (a b : Word) : Word := a.sshiftRight (sh6 b)
/-- SRA (04 R121). -/
def execSra (d a b : Reg) (s : State) : Out := writeOp s d fun h => aluSra (h.rd a) (h.rd b)

def aluRol (a b : Word) : Word := a.rotateLeft (sh6 b)
/-- ROL (04 R121). -/
def execRol (d a b : Reg) (s : State) : Out := writeOp s d fun h => aluRol (h.rd a) (h.rd b)

def aluRor (a b : Word) : Word := a.rotateRight (sh6 b)
/-- ROR (04 R121). -/
def execRor (d a b : Reg) (s : State) : Out := writeOp s d fun h => aluRor (h.rd a) (h.rd b)

def aluSlt (a b : Word) : Word := boolWord (a.slt b)
/-- SLT (04 R121). -/
def execSlt (d a b : Reg) (s : State) : Out := writeOp s d fun h => aluSlt (h.rd a) (h.rd b)

def aluSltn (a b : Word) : Word := boolWord (a.ult b)
/-- SLTN (04 R121). -/
def execSltn (d a b : Reg) (s : State) : Out := writeOp s d fun h => aluSltn (h.rd a) (h.rd b)

def aluMin (a b : Word) : Word := if a.slt b then a else b
/-- MIN (04 R121). -/
def execMin (d a b : Reg) (s : State) : Out := writeOp s d fun h => aluMin (h.rd a) (h.rd b)

def aluMax (a b : Word) : Word := if a.slt b then b else a
/-- MAX (04 R121). -/
def execMax (d a b : Reg) (s : State) : Out := writeOp s d fun h => aluMax (h.rd a) (h.rd b)

def aluMinn (a b : Word) : Word := if a.ult b then a else b
/-- MINN (04 R121). -/
def execMinn (d a b : Reg) (s : State) : Out := writeOp s d fun h => aluMinn (h.rd a) (h.rd b)

def aluMaxn (a b : Word) : Word := if a.ult b then b else a
/-- MAXN (04 R121). -/
def execMaxn (d a b : Reg) (s : State) : Out := writeOp s d fun h => aluMaxn (h.rd a) (h.rd b)

def aluMul (a b : Word) : Word := a * b
/-- MUL (04 R121). -/
def execMul (d a b : Reg) (s : State) : Out := writeOp s d fun h => aluMul (h.rd a) (h.rd b)

def aluMulh (a b : Word) : Word := (a.signExtend 128 * b.signExtend 128).extractLsb' 64 64
/-- MULH (04 R121). -/
def execMulh (d a b : Reg) (s : State) : Out := writeOp s d fun h => aluMulh (h.rd a) (h.rd b)

def aluMulhn (a b : Word) : Word := (a.zeroExtend 128 * b.zeroExtend 128).extractLsb' 64 64
/-- MULHN (04 R121). -/
def execMulhn (d a b : Reg) (s : State) : Out := writeOp s d fun h => aluMulhn (h.rd a) (h.rd b)

def aluDiv (a b : Word) : Word := quotS a b
/-- DIV (04 R121). -/
def execDiv (d a b : Reg) (s : State) : Out := writeOp s d fun h => aluDiv (h.rd a) (h.rd b)

def aluDivn (a b : Word) : Word := quotU a b
/-- DIVN (04 R121). -/
def execDivn (d a b : Reg) (s : State) : Out := writeOp s d fun h => aluDivn (h.rd a) (h.rd b)

def aluRem (a b : Word) : Word := remS a b
/-- REM (04 R121). -/
def execRem (d a b : Reg) (s : State) : Out := writeOp s d fun h => aluRem (h.rd a) (h.rd b)

def aluRemn (a b : Word) : Word := remU a b
/-- REMN (04 R121). -/
def execRemn (d a b : Reg) (s : State) : Out := writeOp s d fun h => aluRemn (h.rd a) (h.rd b)

/-- ADD.W (04 R122). -/
def execAddW (d a b : Reg) (s : State) : Out :=
  writeOp s d fun h => onWords ((· + ·)) (h.rd a) (h.rd b)

/-- SUB.W (04 R122). -/
def execSubW (d a b : Reg) (s : State) : Out :=
  writeOp s d fun h => onWords ((· - ·)) (h.rd a) (h.rd b)

/-- SLL.W (04 R122). -/
def execSllW (d a b : Reg) (s : State) : Out :=
  writeOp s d fun h => onWords (fun a b => a <<< sh5 b) (h.rd a) (h.rd b)

/-- SRL.W (04 R122). -/
def execSrlW (d a b : Reg) (s : State) : Out :=
  writeOp s d fun h => onWords (fun a b => a >>> sh5 b) (h.rd a) (h.rd b)

/-- SRA.W (04 R122). -/
def execSraW (d a b : Reg) (s : State) : Out :=
  writeOp s d fun h => onWords (fun a b => a.sshiftRight (sh5 b)) (h.rd a) (h.rd b)

/-- MUL.W (04 R122). -/
def execMulW (d a b : Reg) (s : State) : Out :=
  writeOp s d fun h => onWords ((· * ·)) (h.rd a) (h.rd b)

/-- DIV.W (04 R122). -/
def execDivW (d a b : Reg) (s : State) : Out :=
  writeOp s d fun h => onWords (quotS) (h.rd a) (h.rd b)

/-- DIVN.W (04 R122). -/
def execDivnW (d a b : Reg) (s : State) : Out :=
  writeOp s d fun h => onWords (quotU) (h.rd a) (h.rd b)

/-- REM.W (04 R122). -/
def execRemW (d a b : Reg) (s : State) : Out :=
  writeOp s d fun h => onWords (remS) (h.rd a) (h.rd b)

/-- REMN.W (04 R122). -/
def execRemnW (d a b : Reg) (s : State) : Out :=
  writeOp s d fun h => onWords (remU) (h.rd a) (h.rd b)

/-- CLZ (04 R121). -/
def execClz (d a : Reg) (s : State) : Out :=
  writeOp s d fun h => BitVec.ofNat 64 (leadingZeros (h.rd a))

/-- CTZ (04 R121). -/
def execCtz (d a : Reg) (s : State) : Out :=
  writeOp s d fun h => BitVec.ofNat 64 (trailingZeros (h.rd a))

/-- POPC (04 R121). -/
def execPopc (d a : Reg) (s : State) : Out :=
  writeOp s d fun h => BitVec.ofNat 64 (popCount (h.rd a))

/-! ## Immediates (04 R123 to R125) -/

/-- imm15 sign-extended (04 R123). -/
def sext15 (i : BitVec 15) : Word := i.signExtend 64

/-- ADDI (04 R123). -/
def execAddi (d a : Reg) (imm : BitVec 15) (s : State) : Out := writeOp s d fun h => h.rd a + sext15 imm

/-- ANDI (04 R123). -/
def execAndi (d a : Reg) (imm : BitVec 15) (s : State) : Out := writeOp s d fun h => h.rd a &&& sext15 imm

/-- ORI (04 R123). -/
def execOri (d a : Reg) (imm : BitVec 15) (s : State) : Out := writeOp s d fun h => h.rd a ||| sext15 imm

/-- XORI (04 R123). -/
def execXori (d a : Reg) (imm : BitVec 15) (s : State) : Out := writeOp s d fun h => h.rd a ^^^ sext15 imm

/-- SLTI (04 R123). -/
def execSlti (d a : Reg) (imm : BitVec 15) (s : State) : Out := writeOp s d fun h => boolWord ((h.rd a).slt (sext15 imm))

/-- SLTNI (04 R123). -/
def execSltni (d a : Reg) (imm : BitVec 15) (s : State) : Out := writeOp s d fun h => boolWord ((h.rd a).ult (sext15 imm))

/-- SLLI (04 R124). -/
def execSlli (d a : Reg) (sh : BitVec 6) (s : State) : Out := writeOp s d fun h => h.rd a <<< sh.toNat

/-- SRLI (04 R124). -/
def execSrli (d a : Reg) (sh : BitVec 6) (s : State) : Out := writeOp s d fun h => h.rd a >>> sh.toNat

/-- SRAI (04 R124). -/
def execSrai (d a : Reg) (sh : BitVec 6) (s : State) : Out := writeOp s d fun h => (h.rd a).sshiftRight sh.toNat

/-- RORI (04 R124). -/
def execRori (d a : Reg) (sh : BitVec 6) (s : State) : Out := writeOp s d fun h => (h.rd a).rotateRight sh.toNat

/-- The value u of R125. -/
def upper (imm : BitVec 20) : Word := (imm ++ (0 : BitVec 12)).signExtend 64

/-- LDHI (04 R125). -/
def execLdhi (d : Reg) (imm : BitVec 20) (s : State) : Out := writeOp s d fun _ => upper imm

/-- ADDPC (04 R125). -/
def execAddpc (d : Reg) (imm : BitVec 20) (s : State) : Out := writeOp s d fun h => h.pc + upper imm

/-- HINT, major 0x3F: a no-op (03 R90). -/
def execHint (_imm : BitVec 25) (s : State) : Out := scalarOp s fun _ _ => .ok s

/-! ## Control transfer (04 R127, R128) -/

/-- A branch: pc + 4 × sext(imm12) when the condition holds (04 R127). -/
def branchOp (s : State) (off : BitVec 12) (c : Hart → Bool) : Out :=
  jumpOp s fun _ h => .ok (s, if c h then h.pc + (off.signExtend 64 <<< 2) else h.pc + 4)

/-- BEQ (04 R127). -/
def execBeq (a b : Reg) (off : BitVec 12) (s : State) : Out := branchOp s off fun h => h.rd a == h.rd b

/-- BNE (04 R127). -/
def execBne (a b : Reg) (off : BitVec 12) (s : State) : Out := branchOp s off fun h => h.rd a != h.rd b

/-- BLT (04 R127). -/
def execBlt (a b : Reg) (off : BitVec 12) (s : State) : Out := branchOp s off fun h => (h.rd a).slt (h.rd b)

/-- BGE (04 R127). -/
def execBge (a b : Reg) (off : BitVec 12) (s : State) : Out := branchOp s off fun h => !(h.rd a).slt (h.rd b)

/-- BLTN (04 R127). -/
def execBltn (a b : Reg) (off : BitVec 12) (s : State) : Out := branchOp s off fun h => (h.rd a).ult (h.rd b)

/-- BGEN (04 R127). -/
def execBgen (a b : Reg) (off : BitVec 12) (s : State) : Out := branchOp s off fun h => !(h.rd a).ult (h.rd b)

/-- JAL (04 R128). -/
def execJal (d : Reg) (off : BitVec 20) (s : State) : Out :=
  jumpOp s fun k h => .ok (s.wrX k d (h.pc + 4), h.pc + (off.signExtend 64 <<< 2))

/-- JALR (04 R128): a target whose low two bits are not zero traps MISALIGNED, and xd is unchanged. -/
def execJalr (d a : Reg) (imm : BitVec 15) (s : State) : Out :=
  jumpOp s fun k h =>
    let t := h.rd a + sext15 imm
    if t &&& 3 ≠ 0 then raise cMisaligned t else .ok (s.wrX k d (h.pc + 4), t)

end Sys2Proof.Machine
end

