-- ==== Sys2Proof/Machine/Mem.lean ====
section
/-! DEFINITION. Loads, stores, atomics, fences and WAITE (04 R126, R132; 07 R202 to R206). In this model every
access performs whole at the step that makes it, in one order of steps, which the orderings of 07 allow (log 1). -/
namespace Sys2Proof.Machine

/-- ea of LD and ST (04 R126). -/
def memAddr (h : Hart) (a : Reg) (size : BitVec 2) (imm : BitVec 8) : Word :=
  h.rd a + (imm.signExtend 64 <<< size.toNat)

/-- LD (04 R126). -/
def execLd (d a : Reg) (_cls : BitVec 4) (size : BitVec 2) (sx : Bool) (imm : BitVec 8) (s : State) : Out :=
  scalarOp s fun k h =>
    let n := 2 ^ size.toNat
    let ea := memAddr h a size imm
    if ea.toNat % n ≠ 0 then raise cMisaligned ea
    else
      match hartLoad s h ea n .load 0 with
      | .error e => .error e
      | .ok (l, v) =>
        let r : Word := if sx then BitVec.ofInt 64 (signedOf (8 * n) v) else BitVec.ofNat 64 v
        .ok ((podUsed ((countHart s l).wrX k d r) l.pa).arm k l.pa)

/-- ST (04 R126). -/
def execSt (b a : Reg) (_cls : BitVec 4) (size : BitVec 2) (imm : BitVec 8) (s : State) : Out :=
  scalarOp s fun k h =>
    let n := 2 ^ size.toNat
    let ea := memAddr h a size imm
    if ea.toNat % n ≠ 0 then raise cMisaligned ea
    else
      let bs := toBytes n (h.rd b).toNat
      match hartAddr s h ea n .store 0 (.write bs) with
      | .error e => .error e
      | .ok l => .ok (hartStore s k l bs false)

/-! ## Atomics (07 R202 to R204) -/

/-- The signed comparison of AMOMIN and AMOMAX at the access's width. -/
def sltAt (w : Bool) (x y : Nat) : Bool :=
  decide (signedOf (if w then 32 else 64) x < signedOf (if w then 32 else 64) y)

/-- What an AMO or CAS writes (07 R202, R204), given the old value, its operand and a CAS's compare value, or
nothing. `w` selects a word. -/
def amoResult (op : AmoOp) (w : Bool) (o b c : Nat) : Option Nat :=
  match op with
  | .swap => some b
  | .add => some ((o + b) % 2 ^ (if w then 32 else 64))
  | .and => some (o &&& b)
  | .or => some (o ||| b)
  | .xor => some (o ^^^ b)
  | .min => some (if sltAt w o b then o else b)
  | .max => some (if sltAt w o b then b else o)
  | .minn => some (Nat.min o b)
  | .maxn => some (Nat.max o b)
  | .cas => if o = c then some b else none

/-- An AMO or CAS on x[xs2] and, for CAS, x[xd]. -/
def atomicOp (s : State) (d a b : Reg) (w : Bool) (op : AmoOp) : Out :=
  scalarOp s fun k h =>
    let n := if w then 4 else 8
    let ea := h.rd a
    if ea.toNat % n ≠ 0 then raise cMisaligned ea
    else
      let m := 2 ^ (8 * n)
      let y := (h.rd b).toNat % m
      let c := (h.rd d).toNat % m
      match hartLoad s h ea n .atomic 0 (.amo op w y c) with
      | .error e => .error e
      | .ok (l, old) =>
        let s' := match amoResult op w old y c with
          | some v => hartStore s k l (toBytes n v) false
          | none => podUsed (countHart s l) l.pa
        let r : Word := if w then BitVec.ofInt 64 (signedOf 32 old) else BitVec.ofNat 64 old
        .ok ((s'.wrX k d r).arm k l.pa)

/-- AMOSWAP (07 R202). -/
def execAmoswap (d a b : Reg) (_sem : BitVec 2) (_scope : BitVec 3) (w : Bool) (s : State) : Out := atomicOp s d a b w .swap
/-- AMOADD (07 R202). -/
def execAmoadd (d a b : Reg) (_sem : BitVec 2) (_scope : BitVec 3) (w : Bool) (s : State) : Out := atomicOp s d a b w .add
/-- AMOAND (07 R202). -/
def execAmoand (d a b : Reg) (_sem : BitVec 2) (_scope : BitVec 3) (w : Bool) (s : State) : Out := atomicOp s d a b w .and
/-- AMOOR (07 R202). -/
def execAmoor (d a b : Reg) (_sem : BitVec 2) (_scope : BitVec 3) (w : Bool) (s : State) : Out := atomicOp s d a b w .or
/-- AMOXOR (07 R202). -/
def execAmoxor (d a b : Reg) (_sem : BitVec 2) (_scope : BitVec 3) (w : Bool) (s : State) : Out := atomicOp s d a b w .xor
/-- AMOMIN (07 R202). -/
def execAmomin (d a b : Reg) (_sem : BitVec 2) (_scope : BitVec 3) (w : Bool) (s : State) : Out := atomicOp s d a b w .min
/-- AMOMAX (07 R202). -/
def execAmomax (d a b : Reg) (_sem : BitVec 2) (_scope : BitVec 3) (w : Bool) (s : State) : Out := atomicOp s d a b w .max
/-- AMOMINN (07 R202). -/
def execAmominn (d a b : Reg) (_sem : BitVec 2) (_scope : BitVec 3) (w : Bool) (s : State) : Out := atomicOp s d a b w .minn
/-- AMOMAXN (07 R202). -/
def execAmomaxn (d a b : Reg) (_sem : BitVec 2) (_scope : BitVec 3) (w : Bool) (s : State) : Out := atomicOp s d a b w .maxn
/-- CAS (07 R204): the compare value is x[xd]. -/
def execCas (d a b : Reg) (_sem : BitVec 2) (_scope : BitVec 3) (w : Bool) (s : State) : Out := atomicOp s d a b w .cas

/-- FENCE (07 R205): in one order of whole accesses, every ordering it asks for holds already (log 1). -/
def execFence (_mask : BitVec 16) (_scope : BitVec 3) (s : State) : Out := scalarOp s fun _ _ => .ok s

/-- FENCE.I (07 R206): a convoy's words are fetched at its entry and every parcel at its own step, so nothing
fetched ahead is held (log 7). -/
def execFenceI (s : State) : Out := scalarOp s fun _ _ => .ok s

/-- WAITE (04 R132). A wake other than a write to the line completes it with 1 (HART_WAKE). -/
def execWaite (d a : Reg) (s : State) : Out :=
  scalarOp s fun k h =>
    match hartAddr s h (h.rd a) 1 .load 0 with
    | .error e => .error e
    | .ok l =>
      let line := homeKey s l.pa / 64
      let s := podUsed s l.pa
      match h.monitor with
      | some m =>
        if m.line = line then
          if h.life = .waiting then .ok (s.wrX k d (if m.seen then 0 else 1))
          else if m.seen then .ok ((s.wrX k d 1).arm k l.pa)
          else .error (.wait (s.modHart k fun x => { x with latched := some (.waite d a) }))
        else .ok ((s.wrX k d 1).arm k l.pa)
      | none => .ok ((s.wrX k d 1).arm k l.pa)

end Sys2Proof.Machine
end

