-- ==== Sys2Proof/Machine/Csr.lean ====
section
/-! DEFINITION. The CSR map and the CSR instructions (04 R108 to R113), TRAP and RETT (R129, R130). -/
namespace Sys2Proof.Machine

/-- The parcel of an instruction, as TVAL gives it (04 R118). -/
def parcelWord (i : Instr) : Word :=
  match encode i with
  | .parcel w => w.zeroExtend 64
  | .slot _ w => w
  | .bank w => w
  | .none => 0

/-- Access at a level. -/
inductive CsrAccess where
  | no | r | rw
  deriving DecidableEq, Repr

/-- The access at U and at S of a CSR number; none for a number of no CSR, or of a CSR that a vector hart, or a
sequencer, does not hold (04 R108). -/
def csrAccess (seq : Bool) (n : Nat) : Option (CsrAccess × CsrAccess) :=
  if n ≤ 3 then some (.r, .r)
  else if 0x010 ≤ n ∧ n ≤ 0x014 ∨ n = 0x017 then some (.rw, .rw)
  else if n = 0x015 then some (.no, .rw)
  else if n = 0x016 then some (.r, .rw)
  else if 0x018 ≤ n ∧ n ≤ 0x01D then some (.no, .rw)
  else if 0x020 ≤ n ∧ n ≤ 0x026 then
    if seq then none
    else if n = 0x020 then some (.r, .r)
    else if n = 0x023 ∨ n = 0x024 then some (.r, .rw)
    else some (.rw, .rw)
  else if 0x030 ≤ n ∧ n ≤ 0x033 then some (.rw, .rw)
  else if 0x040 ≤ n ∧ n ≤ 0x042 then
    if seq then (if n = 0x042 then some (.r, .r) else some (.rw, .rw)) else none
  else if n = 0x050 ∨ n = 0x051 then some (.r, .rw)
  else if n = 0x060 then some (.r, .r)
  else if n = 0x061 ∨ n = 0x070 then some (.r, .rw)
  else if n = 0x080 then some (.r, .r)
  else none

def bit (b : Bool) (i : Nat) : Nat := if b then 2 ^ i else 0

/-- TSTAT as a word (04 R109). -/
def TStat.word (t : TStat) : Nat :=
  bit t.prv 0 + bit t.ie 1 + bit t.pie 2 + bit t.pprv 3 + bit t.uie 4 + bit t.upie 5

/-- A written TSTAT: PRV keeps its value. -/
def TStat.write (t : TStat) (v : Word) : TStat :=
  { t with ie := v.getLsbD 1, pie := v.getLsbD 2, pprv := v.getLsbD 3, uie := v.getLsbD 4, upie := v.getLsbD 5 }

def VState.code : VState → Nat | .off => 0 | .clean => 1 | .dirty => 2

/-- Granules of a tile register (12 R320). -/
def Tile.granules : Tile → Nat
  | .empty => 0 | .dense32 _ => 16 | .dense16 _ => 8 | .maquette r _ _ => (r + 1) / 2

/-- MQFREEG (12 R320). -/
def Core.freeGranules (c : Core) : Nat := 256 - (c.tile.toList.map Tile.granules).foldl (· + ·) 0

/-- A register of one level's copy, by its position among 0x010 to 0x014 and 5 for TVAL2. -/
def TrapRegs.read (t : TrapRegs) (i : Nat) : Word :=
  match i with | 0 => t.tvec | 1 => t.tepc | 2 => t.tcause | 3 => t.tval | 4 => t.tscr | _ => t.tval2

/-- Write one: TVEC and TEPC keep bits [1:0] zero, TCAUSE holds 9 bits (04 R109). -/
def TrapRegs.write (t : TrapRegs) (i : Nat) (v : Word) : TrapRegs :=
  match i with
  | 0 => { t with tvec := v &&& ~~~3 } | 1 => { t with tepc := v &&& ~~~3 }
  | 2 => { t with tcause := v &&& 0x1FF } | 3 => { t with tval := v } | 4 => { t with tscr := v }
  | _ => { t with tval2 := v }

/-- HARTID of a place. -/
def hartId (k : Nat) : Nat := k % 9 + (k / 9) * 2 ^ 16

/-- The value of a CSR, as the level of the reader sees it (04 R109, R110). -/
def csrRead (s : State) (k : Nat) (h : Hart) (n : Nat) : Word :=
  let lvl := if h.tstat.prv then h.s else h.u
  let ctx := s.ctxs.get? (s.ctxOf h)
  match n with
  | 0x000 => BitVec.ofNat 64 (hartId k)
  | 0x001 => match s.groupOf h with
    | some (g, kk) => BitVec.ofNat 64 ((if isSeqPlace k then 0 else h.index) + kk.gsize * 2 ^ 5 + g.tile * 2 ^ 16)
    | none => 0
  | 0x002 => BitVec.ofNat 64 (s.ctxOf h)
  | 0x003 => match s.groupOf h with | some (_, kk) => BitVec.ofNat 64 kk.handle | none => 0
  | 0x015 => h.tdeleg.zeroExtend 64
  | 0x016 => BitVec.ofNat 64 h.tstat.word
  | 0x017 => lvl.tval2
  | 0x020 => BitVec.ofNat 64 h.vgrant
  | 0x021 => h.vtype.zeroExtend 64
  | 0x022 => (h.slot ++ h.elem).zeroExtend 64
  | 0x023 => BitVec.ofNat 64 h.vstate.code
  | 0x024 => h.vdirty.zeroExtend 64
  | 0x025 => h.ffi.zeroExtend 64
  | 0x026 => h.vxqc
  | 0x030 => h.fflags.zeroExtend 64
  | 0x031 => h.frm.zeroExtend 64
  | 0x032 => h.srseed.zeroExtend 64
  | 0x033 => h.srbase.zeroExtend 64
  | 0x040 => h.mqtol.zeroExtend 64
  | 0x041 => h.mqrmax.zeroExtend 64
  | 0x042 => BitVec.ofNat 64 (s.core (k / 9)).freeGranules
  | 0x050 => match ctx with | some c => c.lamhold.zeroExtend 64 | none => 0
  | 0x051 => match ctx with | some c => boolWord c.lamx | none => 0
  | 0x060 => (s.core (k / 9)).cycle
  | 0x061 => h.instret
  | 0x070 => h.engfault
  | 0x080 => 0x7F10_0000_0000
  | _ => if 0x018 ≤ n ∧ n ≤ 0x01D then h.u.read (n - 0x018) else lvl.read (n - 0x010)

/-- S writes VSTATE (04 R107): from OFF the v and p registers become free values (log 16), and CLEAN or DIRTY
clears the released mark. A write of DIRTY while CLEAN, of which R107's table has no row, stores DIRTY as R109 and R112
have a field written (DEDUCED, log 60). -/
def Hart.writeVState (h : Hart) (free : Nat) (v : Word) : Hart :=
  match v.toNat % 4 with
  | 0 => { h with vstate := .off }
  | 3 => h
  | c =>
    let h := { h with released := false }
    let h := if h.vstate = .off then
        { h with v := Vector.ofFn fun i => Config.freeVector free i.1,
                 p := Vector.ofFn fun i => Config.freePredicate free i.1 }
      else h
    { h with vstate := if c = 1 then .clean else .dirty }

/-- A write of VTYPE, VSTART, FFI or VXQC makes VSTATE DIRTY, unless it is OFF (04 R107). -/
def Hart.touched (h : Hart) : Hart := if h.vstate = .off then h else h.dirtied

/-- Write the fields of a CSR that a hart or sequencer holds (04 R109, R112). -/
def Hart.csrWrite (h : Hart) (free n : Nat) (v : Word) : Hart :=
  let lvl (i : Nat) : Hart := if h.tstat.prv then { h with s := h.s.write i v } else { h with u := h.u.write i v }
  match n with
  | 0x015 => { h with tdeleg := v.extractLsb' 0 32 &&& delegableMask }
  | 0x016 => { h with tstat := h.tstat.write v }
  | 0x017 => lvl 5
  | 0x021 => ({ h with vtype := v.extractLsb' 0 5 } : Hart).touched
  | 0x022 => ({ h with elem := v.extractLsb' 0 32, slot := v.extractLsb' 32 3 } : Hart).touched
  | 0x023 => h.writeVState free v
  | 0x024 => { h with vdirty := v.extractLsb' 0 40 }
  | 0x025 => ({ h with ffi := v.extractLsb' 0 32 } : Hart).touched
  | 0x026 => ({ h with vxqc := v } : Hart).touched
  | 0x030 => { h with fflags := v.extractLsb' 0 5 }
  | 0x031 => { h with frm := if v.toNat % 8 ≤ 4 then v.extractLsb' 0 3 else h.frm }
  | 0x032 => { h with srseed := v.extractLsb' 0 32 }
  | 0x033 => { h with srbase := v.extractLsb' 0 32 }
  | 0x040 => { h with mqtol := v.extractLsb' 0 32 }
  | 0x041 => { h with mqrmax := if v.toNat % 64 ≤ 32 then v.extractLsb' 0 6 else h.mqrmax }
  -- the completion of the instruction itself adds one, so that INSTRET then holds what was written (R111)
  | 0x061 => { h with instret := v - 1 }
  | 0x070 => { h with engfault := v }
  | _ => if 0x018 ≤ n ∧ n ≤ 0x01D then { h with u := h.u.write (n - 0x018) v } else lvl (n - 0x010)

/-- Write a CSR. -/
def csrWrite (s : State) (k n : Nat) (v : Word) : State :=
  let h := s.hart k
  let onCtx (f : Context → Context) : State :=
    match s.ctxs.get? (s.ctxOf h) with
    | some c => s.setCtx (s.ctxOf h) (f c)
    | none => s
  match n with
  | 0x050 => onCtx fun c => { c with lamhold := v.extractLsb' 0 24 }
  | 0x051 => onCtx fun c => { c with lamx := v.getLsbD 0 }
  | 0x023 => { s.setHart k (h.csrWrite s.free n v) with free := s.free + 1 }
  | _ => s.setHart k (h.csrWrite s.free n v)

/-- The checks of a CSR instruction (04 R107, R108, R112): `wr` says whether it writes. -/
def csrChecks (i : Instr) (k : Nat) (h : Hart) (n : Nat) (wr : Bool) : Except Stop Unit :=
  match csrAccess (isSeqPlace k) n with
  | none => raise cIllegal (parcelWord i)
  | some (u, sv) =>
    let here := if h.tstat.prv then sv else u
    if wr && u != .rw && sv != .rw then raise cIllegal (parcelWord i)
    else if here = .no ∨ (wr = true ∧ here ≠ .rw) then raise cPrivilege (parcelWord i) (BitVec.ofNat 64 n)
    else if !h.tstat.prv && decide (0x021 ≤ n) && decide (n ≤ 0x026) && h.vstate == .off then
      raise cVecAbsent 0 (BitVec.ofNat 64 (0x1_0000 + n))
    else .ok ()

/-- A CSR instruction (04 R112): `d` receives the old value, and `f`, given old and x[a], is what is written. It
begins once every earlier instruction has finished writing (R113). -/
def csrOp (i : Instr) (d : Option Reg) (a : Reg) (csr : BitVec 12) (f : Option (Word → Word → Word)) (s : State) :
    Out :=
  scalarOp s fun k h =>
    if h.busyRegs then .error (.stall s)
    else
      match csrChecks i k h csr.toNat f.isSome with
      | .error e => .error e
      | .ok _ =>
        let old := csrRead s k h csr.toNat
        let s' := match f with
          | some g => csrWrite s k csr.toNat (g old (h.rd a))
          | none => s
        .ok (match d with
          | some r => s'.wrX k r old
          | none => s')

/-- CSRR (04 R112). -/
def execCsrr (d : Reg) (csr : BitVec 12) (s : State) : Out := csrOp (.csrr d csr) (some d) 0 csr none s
/-- CSRW (04 R112). -/
def execCsrw (a : Reg) (csr : BitVec 12) (s : State) : Out :=
  csrOp (.csrw a csr) none a csr (some fun _ v => v) s
/-- CSRS (04 R112). -/
def execCsrs (a : Reg) (csr : BitVec 12) (s : State) : Out :=
  csrOp (.csrs a csr) none a csr (some fun o v => o ||| v) s
/-- CSRC (04 R112). -/
def execCsrc (a : Reg) (csr : BitVec 12) (s : State) : Out :=
  csrOp (.csrc a csr) none a csr (some fun o v => o &&& ~~~v) s
/-- CSRX (04 R112). -/
def execCsrx (d a : Reg) (csr : BitVec 12) (s : State) : Out :=
  csrOp (.csrx d a csr) (some d) a csr (some fun _ v => v) s

/-- TRAP (04 R129). -/
def execTrap (code : BitVec 10) (s : State) : Out :=
  scalarOp s fun _ _ => raise cTrapInstr (code.zeroExtend 64)

/-- Resume the register-bound operations suspended for the hart at a place (08 R225, 14 R356). -/
def resumeBound (s : State) (k : Nat) : State :=
  { s with ctxs := s.ctxs.map fun (c, cx) => (c, { cx with xfer := cx.xfer.map fun (i, ch) =>
      (i, { ch with ops := ch.ops.map fun o =>
        if o.hart = some k ∧ o.state = .suspended then { o with state := .running } else o }) }) }

/-- The end of a pre-emption service without a park (14 R349): the registers that were empty or failed are so
again. -/
def Hart.endService (h : Hart) : Hart :=
  if h.service then { h with service := false, full := h.full &&& ~~~h.emptyAt, failed := h.failedAt } else h

/-- RETT (04 R130). Unless the vector state is OFF, the transfers and SRD instructions that a pre-emption stopped go
on (14 R356, log 23). -/
def execRett (s : State) : Out :=
  jumpOp s fun k h =>
    if h.busyRegs then .error (.stall s)
    else
      let h' := h.trapReturn.endService.regainSlot k
      if h'.vstate = .off then .ok (s.setHart k h', h'.pc)
      else .ok (resumeBound (s.setHart k (Hart.advanceReads { h' with readsHeld := false })) k, h'.pc)

end Sys2Proof.Machine
end

