-- ==== Sys2Proof/Machine/Barrier.lean ====
section
/-! DEFINITION. Barrier objects and the instructions on them (09), and GSYNC (17 R387, R388). -/
namespace Sys2Proof.Machine

/-- A barrier object (09 R235). -/
structure BarObj where
  gen    : Nat
  phase  : Nat
  valid  : Bool
  expect : Nat
  penda  : Nat
  pendb  : Int
  deriving DecidableEq, Repr

/-- The object whose bytes are given (09 R235). -/
def barOf (byte : Nat → Byte) : BarObj :=
  let word (i : Nat) : Nat := ofBytes ((List.range 8).map fun j => byte (8 * i + j))
  { gen := bitsAt (word 0) 0 16, phase := bitsAt (word 0) 16 16, valid := bitsAt (word 0) 32 1 == 1,
    expect := bitsAt (word 1) 0 20, penda := bitsAt (word 2) 0 20, pendb := signedOf 40 (word 3) }

/-- The object at a physical address. -/
def barRead (s : State) (pa : Nat) : BarObj := barOf fun i => physByte s (pa + i)

def BarObj.bytes (b : BarObj) : List Byte :=
  record4 (b.gen + b.phase * 2 ^ 16 + bit b.valid 32) b.expect b.penda (wrapInt 40 b.pendb)

/-- Write an object. Its home performs the step, for agent `by_`. -/
def barWrite (s : State) (pa : Nat) (b : BarObj) (by_ : Option Nat) : State :=
  podUsed (store s pa b.bytes by_) pa

/-- The completion step (09 R238). -/
def BarObj.complete (b : BarObj) : BarObj :=
  { b with phase := (b.phase + 1) % 2 ^ 16, penda := b.expect, pendb := 0 }

/-- Complete the phase where nothing is expected any more. -/
def BarObj.settle (b : BarObj) : BarObj := if b.penda = 0 ∧ b.pendb = 0 then b.complete else b

/-- The token of the current phase of an object (09 R241, R244). -/
def BarObj.token (b : BarObj) (va : Word) : Word :=
  BitVec.ofNat 64 (b.gen * 2 ^ 48 + b.phase % 32 * 2 ^ 43 + va.toNat / 32)

/-- What a BINIT of count `n` makes of an object (09 R243). -/
def BarObj.init (o : BarObj) (n : Nat) : BarObj := ⟨(o.gen + 1) % 2 ^ 16, 0, true, n, n, 0⟩

/-- What a step at an object's home makes of it, for an agent of another package (09 R237, R238), where the step
changes it: a step that would trap there, or a count that is discarded, does not. -/
def BarObj.podStep (o : BarObj) : PodOp → Option BarObj
  | .binit n => some (o.init n)
  | .binval => if o.valid then some { o with valid := false } else none
  | .barrive => if o.valid ∧ o.penda ≠ 0 then some ({ o with penda := o.penda - 1 } : BarObj).settle else none
  | .bexp n =>
    if o.valid = true ∧ n < 2 ^ 39 ∧ o.pendb + n < (2 ^ 39 : Nat) ∧ n ≠ 0 then
      some ({ o with pendb := o.pendb + n } : BarObj).settle
    else none
  | .count gen n =>
    if o.valid = true ∧ o.gen = gen ∧ -(2 ^ 39 : Nat) ≤ o.pendb - n then
      some ({ o with pendb := o.pendb - n } : BarObj).settle
    else none
  | _ => none

/-- Checks 1 to 5 of R242 on an object address: the physical address of the object. A peer that is its home
performs `op`, and once asked the address is not translated again. -/
def barAddr (s : State) (h : Hart) (va : Word) (k : Acc) (op : PodOp) : Except Stop Nat :=
  if va.toNat % 32 ≠ 0 then raise cMisaligned va
  else if va.toNat / 2 ^ 48 ≠ 0 then raise cAccess va
  else
    match s.asked va op with
    | some p =>
      match p.answer with
      | none => .error (.pod p.addr op va p.mode)
      | some .unmapped => raise cAccess va
      | some .bad => raise cUncorrectable va
      | some (.line _) => .ok p.addr
    | none =>
      match walk s (s.ctxOf h) va.toNat k h.tstat.prv with
      | .error c => raise c va
      | .ok l =>
        if l.mode ≠ 3 ∨ isRowZero l.pa = true ∨ physHome s l.pa = .none then raise cAccess va
        else if 2 ^ 50 ≤ l.pa then
          if podReach s l.pa = false then raise cAccess va else .error (.pod l.pa op va l.mode)
        else if uncorrectable s l.pa 32 then raise cUncorrectable va
        else .ok l.pa

/-- BINIT (09 R243). -/
def execBinit (a b : Reg) (s : State) : Out :=
  scalarOp s fun k h =>
    let n := (h.rd b).toNat
    match barAddr s h (h.rd a) .barWrite (if n < 2 ^ 20 then .binit n else .read 32) with
    | .error e => .error e
    | .ok pa =>
      if 2 ^ 20 ≤ n then raise cBarrierOverflow (h.rd a)
      else .ok (barWrite s pa ((barRead s pa).init n) (some k))

/-- BINVAL (09 R243). -/
def execBinval (a : Reg) (s : State) : Out :=
  scalarOp s fun k h =>
    match barAddr s h (h.rd a) .barWrite .binval with
    | .error e => .error e
    | .ok pa =>
      let o := barRead s pa
      if o.valid = false then raise cBarrierStale (o.token (h.rd a))
      else .ok (barWrite s pa { o with valid := false } (some k))

/-- BARRIVE (09 R244). -/
def execBarrive (d a : Reg) (s : State) : Out :=
  scalarOp s fun k h =>
    match barAddr s h (h.rd a) .barWrite .barrive with
    | .error e => .error e
    | .ok pa =>
      let o := barRead s pa
      if o.valid = false then raise cBarrierStale (o.token (h.rd a))
      else if o.penda = 0 then raise cBarrierOverflow (h.rd a)
      else
        .ok ((barWrite s pa ({ o with penda := o.penda - 1 } : BarObj).settle (some k)).wrX k d (o.token (h.rd a)))

/-- BEXP (09 R245). -/
def execBexp (a b : Reg) (s : State) : Out :=
  scalarOp s fun k h =>
    match barAddr s h (h.rd a) .barWrite (.bexp (h.rd b).toNat) with
    | .error e => .error e
    | .ok pa =>
      let o := barRead s pa
      let n := (h.rd b).toNat
      if o.valid = false then raise cBarrierStale (o.token (h.rd a))
      else if 2 ^ 39 ≤ n ∨ (2 ^ 39 : Nat) ≤ o.pendb + n then raise cBarrierOverflow (h.rd a)
      else if n = 0 then .ok (podUsed s pa)
      else .ok (barWrite s pa ({ o with pendb := o.pendb + n } : BarObj).settle (some k))

/-- An object is stale for a token (09 R240). -/
def BarObj.staleFor (o : BarObj) (t : Word) : Bool := !o.valid || o.gen != bitsAt t.toNat 48 16

/-- The phase of a token is complete (09 R241). -/
def BarObj.doneFor (o : BarObj) (t : Word) : Bool := o.phase % 32 != bitsAt t.toNat 43 5

/-- The address of the object that a token names (09 R241). -/
def tokenVa (t : Word) : Word := BitVec.ofNat 64 (bitsAt t.toNat 0 43 * 32)

/-- The checks of R242 on a token, and whether its phase is complete (09 R241). -/
def tokenTest (s : State) (h : Hart) (t : Word) : Except Stop (Nat × Bool) :=
  match barAddr s h (tokenVa t) .barRead (.read 32) with
  | .error e => .error e
  | .ok pa =>
    let o := barRead s pa
    if o.staleFor t then raise cBarrierStale t else .ok (pa, o.doneFor t)

/-- BWAIT (09 R246). What it acquires holds already in one order of whole accesses (log 1). -/
def execBwait (a : Reg) (scope : BitVec 3) (s : State) : Out :=
  scalarOp s fun k h =>
    match tokenTest s h (h.rd a) with
    | .error e => .error e
    | .ok (pa, done) => if done then .ok (podUsed s pa)
      else .error (.wait ((podUsed s pa).modHart k fun x => { x with latched := some (.bwait a scope), waitObj := some pa }))

/-- BTEST (09 R247). -/
def execBtest (d a : Reg) (s : State) : Out :=
  scalarOp s fun k h =>
    match tokenTest s h (h.rd a) with
    | .error e => .error e
    | .ok (pa, done) => .ok ((podUsed s pa).wrX k d (boolWord done))

/-! ## GSYNC (17 R387, R388) -/

/-- Harts per core at a group's requested VLEN (17 R380). -/
def Kernel.perCore (k : Kernel) : Nat := if k.vlen ≤ 8192 then 8 else 4

/-- Hosting cores of a group of a kernel (17 R380). -/
def Kernel.hosting (k : Kernel) : Nat := (k.gsize + k.perCore - 1) / k.perCore

/-- The vector harts of a group that are not RETIRED, on a slot (none: on all). -/
def Group.live (g : Group) (per : Nat) (slot : Option Nat) : Nat :=
  (g.members.filter fun (i, m) => decide (i < 64) && m.at_ != .retired &&
    (match slot with | some sl => m.slotOf i per == sl | none => true)).length

/-- The key of a barrier among its group's or kernel's, and whether it is the group's. -/
def gbarKey (scope id slot die : Nat) : Nat × Bool :=
  match scope with
  | 1 => (8192 * slot + 32 + id, true)
  | 2 => (64 + id, true)
  | 3 => (8192 * die + 96 + id, false)
  | n => (32 * n + id, false)

/-- Participants of a barrier (17 R387). The harts of a PARKED group count on the die on which they last ran. -/
def gbarParties (s : State) (gid : Nat) (g : Group) (kk : Kernel) (scope slot die : Nat) : Nat :=
  match scope with
  | 1 => g.live kk.perCore (some slot)
  | 2 => g.live kk.perCore none
  | _ => ((s.groups.filter fun (i, x) => x.kernel == g.kernel && x.state != .ended &&
      (scope != 3 || i == gid || x.die == die)).map fun (_, x) => x.live kk.perCore none).foldl (· + ·) 0

/-- The barrier with a key. -/
def gbarGet (g : Group) (kk : Kernel) (key : Nat × Bool) : GBar :=
  if key.2 then g.bars.getD key.1 {} else kk.bars.getD key.1 {}

def gbarSet (s : State) (gid : Nat) (key : Nat × Bool) (b : GBar) : State :=
  match s.groups.get? gid with
  | none => s
  | some g =>
    if key.2 then s.setGroup gid { g with bars := g.bars.set key.1 b }
    else match s.kernels.get? g.kernel with
      | none => s
      | some kk => s.setKernel g.kernel { kk with bars := kk.bars.set key.1 b }

/-- GSYNC (17 R388). -/
def execGsync (id : BitVec 5) (scope : BitVec 3) (s : State) : Out :=
  scalarOp s fun k h =>
    let i : Instr := .gsync id scope
    let sc := scope.toNat
    if isSeqPlace k = true ∨ sc = 0 then raise cIllegal (parcelWord i)
    else
      match s.groupOf h with
      | none => raise cIllegal (parcelWord i)
      | some (g, kk) =>
        if 3 ≤ sc ∧ kk.coside = false then raise cGroupScope (parcelWord i)
        else
          let slot := (g.cores.findIdx? (· == k / 9)).getD 0
          let key := gbarKey sc id.toNat slot (k / 9 / 64)
          let b := gbarGet g kk key
          let hk := key.1
          match h.arrived.get? hk with
          | some ph =>
            if b.phase ≠ ph then .ok (s.modHart k fun h => { h with arrived := h.arrived.erase hk })
            else .error (.wait (s.modHart k fun x => { x with latched := some i }))
          | none =>
            if b.count + 1 = gbarParties s h.group g kk sc slot (k / 9 / 64) then
              .ok (gbarSet s h.group key ⟨0, !b.phase⟩)
            else
              .error (.wait ((gbarSet s h.group key { b with count := b.count + 1 }).modHart k fun h =>
                { h with arrived := h.arrived.set hk b.phase, latched := some i }))

end Sys2Proof.Machine
end

