-- ==== Sys2Proof/Machine/Launch.lean ====
section
/-! DEFINITION. Launching engine operations and following their timelines: CPW, CPGO, TLWAIT, TLREAD (08 R217 to
R232), MXGO (13 R339) and KLAUNCH (16 R379). -/
namespace Sys2Proof.Machine

/-! ## The fields of a captured shadow set (08 R217) -/

abbrev Shadow := Vector Word 10

def Shadow.src (w : Shadow) : Nat := w[0].toNat
def Shadow.dst (w : Shadow) : Nat := w[1].toNat
def Shadow.len (w : Shadow) : Nat := bitsAt w[2].toNat 0 32
def Shadow.sstr (w : Shadow) : Word := w[3]
def Shadow.dstr (w : Shadow) : Word := w[4]
def Shadow.rows (w : Shadow) : Nat := bitsAt w[5].toNat 0 32
def Shadow.sfmt (w : Shadow) : Nat := bitsAt w[6].toNat 0 5
def Shadow.dfmt (w : Shadow) : Nat := bitsAt w[6].toNat 5 5
def Shadow.swz (w : Shadow) : Nat := bitsAt w[6].toNat 10 3
def Shadow.hdr (w : Shadow) : Bool := w[6].getLsbD 13
def Shadow.bar (w : Shadow) : Word := w[7]
def Shadow.stage (w : Shadow) (i : Nat) : Nat := bitsAt w[8].toNat (4 * i) 4
def Shadow.prio (w : Shadow) : Nat := bitsAt w[9].toNat 0 3
def Shadow.rscope (w : Shadow) : Nat := bitsAt w[9].toNat 7 3
def Shadow.reset (w : Shadow) : Bool := w[9].getLsbD 10
def Shadow.rm (w : Shadow) : Nat := bitsAt w[9].toNat 11 2

/-- The stage codes up to the first zero (08 R219). -/
def Shadow.stages (w : Shadow) : List Nat := ((List.range 4).map w.stage).takeWhile (· != 0)

/-- Elements of `n` bytes in a format, where that is a whole number (08 R218). -/
def elemsIn (t n : Nat) : Option Nat :=
  if Ty.isBfp t then (if n % Ty.bfpBytes t = 0 then some (32 * (n / Ty.bfpBytes t)) else none)
  else if 8 * n % Ty.width t = 0 then some (8 * n / Ty.width t) else none

/-- Bytes of a destination row of `e` elements (08 R218). -/
def rowBytes (t e : Nat) : Option Nat :=
  if Ty.isBfp t then (if e % 32 = 0 then some (e / 32 * Ty.bfpBytes t) else none)
  else some ((e * Ty.width t + 7) / 8)

/-- A stage after format `f` (08 R219): the format after it, where it is permitted. -/
def stageAfter (dfmt e rows f code : Nat) : Option Nat :=
  match code with
  | 1 => if !Ty.isBfp f && !Ty.isBfp dfmt && f != dfmt then some dfmt else none
  | 2 => if Ty.isWhole f && e == 64 && rows % 64 == 0 then some f else none
  | 3 => if Ty.isWhole f && e == 64 && rows % 64 == 0 then some f else none
  | 4 => if !Ty.isBfp f && Ty.isBfp dfmt then some dfmt else none
  | 5 => if Ty.isBfp f then some 9 else none
  | _ => none

/-- E, the bytes of a destination row and T of a transfer, where the rules of R217 to R219 that CPGO checks
hold. -/
def xferShape (w : Shadow) : Option (Nat × Nat × Nat) :=
  if w.len = 0 ∨ w.rows = 0 ∨ Ty.isFormat w.sfmt = false ∨ Ty.isFormat w.dfmt = false then none
  else
    match elemsIn w.sfmt w.len with
    | none => none
    | some e =>
      match w.stages.foldl (fun f c => f.bind fun x => stageAfter w.dfmt e w.rows x c) (some w.sfmt) with
      | none => none
      | some f =>
        if f ≠ w.dfmt ∨ (w.hdr = true ∧ 65535 < w.rows) then none
        else
          match rowBytes w.dfmt e with
          | none => none
          | some rb =>
            let t := w.rows * rb + if w.hdr then 16 else 0
            if t < 2 ^ 40 then some (e, rb, t) else none

/-! ## BAR at a launch (09 R248) -/

def captureBar (s : State) (h : Hart) (w : Shadow) : Except Stop (Option BarCapture) :=
  if w.bar = 0 then .ok none
  else
    match barAddr s h w.bar .barWrite (.read 32) with
    | .error e => .error e
    | .ok pa =>
      let cnt := match walk s (s.ctxOf h) w.bar.toNat .barWrite h.tstat.prv with
        | .ok l => l.cnt
        | .error _ => false
      .ok (some { va := w.bar, gen := BitVec.ofNat 16 (barRead s pa).gen, home := pa, cnt := cnt })

/-- The peer's answer about a captured object has been used. -/
def barUsed (s : State) (bar : Option BarCapture) : State :=
  podUsed s (match bar with | some b => b.home | none => 0)

/-- A hart place of a context at which a hart is bound. -/
def boundAt (s : State) (c k : Nat) : Bool :=
  let h := s.hart k
  h.life != .free && h.life != .retired && s.ctxOf h == c

/-- The 64 KiB block of physical addresses, as its page names it, to which a destination leads. -/
def blockOf (s : State) (c : Nat) (prv : Bool) (va : Word) : Nat :=
  match walk s c va.toNat .store prv with
  | .ok l => l.pa / 0x1_0000
  | .error _ => 0

/-- The parts of `len` bytes from an address by 64 KiB pages: first byte and length. -/
def pageParts (a len : Nat) : List (Nat × Nat) :=
  (List.range (len / 0x1_0000 + 2)).filterMap fun p =>
    let lo := max a (a / 0x1_0000 * 0x1_0000 + p * 0x1_0000)
    let hi := min (a + len) (a / 0x1_0000 * 0x1_0000 + (p + 1) * 0x1_0000)
    if hi ≤ lo then none else some (lo % 2 ^ 64, hi - lo)

/-- The registers that bytes [off, off + n) of a register file lie in. -/
def regsOf (vgrant off n : Nat) : List Nat :=
  let b := vgrant / 8
  (List.range 32).filter fun i => decide (off < (i + 1) * b) && decide (i * b < off + n)

/-- The hart place, block and registers of a register-bound destination in the range of a hart of the context (08
R223): a register belongs to it if a part of a row that lies in the block reaches it. -/
def boundRegs (s : State) (h : Hart) (w : Shadow) (rb : Nat) : Option (Nat × Nat × BitVec 32) :=
  let rowVa (r : Nat) : Word := w.dstr * BitVec.ofNat 64 r + w[1]
  let home (va : Nat) : Option Leaf :=
    if va / 2 ^ 57 ≠ 0 then none
    else match walk s (s.ctxOf h) va .store h.tstat.prv with
    | .error _ => none
    | .ok l => some l
  match (home (rowVa 0).toNat).bind fun l => (resolveSlot s h.group l).map fun pa => (l.pa / 0x1_0000, physHome s pa) with
  | some (block, .vreg k _) =>
    if boundAt s (s.ctxOf h) k = false then none
    else
      some (k, block, (List.range (min w.rows 65536)).foldl (fun (a : BitVec 32) r =>
        (pageParts (rowVa r).toNat rb).foldl (fun a p =>
          if (home p.1).map (fun l => l.pa / 0x1_0000) = some block then
            (regsOf (s.hart k).vgrant (p.1 % 0x1_0000) p.2).foldl (fun a x => a ||| ((1 : BitVec 32) <<< x)) a
          else a) a) 0)
  | _ => none

/-- What a shadow register keeps of a value (00 R4): a bit reserved in both its readings, for a transfer (08 R217)
and for a lamination (13 R335), stays zero. -/
def shadowKept (i : Nat) (v : Word) : Word :=
  match i with
  | 2 => v &&& 0xFFFF_FFFF
  | 5 => v &&& 0xFFFF_FFFF
  | 6 => v &&& 0x3FFF
  | 9 => v &&& 0x1FFF
  | _ => v

/-- CPW (08 R229). -/
def execCpw (idx : BitVec 5) (a : Reg) (s : State) : Out :=
  scalarOp s fun k h =>
    if hi : idx.toNat < 10 then
      .ok (s.modHart k fun x => { x with shadow := x.shadow.set idx.toNat (shadowKept idx.toNat (h.rd a)) })
    else raise cIllegal (parcelWord (.cpw idx a))

/-- A reset launch on a timeline (08 R230): the lowest faulted number is skipped. -/
def Timeline.reset (t : Timeline) : Timeline × Nat :=
  match t.faulted with
  | [] => (t, 0)
  | n :: _ => (t.endNum n, n)

/-- A FAULTED stream register bound by an operation is UNBOUND again. -/
def StreamReg.unfault (handle n : Nat) (r : StreamReg) : StreamReg :=
  if r.state = .faulted ∧ r.handle.toNat = handle ∧ r.num = n then {} else r

/-- Unbind a FAULTED stream destination of operation `n` of a channel (06 R175, 08 R230), also of a PARKED hart. -/
def unbindStreams (s : State) (c handle n : Nat) : State :=
  { s with
    harts := s.harts.map fun (k, h) =>
      if s.ctxOf h = c then (k, { h with st := h.st.map (StreamReg.unfault handle n) }) else (k, h),
    groups := s.groups.map fun (g, x) =>
      if (s.kernels.get? x.kernel).any fun (kk : Kernel) => kk.ctx == c then
        (g, { x with members := x.members.map fun (i, m) => (i, { m with st := m.st.map (StreamReg.unfault handle n) }) })
      else (g, x) }

/-- CPGO (08 R230). BAR is checked (09 R248) after the fields, and before the CHANNEL_FAULTED of a last number and the
stall of a full channel (DESIGN CHOICE, log 60). -/
def execCpgo (d a : Reg) (s : State) : Out :=
  scalarOp s fun k h =>
    let i : Instr := .cpgo d a
    let ill : Except Stop State := raise cIllegal (parcelWord i)
    let hd := (h.rd a).toNat
    let w : Shadow := h.shadow
    let cn := s.ctxOf h
    match s.ctxs.get? cn with
    | none => ill
    | some cx =>
      if 63 < hd then ill
      else
        let ch := cx.xfer.getD hd {}
        if w.reset then
          let (line, n) := ch.line.reset
          let s' := s.setCtx cn { cx with xfer := cx.xfer.set hd { ch with line := line } }
          .ok ((if n = 0 then s' else unbindStreams s' cn hd n).wrX k d (BitVec.ofNat 64 n))
        else if ch.line.faulted ≠ [] then raise cChannelFaulted (h.rd a)
        else if 6 ≤ w.rscope then ill
        else if bitsAt w[8].toNat 0 16 ≠ 0 ∧ s.variant.hasXform = false then
          raise cUnitAbsent (parcelWord i) 0x0014
        else
          match xferShape w with
          | none => ill
          | some (_, rb, _) =>
            match captureBar s h w with
            | .error e => .error e
            | .ok bar =>
              if ch.line.last = 2 ^ 64 - 1 then raise cChannelFaulted (h.rd a)
              else if 32 ≤ ch.line.outstanding then .error (.stall (barUsed s bar))
              else
                let n := ch.line.last + 1
                let rg := boundRegs s h w rb
                let op : XferOp :=
                  { num := n, shadow := w, frm := h.frm, seed := h.srseed, base := h.srbase, prv := h.tstat.prv,
                    group := h.group, core := k / 9, bar := bar, hart := rg.map (·.1), home := (rg.map (·.2.1)).getD 0,
                    regs := (rg.map (·.2.2)).getD 0 }
                let s' := barUsed s bar
                let ch' : Channel := { line := { ch.line with last := n }, ops := ch.ops ++ [op] }
                let s' := s'.setCtx cn { cx with xfer := cx.xfer.set hd ch' }
                let s' := match rg with
                  | some (k2, _, m) => s'.modHart k2 fun x => { x with full := x.full &&& ~~~m }
                  | none => s'
                .ok (s'.wrX k d (BitVec.ofNat 64 n))

/-! ## Timelines of handles (08 R231, 11 R306, 12 R312, 16 R377) -/

/-- What a waiter sees of a timeline: its watermark and the faulted numbers not skipped. -/
structure TlView where
  mark    : Nat
  faulted : List Nat
  deriving DecidableEq, Repr

/-- The stream whose handle and timeline a stream carries (11 R306, R307): the fuel bounds the splits. -/
def rootStream (s : State) : Nat → Nat → Nat
  | 0, i => i
  | f + 1, i => match (s.stream i).primary with | some p => rootStream s f p | none => i

/-- A stream of a context. -/
def State.streamOf (s : State) (c i : Nat) : Bool :=
  let st := s.stream (rootStream s 4 i)
  st.state != .idle && (s.kernels.get? st.kernel).any fun k => k.ctx == c

/-- The stream of a context that is bound to a sequencer (11 R307), also one that is PARKED and has given it up: a
secondary shows its primary's timeline. -/
def boundKey (s : State) (c idx : Nat) : Option Nat :=
  (if s.streamOf c idx then some idx
   else (s.streams.find? fun p => decide (4096 ≤ p.1) && p.1 % 4096 == idx && s.streamOf c p.1).map (·.1)).map
    (rootStream s 4)

def boundStream (s : State) (c idx : Nat) : Option Stream := (boundKey s c idx).map s.stream

/-- The timeline of a handle in a context, for a waiter of a group; none where TLWAIT refuses the handle
(08 R231). -/
def tlView (s : State) (c : Nat) (g : Option Group) (handle : Nat) : Option TlView :=
  let idx := handle % 4096
  match s.ctxs.get? c with
  | none => none
  | some cx =>
    match handle / 4096 with
    | 0 => if idx ≤ 63 then (let l := (cx.xfer.getD idx {}).line; some ⟨l.mark, l.faulted⟩) else none
    | 1 => if idx ≤ 15 then (let l := (cx.lam.getD idx {}).line; some ⟨l.mark, l.faulted⟩) else none
    | 2 => match g with
      | none => none
      | some g => match g.cores[idx]? with
        | some _ => some ⟨s.finOf (g.members.getD (64 + idx) {}), []⟩
        | none => none
    | 3 => if idx < 256 * s.variant.towers then
        (match boundStream s c idx with
         | some st => if st.state = .ended then some ⟨2 ^ 64 - 1, []⟩
            else some ⟨st.mark, if st.state = .faulted then [st.mark + 1] else []⟩
         | none => some ⟨2 ^ 64 - 1, []⟩)
      else none
    | 4 => let l := (cx.queues.getD idx {}).line; some ⟨l.mark, l.faulted⟩
    | _ => none

/-- A kind-3 wait belongs to the stream bound when it issues (11 R307): its kernel, and the stream whose timeline it
shows. -/
def waitBinding (s : State) (c handle : Nat) : Option (Nat × Nat) :=
  if handle / 4096 = 3 then (boundKey s c (handle % 4096)).map fun i => ((s.stream i).kernel, i % 4096)
  else none

/-- The timeline of a binding, whatever its sequencer has been bound to since (11 R306, R307). -/
def bindingView (s : State) (b : Nat × Nat) : TlView :=
  let st := s.stream (((s.streams.find? fun p => p.1 % 4096 == b.2 && p.2.kernel == b.1).map (·.1)).getD b.2)
  if st.kernel = b.1 ∧ st.primary = none ∧ st.state ≠ .idle ∧ st.state ≠ .ended then
    ⟨st.mark, if st.state = .faulted then [st.mark + 1] else []⟩
  else
    match (s.kernels.get? b.1).bind fun k => k.streamFaults.get? b.2 with
    | some n => ⟨n, [n + 1]⟩
    | none => ⟨2 ^ 64 - 1, []⟩

/-- What a wait sees that has kept the binding it waits for, or else of its handle. -/
def waitView (s : State) (c : Nat) (g : Option Group) (handle : Nat) (b : Option (Nat × Nat)) : Option TlView :=
  match b with
  | some b => some (bindingView s b)
  | none => tlView s c g handle

/-- TLWAIT (08 R231). What it acquires holds already in one order of whole accesses (log 1). -/
def execTlwait (a b : Reg) (scope : BitVec 3) (s : State) : Out :=
  scalarOp s fun k h =>
    let hd := (h.rd a).toNat
    let n := (h.rd b).toNat
    let c := s.ctxOf h
    if 2 ^ 16 ≤ hd then raise cIllegal (parcelWord (.tlwait a b scope))
    else
      let bound := if h.life = .waiting then h.waitFor else none
      match waitView s c ((s.groupOf h).map (·.1)) hd bound with
      | none => raise cIllegal (parcelWord (.tlwait a b scope))
      | some v =>
        if v.faulted.any (· ≤ n) then raise cEngineFault (h.rd a) (h.rd b)
        else if n ≤ v.mark then .ok s
        else .error (.wait (s.modHart k fun x =>
          { x with waitFor := bound.or (waitBinding s c hd), latched := some (.tlwait a b scope) }))

/-- TLREAD (08 R232, 11 R307). -/
def execTlread (d a : Reg) (s : State) : Out :=
  scalarOp s fun k h =>
    let hd := (h.rd a).toNat
    if 2 ^ 16 ≤ hd then raise cIllegal (parcelWord (.tlread d a))
    else
      match tlView s (s.ctxOf h) ((s.groupOf h).map (·.1)) hd with
      | none => raise cIllegal (parcelWord (.tlread d a))
      | some v => .ok (s.wrX k d (BitVec.ofNat 64 v.mark))

/-! ## MXGO (13 R335 to R339) -/

def lamH (w : Shadow) : Nat := bitsAt w[2].toNat 0 4
def lamK (w : Shadow) : Nat := bitsAt w[2].toNat 16 16
def lamN (w : Shadow) : Nat := bitsAt w[4].toNat 0 16
def lamWfmt (w : Shadow) : Nat := bitsAt w[4].toNat 16 5
def lamBanks (w : Shadow) : Nat := bitsAt w[4].toNat 21 4 + 1
def lamHold (w : Shadow) : Nat := bitsAt w[5].toNat 0 24
def lamAfmt (w : Shadow) : Nat := bitsAt w[6].toNat 0 5
def lamOfmt (w : Shadow) : Nat := bitsAt w[6].toNat 5 5

/-- The row capacity of a weight format (13 R337); 0 for any other format. -/
def lamCapacity (t : Nat) : Nat :=
  match t with
  | 8 => 4096 | 11 => 8192 | 12 => 8192 | 0 => 8192 | 22 => 7936 | 18 => 15392 | 16 => 29120 | _ => 0

/-- The field checks of MXGO (13 R339). -/
def lamFieldsOk (w : Shadow) : Bool :=
  decide (1 ≤ lamH w) && decide (lamH w ≤ 8) && lamK w != 0 && decide (lamK w ≤ lamCapacity (lamWfmt w)) &&
    (!Ty.isBfp (lamWfmt w) || lamK w % 32 == 0) && lamN w != 0 && w[3].toNat % 8192 == 0 &&
    [8, 9, 11, 12, 0].contains (lamAfmt w) && [9, 8].contains (lamOfmt w) && w.rm == 0 && w[8] == 0

/-- MXGO (13 R339). -/
def execMxgo (d a : Reg) (s : State) : Out :=
  scalarOp s fun k h =>
    let i : Instr := .mxgo d a
    let ill : Except Stop State := raise cIllegal (parcelWord i)
    let hd := (h.rd a).toNat
    let w : Shadow := h.shadow
    let cn := s.ctxOf h
    if s.variant.hasLamination = false then raise cUnitAbsent (parcelWord i) 0x0013
    else
    match s.ctxs.get? cn, s.groupOf h with
    | some cx, some (_, kk) =>
      if hd < 0x1000 ∨ 0x100F < hd then ill
      else
        let ch := cx.lam.getD (hd - 0x1000) {}
        if w.reset then
          let (line, n) := ch.line.reset
          .ok ((s.setCtx cn { cx with lam := cx.lam.set (hd - 0x1000) { ch with line := line } }).wrX k d
            (BitVec.ofNat 64 n))
        else if ch.line.faulted ≠ [] then raise cChannelFaulted (h.rd a)
        else if 6 ≤ w.rscope ∨ lamFieldsOk w = false then ill
        else
          match captureBar s h w with
          | .error e => .error e
          | .ok bar =>
            if ch.line.last = 2 ^ 64 - 1 then raise cChannelFaulted (h.rd a)
            else if 32 ≤ ch.line.outstanding then .error (.stall (barUsed s bar))
            else
              let n := ch.line.last + 1
              let op : LamOp :=
                { num := n, shadow := w, prv := h.tstat.prv, group := h.group, core := k / 9, x := cx.lamx,
                  hold := min (lamHold w) cx.lamhold.toNat,
                  prio := min w.prio (cx.queues.getD kk.queue {}).prio, bar := bar }
              let s' := barUsed s bar
              let ch' : LamChannel := { line := { ch.line with last := n }, ops := ch.ops ++ [op] }
              .ok ((s'.setCtx cn { cx with lam := cx.lam.set (hd - 0x1000) ch' }).wrX k d (BitVec.ofNat 64 n))
    | _, _ => ill

/-! ## KLAUNCH (15 R367, 16 R379) -/

/-- Read `n` consecutive dwords as a hart's loads: the bytes, and where they lie. -/
def hartLoads (s : State) (h : Hart) (va : Word) : Nat → Except Stop (List Leaf × List Byte)
  | 0 => .ok ([], [])
  | n + 1 =>
    match hartLoad s h va 8 .load 0 with
    | .error e => .error e
    | .ok (l, v) =>
      match hartLoads s h (va + 8) n with
      | .error e => .error e
      | .ok t => .ok (l :: t.1, toBytes 8 v ++ t.2)

/-- Records in a ring, and the number of the next one appended (15 R364, 16 R377). -/
def Queue.held (q : Queue) : Nat := (q.wr + q.size - q.rd) % q.size
def Queue.nextNum (q : Queue) : Nat := q.base + q.held + 1

/-- KLAUNCH (16 R379). BANKENGINE is present in every variant (01 R36). -/
def execKlaunch (d a b : Reg) (s : State) : Out :=
  scalarOp s fun k h =>
    let va := h.rd a
    if va.toNat % 64 ≠ 0 then raise cMisaligned va
    else
      match hartLoads s h va 32 with
      | .error e => .error e
      | .ok (ls, bytes) =>
        let cn := s.ctxOf h
        let qn := (h.rd b).toNat
        match s.ctxs.get? cn with
        | none => raise cAccess (h.rd b)
        | some cx =>
          match cx.queues.get? qn with
          | none => raise cAccess (h.rd b)
          | some q =>
            if q.state = .disabled ∨ q.feed = false then raise cAccess (h.rd b)
            else if q.held = q.size - 1 then raise cQueueFull (h.rd b)
            else
              let n := q.nextNum
              let wr := (q.wr + 1) % q.size
              let s' := ls.foldl (fun s l => podUsed (countHart s l) l.pa) s
              let s' := store s' (q.ring + 256 * q.wr) bytes none
              let s' := physWrite s' (q.desc + 0x24) 4 wr
              let q' := { q with wr := wr, levels := q.levels.set q.wr h.tstat.prv,
                                 line := { q.line with last := n } }
              .ok ((s'.setCtx cn { cx with queues := cx.queues.set qn q' }).wrX k d
                (BitVec.ofNat 64 (n * 2 ^ 16 + 0x4000 + qn)))

end Sys2Proof.Machine
end

