-- ==== Sys2Proof/Machine/Operands.lean ====
section
/-! DEFINITION. The operands of vector words (03 R83; 05 R133 to R139): the vector length and its bound, the type
that dyn stands for, predicates, full/empty bits, and the elements of registers; and how a slot of a convoy
ends (03 R80, R81). -/
namespace Sys2Proof.Machine

/-! ## Slots of a convoy -/

/-- A slot completes: INSTRET counts one (04 R111). The last one resets VSTART and goes on after the convoy; any
other leaves VSTART at the next slot (03 R81). -/
def Hart.retireSlot (h : Hart) : Hart :=
  match h.slots with
  | _ :: n :: r => { h with instret := h.instret + 1, waitFor := none, draining := none, slots := n :: r, slot := h.slot + 1,
                            elem := 0, life := .issuing }
  | _ => { h with instret := h.instret + 1, waitFor := none, draining := none, slots := [], slot := 0, elem := 0,
                  pc := h.nextPc, life := .ready }

/-- The end of a slot at place `k`. -/
def finishSlot (s : State) (k : Nat) (r : Except Stop State) : Out :=
  match r with
  | .ok s' => .next (s'.modHart k Hart.retireSlot)
  | .error e => .next (s.stop k e)

/-- A slot word that its decoder accepts (03 R84, R85). -/
def slotLegal (i : Instr) : Bool :=
  match decodeEncoded (encode i) with | .ok _ => true | .error _ => false

/-- A vector slot (05 R135): VEC_ABSENT, then the VTYPE test of dyn (02 R39), then for an instruction on whole
registers the test of VSTART.ELEM (R137). `body` has the word with its type resolved. -/
def slotOp (mk : VWord → Instr) (w : VWord) (whole : Bool) (s : State)
    (body : Nat → Hart → VWord → Except Stop State) : Out :=
  match s.cur with
  | some (.hart k) =>
    let h := s.hart k
    finishSlot s k
      (if h.vstate = .off then raise cVecAbsent 0 (h.slot.zeroExtend 64)
       else
         let w' := if w.ty = 31 then { w with ty := h.vtype } else w
         if w'.ty = 31 ∨ slotLegal (mk w') = false ∨ (whole = true ∧ h.elem ≠ 0) then
           raise cIllegal (parcelWord (mk w))
         else body k h w')
  | _ => .fault .noAgent

/-! ## Vector length -/

/-- VLMAX of a type whose widest element has `wide` bits (05 R133). -/
def vlmax (grant t wide : Nat) : Nat :=
  if Ty.isBfp t then 32 * (grant / 8 / Ty.bfpBytes t) else grant / wide

/-- vl, checked against a bound (05 R135 step 2). -/
def vlCheck (h : Hart) (w : VWord) (bound : Nat) : Except Stop Nat :=
  let vl := (h.rd w.xl).toNat
  if bound < vl ∨ (Ty.isBfp w.ty.toNat = true ∧ vl % 32 ≠ 0) then
    raise cVlRange (h.rd w.xl) (h.slot.zeroExtend 64)
  else .ok vl

/-- Where a long instruction ends in this turn: at vl, or at the element boundary (the block boundary, for BFP) at
which the device stops it (05 R137). -/
def longEnd (h : Hart) (t vl : Nat) : Nat :=
  match h.cut with
  | some n => if h.elem.toNat < n ∧ n < vl ∧ (Ty.isBfp t = true → n % 32 = 0) then n else vl
  | none => vl

/-- A long instruction has done its elements below `hi`. -/
def endLong (k hi vl : Nat) (s : State) : Except Stop State :=
  if hi < vl then .error (.part (s.modHart k fun h => { h with elem := BitVec.ofNat 32 hi })) else .ok s

/-! ## Full and empty -/

/-- A failed register becomes full at the trap that reports it (06 R169). -/
def Hart.unfail (h : Hart) (r : Reg) : Hart :=
  { h with failed := h.failed.erase r.toNat, full := h.full ||| (1 <<< r.toNat) }

/-- The full/empty rules (05 R139): sources with their TE bits in order, then the destination. A failed register
traps whatever the TE bits, and its failure is over with the trap (06 R169). The register that this VEXTA itself marked empty when it began to wait does
not hold it up (R155). -/
def feCheck (s : State) (k : Nat) (h : Hart) (srcs : List (Reg × Bool)) (dst : Option Reg) : Except Stop Unit :=
  match (srcs.map (·.1) ++ dst.toList).find? fun r => (h.failed.get? r.toNat).isSome with
  | some r =>
    match h.failed.get? r.toNat with
    | some (a, e) => .error (.trapIn (if s.trapWaits k cUncorrectable then s else s.setHart k (h.unfail r))
        ⟨cUncorrectable, a, BitVec.ofNat 64 e⟩)
    | none => .ok ()
  | none =>
    match srcs.find? fun p => !h.full.getLsbD p.1.toNat with
    | some (r, true) => raise cFeEmpty (r.zeroExtend 64) (h.slot.zeroExtend 64)
    | some (_, false) => .error (.stall s)
    | none =>
      match dst with
      | some d => if h.full.getLsbD d.toNat || h.draining == some d.toNat then .ok () else .error (.stall s)
      | none => .ok ()

/-- The vector length and the full/empty rules (05 R135 steps 2 and 3). -/
def vecCheck (s : State) (k : Nat) (h : Hart) (w : VWord) (bound : Nat) (srcs : List (Reg × Bool))
    (dst : Option Reg) : Except Stop Nat :=
  match vlCheck h w bound with
  | .error e => .error e
  | .ok vl =>
    match feCheck s k h srcs dst with
    | .error e => .error e
    | .ok _ => .ok vl

/-- The v sources of a word with their TE bits (03 R83). -/
def src1 (w : VWord) : Reg × Bool := (w.vs1, w.te.getLsbD 0)
def src2 (w : VWord) : Reg × Bool := (w.vs2, w.te.getLsbD 1)
def src3 (w : VWord) : Reg × Bool := (w.vs3, w.te.getLsbD 2)

/-! ## Elements -/

/-- Bits of an element of the word's type. -/
def tyBits (w : VWord) : Nat := Ty.width w.ty.toNat

/-- Element `i` of `n` bits of a register (02 R40, R41). -/
def elemAt (v : BitVec 16384) (n i : Nat) : Nat := getField v (n * i) n

/-- v[r] of a hart, and p[r] from a 5-bit field that names a predicate register. -/
def Hart.vreg (h : Hart) (r : Reg) : BitVec 16384 := h.v[r.toNat]
def Hart.preg (h : Hart) (r : Nat) : BitVec 4096 := h.p[r % 8]'(Nat.mod_lt _ (by decide))

/-- Whether element `i` is active (05 R136). -/
def activeAt (w : VWord) (h : Hart) (i : Nat) : Bool := !w.me || (h.preg w.mp.toNat).getLsbD i

/-- Elements `lo` to `vl` − 1 of `n` bits, computed by `f` with their flags: an active one is written, an inactive
one is zeroed when POL is 1 (05 R136). -/
def fillElems {m : Nat} (old : BitVec m) (n lo vl : Nat) (act : Nat → Bool) (pol : Bool) (f : Nat → Nat × Flags) :
    BitVec m × Flags :=
  (List.range' lo (vl - lo)).foldl (fun (a : BitVec m × Flags) i =>
    if act i then
      let r := f i
      (putField a.1 (n * i) n r.1, a.2 ||| r.2)
    else if pol then (putField a.1 (n * i) n 0, a.2) else a) (old, 0)

/-- Write a v register: it is full, and VDIRTY and VSTATE follow (05 R136, R139; 04 R107). -/
def Hart.putV (h : Hart) (r : Reg) (v : BitVec 16384) : Hart :=
  { h with v := h.v.set r.toNat v, full := h.full ||| (1 <<< r.toNat),
           vdirty := h.vdirty ||| (1 <<< r.toNat), vstate := .dirty }

/-- Write a p register (05 R136; 04 R107). -/
def Hart.putP (h : Hart) (r : Nat) (v : BitVec 4096) : Hart :=
  { h with p := h.p.set (r % 8) v (Nat.mod_lt _ (by decide)),
           vdirty := h.vdirty ||| (1 <<< (32 + r % 8)), vstate := .dirty }

/-- Add to FFLAGS (02 R50). -/
def Hart.addFlags (h : Hart) (f : Flags) : Hart := { h with fflags := h.fflags ||| f }

/-- An element-wise v destination (05 R136, R137): `f` gives each element and its flags. With vl above 0 the register
counts as written even where VSTART.ELEM leaves no element to do (DESIGN CHOICE, log 60). -/
def vecWrite (s : State) (k : Nat) (h : Hart) (w : VWord) (n vl : Nat) (f : Nat → Nat × Flags) : State :=
  if vl = 0 then s
  else
    let r := fillElems (h.vreg w.vd) n h.elem.toNat vl (activeAt w h) w.pol f
    s.setHart k ((h.putV w.vd r.1).addFlags r.2)

/-- An element-wise predicate destination (05 R136): `f` gives each bit and its flags. -/
def predWrite (s : State) (k : Nat) (h : Hart) (w : VWord) (vl : Nat) (f : Nat → Bool × Flags) : State :=
  if vl = 0 then s
  else
    let r := fillElems (h.preg w.vd.toNat) 1 h.elem.toNat vl (activeAt w h) w.pol
      (fun i => let b := f i; (if b.1 then 1 else 0, b.2))
    s.setHart k ((h.putP w.vd.toNat r.1).addFlags r.2)

end Sys2Proof.Machine
end

