-- ==== Sys2Proof/Machine/Flags.lean ====
section
/-! DEFINITION. Element computations that raise flags (02 R50 to R52, R57; 05 R145, R147 to R150): each gives the
bits of its result and the flags that it sets in FFLAGS. -/
namespace Sys2Proof.Machine

/-- An element of type `t` as an integer: signed for i-types (05 R141). -/
def intElem (t bits : Nat) : Int :=
  if Ty.isSigned t then signedOf (Ty.width t) bits else (bits % 2 ^ Ty.width t : Nat)

/-- VNARROW of one element (05 R145): a ÷ 2^sh rounded to an integer and saturated to half the width. -/
def narrowElem (t sh : Nat) (mode : RMode) (bits n : Nat) : Nat × Flags :=
  let a := intElem t bits
  let r := roundInt mode (decide (a < 0)) a.natAbs (-(sh : Int)) n
  let d := Ty.width t / 2
  let lo : Int := if Ty.isSigned t then -(2 ^ (d - 1) : Nat) else 0
  let hi : Int := if Ty.isSigned t then (2 ^ (d - 1) : Nat) - 1 else (2 ^ d : Nat) - 1
  let x := satInt lo hi r.1
  (wrapInt d x, (if x ≠ r.1 then fOF ||| fNX else 0) ||| (if r.2 then fNX else 0))

/-- The smaller or larger of two floating elements (05 R148). -/
def minMaxElem (t : Nat) (larger : Bool) (a b : Nat) : Nat × Flags :=
  let x := decodeF t a
  let y := decodeF t b
  let fl := x.nv ||| y.nv
  if x.isNaN && y.isNaN then (canonNaN t, fl)
  else if x.isNaN then (b, fl)
  else if y.isNaN then (a, fl)
  else
    let c := x.cmp y
    let less := decide (c < 0) || (decide (c = 0) && x.isNeg && !y.isNeg)
    (if less != larger then a else b, fl)

/-- VFCMP of one element (05 R148). -/
def cmpElem (t cond a b : Nat) : Bool × Flags :=
  let x := decodeF t a
  let y := decodeF t b
  let nan := x.isNaN || y.isNaN
  let c := x.cmp y
  let quiet := x.nv ||| y.nv
  let loud : Flags := if nan then fNV else 0
  match cond with
  | 0 => (!nan && decide (c = 0), quiet)
  | 1 => (nan || decide (c ≠ 0), quiet)
  | 2 => (!nan && decide (c < 0), loud)
  | 3 => (!nan && decide (c ≤ 0), loud)
  | _ => (nan, quiet)

/-- An estimate of a finite, non-zero value: RNE to 8 significant bits within the exponent range of the format
(05 R150). -/
def estRound (t : Nat) (x : Val) : Nat × Flags :=
  match x with
  | .fin neg m e =>
    let lead : Int := (Nat.log2 m : Int) + e
    let q := max lead (1 - (fbias t : Int)) - 7
    let k := (roundAt .rne neg m e q 0).1
    let r := roundTo t .rne (.fin neg k q) 0
    (r.1, r.2 &&& fOF)
  | v => roundTo t .rne v 0

/-- VFRECE of one element (05 R150). -/
def recipElem (t bits : Nat) : Nat × Flags :=
  let q := (Val.fin false 1 0).div (decodeF t bits)
  let r := estRound t q.1
  (r.1, q.2 ||| r.2)

/-- VFRSQE of one element (05 R150): both zeros give an infinity of their sign. -/
def rsqrtElem (t bits : Nat) : Nat × Flags :=
  let a := (decodeF t bits).sqrt
  let q := (Val.fin false 1 0).div a.1
  let r := estRound t q.1
  (r.1, a.2 ||| q.2 ||| r.2)

/-- The value of element `i` of a register in a source format; a BFP element lies in its block (05 R149). -/
def srcVal (v : BitVec 16384) (t i : Nat) : Val :=
  if Ty.isBfp t then
    let b := 8 * Ty.bfpBytes t
    bfpElem (Ty.bfpM t) (getField v (b * (i / 32)) b) (i % 32)
  else decodeElem t (elemAt v (Ty.width t) i)

/-- A value converted to a format of 4 to 64 bits (02 R52, 05 R149), with SR index `n`. -/
def cvtVal (d : Nat) (mode : RMode) (x : Val) (n : Nat) : Nat × Flags :=
  if Ty.isFloat d then
    let r := roundTo d mode x n
    (r.1, x.nv ||| r.2)
  else toIntFmt d mode x n

end Sys2Proof.Machine
end

