-- ==== Sys2Proof/Machine/Vfpu.lean ====
section
/-! DEFINITION. VFPU: floating element operations (05 R147 to R150). -/
namespace Sys2Proof.Machine

/-- A VFPU word of one, two or three sources: `f` gives the result and flags from the type, the mode and the
elements. -/
def vfpuOp (mk : VWord → Instr) (w : VWord) (srcs : VWord → List (Reg × Bool))
    (f : Nat → RMode → Nat → Nat → Nat → Nat × Flags) (s : State) : Out :=
  slotOp mk w false s fun k h w =>
    let n := tyBits w
    let t := w.ty.toNat
    match vecCheck s k h w (vlmax h.vgrant t n) (srcs w) (some w.vd) with
    | .error e => .error e
    | .ok vl => .ok (vecWrite s k h w n vl fun i =>
        f t (arithMode h.frm w.rm) (elemAt (h.vreg w.vs1) n i) (elemAt (h.vreg w.vs2) n i)
          (elemAt (h.vreg w.vs3) n i))

def srcs1 (w : VWord) : List (Reg × Bool) := [src1 w]
def srcs2 (w : VWord) : List (Reg × Bool) := [src1 w, src2 w]
def srcs3 (w : VWord) : List (Reg × Bool) := [src1 w, src2 w, src3 w]

/-- VFADD (05 R147). -/
def execVfadd (w : VWord) (s : State) : Out :=
  vfpuOp .vfadd w srcs2 (fun t m a b _ => fAdd t m (decodeF t a) (decodeF t b)) s
/-- VFSUB (05 R147). -/
def execVfsub (w : VWord) (s : State) : Out :=
  vfpuOp .vfsub w srcs2 (fun t m a b _ => fAdd t m (decodeF t a) (decodeF t b).neg) s
/-- VFMUL (05 R147). -/
def execVfmul (w : VWord) (s : State) : Out :=
  vfpuOp .vfmul w srcs2 (fun t m a b _ => fMul t m (decodeF t a) (decodeF t b)) s
/-- VFMA (05 R147). -/
def execVfma (w : VWord) (s : State) : Out :=
  vfpuOp .vfma w srcs3 (fun t m a b c => fFma t m (decodeF t a) (decodeF t b) (decodeF t c)) s
/-- VFMS (05 R147). -/
def execVfms (w : VWord) (s : State) : Out :=
  vfpuOp .vfms w srcs3 (fun t m a b c => fFma t m (decodeF t a) (decodeF t b) (decodeF t c).neg) s
/-- VFNMA (05 R147). -/
def execVfnma (w : VWord) (s : State) : Out :=
  vfpuOp .vfnma w srcs3 (fun t m a b c => fFma t m (decodeF t a).neg (decodeF t b) (decodeF t c)) s
/-- VFDIV (05 R147). -/
def execVfdiv (w : VWord) (s : State) : Out :=
  vfpuOp .vfdiv w srcs2 (fun t m a b _ => fDiv t m (decodeF t a) (decodeF t b)) s
/-- VFSQRT (05 R147). -/
def execVfsqrt (w : VWord) (s : State) : Out :=
  vfpuOp .vfsqrt w srcs1 (fun t m a _ _ => fSqrt t m (decodeF t a)) s
/-- VFMIN (05 R148). -/
def execVfmin (w : VWord) (s : State) : Out :=
  vfpuOp .vfmin w srcs2 (fun t _ a b _ => minMaxElem t false a b) s
/-- VFMAX (05 R148). -/
def execVfmax (w : VWord) (s : State) : Out :=
  vfpuOp .vfmax w srcs2 (fun t _ a b _ => minMaxElem t true a b) s
/-- VFRECE (05 R150). -/
def execVfrece (w : VWord) (s : State) : Out :=
  vfpuOp .vfrece w srcs1 (fun t _ a _ _ => recipElem t a) s
/-- VFRSQE (05 R150). -/
def execVfrsqe (w : VWord) (s : State) : Out :=
  vfpuOp .vfrsqe w srcs1 (fun t _ a _ _ => rsqrtElem t a) s

/-- VFCMP (05 R148). -/
def execVfcmp (w : VWord) (s : State) : Out :=
  slotOp .vfcmp w false s fun k h w =>
    let n := tyBits w
    let t := w.ty.toNat
    match vecCheck s k h w (vlmax h.vgrant t n) (srcs2 w) none with
    | .error e => .error e
    | .ok vl => .ok (predWrite s k h w vl fun i =>
        cmpElem t (bitsAt w.imm.toNat 0 3) (elemAt (h.vreg w.vs1) n i) (elemAt (h.vreg w.vs2) n i))

/-- The blocks of a BFP destination, from block `lo` (02 R57): `x` gives each element's value and SR index. -/
def quantBlocks (old : BitVec 16384) (t lo count : Nat) (mode : RMode) (x : Nat → Val × Nat) :
    BitVec 16384 × Flags :=
  let b := 8 * Ty.bfpBytes t
  (List.range' lo (count - lo)).foldl (fun (a : BitVec 16384 × Flags) j =>
    let r := quantBfp (Ty.bfpM t) mode ((List.range 32).map fun i => x (32 * j + i))
    (putField a.1 (b * j) b r.1, a.2 ||| r.2)) (old, 0)

/-- VLMAX of VFCVT (05 R133): the smaller bound of the two formats. -/
def cvtBound (grant d src : Nat) : Nat :=
  let w := grant / max (Ty.width d) (Ty.width src)
  let n := if Ty.isBfp d then min w (vlmax grant d 8) else if Ty.isBfp src then min w (vlmax grant src 8) else w
  if Ty.isBfp d || Ty.isBfp src then 32 * (n / 32) else n

/-- VFCVT (05 R149). A BFP destination begins at the block that holds VSTART.ELEM. R135's VL_RANGE of a BFP type is taken
for a BFP source too (DESIGN CHOICE, log 60). -/
def execVfcvt (w : VWord) (s : State) : Out :=
  slotOp .vfcvt w false s fun k h w =>
    let d := w.ty.toNat
    let src := bitsAt w.imm.toNat 0 5
    let mode := cvtMode h.frm w.rm h.srseed h.srbase
    let vl := (h.rd w.xl).toNat
    let v1 := h.vreg w.vs1
    if cvtBound h.vgrant d src < vl ∨ ((Ty.isBfp d || Ty.isBfp src) = true ∧ vl % 32 ≠ 0) then
      raise cVlRange (h.rd w.xl) (h.slot.zeroExtend 64)
    else
      match feCheck s k h (srcs1 w) (some w.vd) with
      | .error e => .error e
      | .ok _ =>
        if Ty.isBfp d then
          if vl = 0 then .ok s
          else
            let r := quantBlocks (h.vreg w.vd) d (h.elem.toNat / 32) (vl / 32) mode fun i => (srcVal v1 src i, i)
            .ok (s.setHart k ((h.putV w.vd (bfpTrim h.vgrant d r.1)).addFlags r.2))
        else .ok (vecWrite s k h w (Ty.width d) vl fun i => cvtVal d mode (srcVal v1 src i) i)

end Sys2Proof.Machine
end

