-- ==== Sys2Proof/Machine/Vxq.lean ====
section
/-! DEFINITION. The cross-element queue VXQ (05 R154), the accumulator unit VACC (R155 to R157; 12 R313, R314) and
the stream registers VSTR (06 R175 to R177). -/
namespace Sys2Proof.Machine

/-! ## VXQ -/

/-- A VXQ word (05 R154): `ident` is the carry it starts from when ID is set at element 0, and `f` gives the next
carry from the type, the mode, the carry and the elements of vs1 and vs2. With VSTART.ELEM at or past vl it writes nothing and marks nothing
(DESIGN CHOICE, log 60). -/
def vxqOp (mk : VWord → Instr) (w : VWord) (srcs : VWord → List (Reg × Bool)) (ident : Nat → Nat)
    (f : Nat → RMode → Nat → Nat → Nat → Nat × Flags) (s : State) : Out :=
  slotOp mk w false s fun k h w =>
    let n := tyBits w
    let t := w.ty.toNat
    match vecCheck s k h w (vlmax h.vgrant t n) (srcs w) (some w.vd) with
    | .error e => .error e
    | .ok vl =>
      let lo := h.elem.toNat
      let hi := longEnd h t vl
      if vl ≤ lo then .ok s
      else
        let c0 := if lo = 0 ∧ w.imm.getLsbD 0 = true then ident t else h.vxqc.toNat % 2 ^ n
        let r := (List.range' lo (hi - lo)).foldl (fun (a : BitVec 16384 × Nat × Flags) i =>
          if activeAt w h i then
            let x := f t (arithMode h.frm w.rm) a.2.1 (elemAt (h.vreg w.vs1) n i) (elemAt (h.vreg w.vs2) n i)
            (putField a.1 (n * i) n x.1, x.1, a.2.2 ||| x.2)
          else (if w.pol then putField a.1 (n * i) n 0 else a.1, a.2.1, a.2.2)) (h.vreg w.vd, c0, 0)
        endLong k hi vl (s.setHart k { (h.putV w.vd r.1).addFlags r.2.2 with vxqc := BitVec.ofNat 64 r.2.1 })

/-- VXQADD (05 R154). -/
def execVxqadd (w : VWord) (s : State) : Out :=
  vxqOp .vxqadd w srcs1 (fun _ => 0)
    (fun t m c a _ => if Ty.isInt t then ((c + a) % 2 ^ Ty.width t, 0) else fAdd t m (decodeF t c) (decodeF t a)) s
/-- VXQMAX (05 R154). -/
def execVxqmax (w : VWord) (s : State) : Out :=
  vxqOp .vxqmax w srcs1 (fun t => wrapInt (Ty.width t) (intMin t))
    (fun t _ c a _ => (if intElem t c < intElem t a then a else c, 0)) s
/-- VXQFMA (05 R154). -/
def execVxqfma (w : VWord) (s : State) : Out :=
  vxqOp .vxqfma w srcs2 (fun _ => 0)
    (fun t m c a b => fFma t m (decodeF t a) (decodeF t c) (decodeF t b)) s

/-! ## VACC -/

/-- Accumulator n of a core. -/
def Core.accAt (c : Core) (n : Nat) : BitVec 131072 := c.acc[n % 4]'(Nat.mod_lt _ (by decide))
def Core.queue (c : Core) (n : Nat) : List Nat := c.accQ[n % 4]'(Nat.mod_lt _ (by decide))
def Core.putAcc (c : Core) (n : Nat) (v : BitVec 131072) : Core :=
  { c with acc := c.acc.set (n % 4) v (Nat.mod_lt _ (by decide)) }
def Core.putQueue (c : Core) (n : Nat) (q : List Nat) : Core :=
  { c with accQ := c.accQ.set (n % 4) q (Nat.mod_lt _ (by decide)) }

/-- The matrix word in progress names accumulator n. -/
def Core.accBusy (c : Core) (n : Nat) : Bool :=
  match c.job with
  | some j => match j.acc with | some (m, _) => m == n | none => false
  | none => false

/-- The VACC instruction of the hart at place `k` joins accumulator n's order (12 R314): it proceeds as the oldest
waiting member once no matrix word on it is incomplete, and is STALLED until then. -/
def accTurn (s : State) (k n : Nat) : Except Stop State :=
  let c := s.core (k / 9)
  let q := if (c.queue n).contains k then c.queue n else c.queue n ++ [k]
  if q.head? = some k ∧ c.accBusy n = false then .ok (s.setCore (k / 9) (c.putQueue n q.tail))
  else .error (.stall (s.setCore (k / 9) (c.putQueue n q)))

/-- A VACC word: `act` has the element at which it ends, e0 = x[vs3] and the accumulator, and gives the hart and the accumulator after it. -/
def vaccOp (mk : VWord → Instr) (w : VWord) (bound : Hart → VWord → Nat) (srcs : VWord → List (Reg × Bool))
    (dst : VWord → Option Reg) (act : VWord → Hart → Nat → Nat → BitVec 131072 → Hart × BitVec 131072)
    (s : State) : Out :=
  slotOp mk w false s fun k h w =>
    match vecCheck s k h w (bound h w) (srcs w) (dst w) with
    | .error e => .error e
    | .ok vl =>
      let e0 := (h.rd w.vs3).toNat
      let n := bitsAt w.imm.toNat 0 2
      if 4096 < e0 + vl ∨ (Ty.isBfp w.ty.toNat = true ∧ e0 % 32 ≠ 0) then
        raise cVlRange (h.rd w.xl) (h.slot.zeroExtend 64)
      else if vl = 0 then .ok s
      else
        match accTurn s k n with
        | .error (.stall s) => .error (.stall (match dst w with
            | some d => s.modHart k fun h => { h.emptied d.toNat with draining := some d.toNat, vstate := .dirty }
            | none => s))
        | .error e => .error e
        | .ok s =>
          let c := s.core (k / 9)
          let hi := longEnd h w.ty.toNat vl
          let r := act w h hi e0 (c.accAt n)
          endLong k hi vl ((s.setCore (k / 9) (c.putAcc n r.2)).setHart k r.1)

/-- FP32 element e of an accumulator. -/
def accElem (a : BitVec 131072) (e : Nat) : Val := decodeF 9 (getField a (32 * e) 32)

/-- VEXTA (05 R155). vd is empty while the instruction waits for its accumulator; the drain itself is whole at one
step. -/
def execVexta (w : VWord) (s : State) : Out :=
  vaccOp .vexta w (fun h w => vlmax h.vgrant w.ty.toNat (tyBits w)) (fun _ => []) (fun w => some w.vd)
    (fun w h vl e0 a =>
      let t := w.ty.toNat
      let lo := h.elem.toNat
      let mode := cvtMode h.frm w.rm h.srseed h.srbase
      let z := w.imm.getLsbD 2
      if Ty.isBfp t then
        let r := quantBlocks (h.vreg w.vd) t (lo / 32) (vl / 32) mode fun i => (accElem a (e0 + i), e0 + i)
        ((h.putV w.vd (bfpTrim h.vgrant t r.1)).addFlags r.2,
          if z then putField a (32 * (e0 + 32 * (lo / 32))) (32 * (vl - 32 * (lo / 32))) 0 else a)
      else
        let r := fillElems (h.vreg w.vd) (tyBits w) lo vl (activeAt w h) w.pol
          (fun i => cvtVal t mode (accElem a (e0 + i)) (e0 + i))
        let b := (List.range' lo (vl - lo)).foldl (fun (b : BitVec 131072) i =>
          if z && activeAt w h i then putField b (32 * (e0 + i)) 32 0 else b) a
        ((h.putV w.vd r.1).addFlags r.2, b)) s

/-- VINSA (05 R156). -/
def execVinsa (w : VWord) (s : State) : Out :=
  vaccOp .vinsa w (fun h w => vlmax h.vgrant w.ty.toNat (tyBits w)) srcs1 (fun _ => none)
    (fun w h vl e0 a =>
      let lo := h.elem.toNat
      let r := (List.range' lo (vl - lo)).foldl (fun (b : BitVec 131072 × Flags) i =>
        if activeAt w h i then
          let x := cvtVal 9 .rne (decodeElem w.ty.toNat (elemAt (h.vreg w.vs1) (tyBits w) i)) 0
          (putField b.1 (32 * (e0 + i)) 32 x.1, b.2 ||| x.2)
        else if w.pol then (putField b.1 (32 * (e0 + i)) 32 0, b.2) else b) (a, 0)
      (h.addFlags r.2, r.1)) s

/-- VZERA (05 R156): VLMAX is 4,096 at every grant. -/
def execVzera (w : VWord) (s : State) : Out :=
  vaccOp .vzera w (fun _ _ => 4096) (fun _ => []) (fun _ => none)
    (fun _ h vl e0 a =>
      let lo := h.elem.toNat
      (h, putField a (32 * (e0 + lo)) (32 * (vl - lo)) 0)) s

/-! ## VSTR -/

/-- The width and block of a stream format as SRD compares them with its type (06 R176). Each BFP format has a width of
its own (DESIGN CHOICE, log 60). -/
def strmWidth (t : Nat) : Nat := if Ty.isBfp t then 1000 + Ty.bfpBytes t else Ty.width t

/-- SRD (06 R176), from VSTART.ELEM on. It marks vd empty, and its hart issues on; the device delivers the elements as
they land (log 23). -/
def execSrd (w : VWord) (s : State) : Out :=
  slotOp .srd w false s fun k h w =>
    let t := w.ty.toNat
    let n := w.vs1.toNat
    let r := h.strm n
    match vecCheck s k h w (vlmax h.vgrant t (tyBits w)) [] (some w.vd) with
    | .error e => .error e
    | .ok vl =>
      if r.state = .faulted then raise cEngineFault (r.handle.zeroExtend 64) (BitVec.ofNat 64 r.num)
      else if r.state ≠ .unbound ∧ strmWidth t ≠ strmWidth r.fmt.toNat then
        raise cHeaderFormat (BitVec.ofNat 64 (coreBase (k / 9) + 0x11_0000 + 0x4000 * (n % 4))) (r.fmt.zeroExtend 64)
      else if vl = 0 then .ok (s.setHart k { h.hushReads with ffi := 0, vstate := .dirty })
      else
        let h := (h.putV w.vd (h.vreg w.vd)).emptied w.vd.toNat
        let x : StreamRead :=
          { vd := w.vd.toNat, strm := n % 4, ty := t, done := h.elem.toNat, vl := vl, pc := h.pc, slot := h.slot,
            next := ((Hart.retireSlot h).pc, (Hart.retireSlot h).slot), count := h.instret + 1 }
        .ok (s.setHart k (Hart.advanceReads { h with reads := h.reads ++ [x] }))

/-- SRSTAT (06 R177): a snapshot of a stream register, once every SRD before it that is not stopped has taken its
elements. -/
def execSrstat (w : VWord) (s : State) : Out :=
  slotOp .srstat w false s fun k h w =>
    if !h.readsHeld && h.reads.any fun x => x.strm == w.vs1.toNat % 4 then .error (.stall s)
    else
      let r := h.strm w.vs1.toNat
      .ok (s.wrX k w.vd (BitVec.ofNat 64 (r.state.code + r.handle.toNat * 2 ^ 16 +
        min r.avail (2 ^ 32 - 1) * 2 ^ 32)))

end Sys2Proof.Machine
end

