-- ==== Sys2Proof/Machine/BankOps.lean ====
section
/-! DEFINITION. What every bank word shares (10 R251 to R259, 11 R282 to R290): the banks of a stream, rows of the
array, the timing scoreboard, the checks of a word, its beginning in each bank, bank traps and faults. A tower's
time is its cycle count `now`; whatever a stream has begun ends at a cycle that the state holds, and no word
begins past such an end before the end has come about (log 19). -/
namespace Sys2Proof.Machine

/-! ## Banks of a stream -/

/-- The key of bank 0 of a stream's pseudo-channel. -/
def pcBase (i : Nat) : Nat := 1024 * (i / 256) + 16 * (i % 256 / 4)

/-- The banks of a mask, by index. -/
def bankList (m : BitVec 16) : List Nat := (List.range 16).filter fun b => m.getLsbD b

/-- The group index of a bank (11 R282, R294). -/
def groupIndex (bound : BitVec 16) (b : Nat) : Nat := ((List.range b).filter fun x => bound.getLsbD x).length

/-- Banks as a mask of group indices (11 R288). -/
def groupMask (bound : BitVec 16) (bs : List Nat) : Nat := bs.foldl (fun a b => a ||| 2 ^ groupIndex bound b) 0

def maskOf (bs : List Nat) : BitVec 16 := bs.foldl (fun a b => a ||| ((1 : BitVec 16) <<< b)) 0

/-- The executing banks of a word (11 R283). -/
def executing (s : State) (i : Nat) (st : Stream) (pr : Bool) : List Nat :=
  (bankList st.mask).filter fun b => !pr || (s.bank (pcBase i + b)).pred

/-- The active banks (11 R287). -/
def activeBanks (s : State) (i : Nat) (st : Stream) : List Nat := executing s i st true

/-- The banks that a stream controls, the other part of a serialised split with them. -/
def streamBanks (s : State) (i : Nat) : List Nat :=
  ((List.range 16).map (pcBase i + ·)).filter fun b => (s.bank b).owner == some i

/-- A bank is present and live. -/
def bankLive (s : State) (b : Nat) : Bool :=
  decide (b / 1024 < s.variant.towers) && (s.tower (b / 1024)).isLive (b % 1024 / 16) (b % 16)

def State.modBank (s : State) (k : Nat) (f : Bank → Bank) : State := s.setBank k (f (s.bank k))
def State.modStream (s : State) (i : Nat) (f : Stream → Stream) : State := s.setStream i (f (s.stream i))
def State.modTower (s : State) (t : Nat) (f : Tower → Tower) : State := s.setTower t (f (s.tower t))

/-- A b register; b0 reads the group index of its bank (11 R284). -/
def bRead (s : State) (st : Stream) (i b : Nat) (r : BitVec 4) : Word :=
  if r = 0 then BitVec.ofNat 64 (groupIndex st.bound b) else (s.bank (pcBase i + b)).b[r.toNat]

/-- Write a b register; a write to b0 is discarded (11 R284). -/
def Bank.wrB (x : Bank) (r : BitVec 4) (v : Word) : Bank := if r = 0 then x else { x with b := x.b.set r.toNat v }

/-- The low 32 bits of a b register as a signed integer (10 R268). -/
def bInt (v : Word) : Int := signedOf 32 v.toNat

/-! ## Rows of the array -/

/-- The RLPA of the first byte of a row of a bank (01 R21). -/
def rowKey (key group row : Nat) : Nat := rlpa (key / 1024) (key % 1024 / 16) (key % 16) group row 0

/-- The cells of a row from its bits; a zero byte is not listed. -/
def rowCells (base : Nat) (bits : BitVec 65536) : List Host.Cell :=
  ((List.range 8192).map fun o => (base + o, BitVec.ofNat 8 (getField bits (8 * o) 8))).filter fun c => c.2 != 0

/-- Row x of group g of a bank: its bits, and the lines that cannot be corrected. Row 0 reads as zero (01 R22). -/
def rowRead (s : State) (key group row : Nat) : BitVec 65536 × BitVec 128 :=
  if row = 0 then (0, 0)
  else
    let base := rowKey key group row
    (BitVec.ofNat 65536 (s.mem.foldl (fun v c =>
        if base ≤ c.1 ∧ c.1 < base + 8192 then v + c.2.toNat * 2 ^ (8 * (c.1 - base)) else v) 0),
      s.bad.foldl (fun m u => if base ≤ u ∧ u < base + 8192 then m ||| ((1 : BitVec 128) <<< ((u - base) / 64)) else m) 0)

/-- Write a row whole, with its uncorrectable lines (10 R259, R271). -/
def rowWrite (s : State) (key group row : Nat) (bits : BitVec 65536) (bad : BitVec 128) : State :=
  let base := rowKey key group row
  let s := { s with
    mem := s.mem.filter (fun c => decide (c.1 < base)) ++ rowCells base bits ++
      s.mem.filter (fun c => decide (base + 8192 ≤ c.1)),
    bad := s.bad.filter (fun u => decide (u < base)) ++
      ((List.range 128).filter (fun l => bad.getLsbD l)).map (fun l => base + 64 * l) ++
      s.bad.filter (fun u => decide (base + 8192 ≤ u)) }
  markSeen s ((List.range 128).map fun l => base / 64 + l) none

/-! ## Slots (10 R252) -/

def Bank.slotAt (x : Bank) (n : Nat) : Slot := x.slot[n % 4]'(Nat.mod_lt _ (by decide))
def Bank.putSlot (x : Bank) (n : Nat) (y : Slot) : Bank := { x with slot := x.slot.set (n % 4) y (Nat.mod_lt _ (by decide)) }
def Bank.qAt (x : Bank) (q : Bool) : BitVec 131072 := if q then x.q[1] else x.q[0]
def Bank.putQ (x : Bank) (q : Bool) (v : BitVec 131072) : Bank :=
  { x with q := if q then x.q.set 1 v else x.q.set 0 v }

/-- A slot is the one of an RCOPY in progress. -/
def Bank.copying (x : Bank) (n : Nat) : Bool := x.rcopy.any fun r => r.slot == n

/-- The state a slot will have once every earlier word has taken effect (10 R255): none for CLOSED, else whether
it is dirty. An RCOPY leaves its slot CLOSED (R474). -/
def Bank.projected (x : Bank) (n : Nat) : Option Bool :=
  if x.copying n then none
  else match (x.slotAt n).state with
    | .closed => none | .precharging => none | .openDirty => some true | _ => some false

def Bank.isOpen (x : Bank) (n : Nat) : Bool :=
  !x.copying n && ((x.slotAt n).state == .openClean || (x.slotAt n).state == .openDirty)

/-- The lanes and the bank are free (10 R253, R255, R272). -/
def Bank.lanesFree (x : Bank) : Bool := x.pass.isNone && x.refb.isNone

/-- A pass in progress reads or writes a slot. -/
def Bank.passOn (x : Bank) (n : Nat) : Bool :=
  match x.pass with
  | some p => p.reads.contains n || (match p.target with | .slot m _ _ => m == n | _ => false)
  | none => false

/-! ## Time (10 R254 to R256) -/

def tACU : Nat := 16
def tAPR : Nat := 28
def tWBK : Nat := 12
def tPRE : Nat := 12
def tAAD : Nat := 4
def tFAW : Nat := 20
def tPass : Nat := 32
def tRcopy : Nat := 56
def tRefb : Nat := 280
def tMove : Nat := 8
/-- The nominal refresh interval (10 R260). -/
def tREFI : Nat := 3120

/-- The cycles at which what is in progress in a bank ends. -/
def Bank.dues (x : Bank) : List Nat :=
  ((List.range 4).filterMap fun n =>
    let y := x.slotAt n
    if x.copying n then none
    else match y.state with
      | .opening => some y.due | .writing => some y.due | .precharging => some y.due | _ => none) ++
  (match x.pass with | some p => [p.due] | none => []) ++
  x.rcopy.map (fun r => r.start + tRcopy) ++ x.refb.toList ++ x.yieldCopies.map (·.1)

/-! ## Boundaries (11 R298, 10 R281) -/

/-- The place of a stream in its code: CODELEN 512 when it has run off the buffer (11 R285). -/
def Stream.pos (st : Stream) : Nat := if st.ranOff then 512 else st.bpc.toNat
def Stream.goTo (st : Stream) (n : Nat) : Stream := { st with bpc := BitVec.ofNat 9 n, ranOff := decide (n = 512) }

def Stream.word (st : Stream) : Option (BitVec 64) := st.code[st.pos]?

def Stream.inSweep (st : Stream) : Bool :=
  match st.word with
  | some w => (match decodeBank w with | .ok (.rsweep _) => true | _ => false)
  | none => false

/-- The stream is within an RSWEEP that has begun. -/
def Stream.sweeping (st : Stream) : Bool := st.checked && st.inSweep

/-- A row boundary (11 R298): nothing in progress in any bank of the stream, nor a service in its slots (R299); between
rows of an RSWEEP, with its slot CLOSED, and between moves of a SHMOV (10 R281, R295). -/
def rowBoundary (s : State) (i : Nat) (st : Stream) : Bool :=
  st.phase == 0 && (!st.sweeping || st.begun == 0) && (bankList st.mask).all fun b =>
    let x := s.bank (pcBase i + b)
    x.pass.isNone && x.rcopy.isEmpty && x.refb.isNone && x.plan.isEmpty && x.yieldCopies.isEmpty &&
      !(st.sweeping && (List.range 4).any fun n => (x.slotAt n).state == .precharging)

/-- A row boundary at which the word in progress has begun in no bank: where a trap is taken and where a stream
parks. -/
def atBoundary (s : State) (i : Nat) (st : Stream) : Bool := st.begun == 0 && rowBoundary s i st

/-! ## Yields in a slot (11 R299) -/

/-- A yield's step has to wait: its slot is amid a passage or a row pass, or a copy to or from the yield row that comes
before the step has not ended. -/
def Bank.inTransit (x : Bank) (p : YieldStep) : Bool :=
  let y := (x.slotAt p.slot).state
  y == .opening || y == .writing || y == .precharging || x.passOn p.slot ||
    x.yieldCopies.any fun q => q.2.1 == p.slot && decide (q.1 ≤ p.at_)

/-- A yield's step begins in a slot of a bank. -/
def beginStep (s : State) (key : Nat) (p : YieldStep) : State :=
  let row (n : Nat) := rowRead s key p.slot n
  s.modBank key fun x =>
    let y := x.slotAt p.slot
    let x := if p.act = .pass then { x with pass := some ⟨p.at_ + tPass, [p.slot], .nothing, false⟩ } else x
    x.putSlot p.slot (match p.act with
      | .pass => y
      | .activate r => { state := .opening, row := r, bits := (row r).1, bad := (row r).2, due := p.at_ + tACU, actAt := p.at_ }
      | .precharge => { y with state := .precharging, due := p.at_ + tPRE }
      | .shut was => { was with state := .precharging, due := p.at_ + tPRE }
      | .restore was dirty =>
        let r := if dirty then row was.row else (was.bits, was.bad)
        { was with state := .opening, bits := r.1, bad := r.2, due := p.at_ + tACU, actAt := p.at_ })

/-- The steps of the yields in a bank that have come by a cycle begin, each once its slot's last passage has ended. The
fuel bounds the slots. -/
def beginSteps (c key : Nat) : Nat → State → State
  | 0, s => s
  | f + 1, s =>
    match (s.bank key).plan.find? fun p => decide (p.at_ ≤ c) && !(s.bank key).inTransit p with
    | none => s
    | some p => beginSteps c key f ((beginStep s key p).modBank key fun x => { x with plan := x.plan.erase p })

/-- The same in every bank of a tower. -/
def yieldsTo (s : State) (t c : Nat) : State :=
  (s.banks.filter fun p => p.1 / 1024 == t && p.2.plan != []).foldl (fun s p => beginSteps c p.1 4 s) s

/-! ## Lamination entries that wait for their banks (13 R343) -/

/-- Two entries' bank sets overlap. -/
def banksMeet (a b : LamKey) : Bool := a.p0 / 2 ^ 31 == b.p0 / 2 ^ 31 && (a.banks &&& b.banks) != 0

/-- Entry `a` stands ahead of `b` in the order of R343. -/
def ahead (i : Nat) (a : LamEntry) (j : Nat) (b : LamEntry) : Bool :=
  decide (b.prio < a.prio) || (a.prio == b.prio &&
    (decide (a.deadline < b.deadline) || (a.deadline == b.deadline && decide (i < j))))

/-- LAM_COMPUTE_START may occur (13 R343). -/
def mayCompute (x : Tower) (entry : Nat) : Bool :=
  let e := x.lam.getD entry {}
  e.state == .dispatched && x.lam.all fun p =>
    p.1 == entry || !banksMeet p.2.key e.key ||
      !(p.2.state == .computing || (p.2.state == .dispatched && ahead p.1 p.2 entry e))

/-- An entry could begin COMPUTING, which it does as soon as it can (13 R343): until it has, no arrival is placed, no
other entry is DISPATCHED or leaves, and the tower's time stands still. -/
def computePending (x : Tower) : Bool := x.lam.any fun p => mayCompute x p.1

/-! ## The passing of time -/

/-- The ends that stand in a tower: of what its banks do, of a refresh interval of a controlled bank (10 R260), of a
yield, and of the wait of a lamination entry (13 R341, R343). -/
def ends (s : State) (t : Nat) : List Nat :=
  (s.banks.filter fun p => p.1 / 1024 == t).flatMap (fun p =>
      (if p.2.owner.isSome then [p.2.refAt + tREFI] else []) ++ p.2.dues) ++
    ((s.tower t).lam.filterMap fun p => if p.2.state = .forming then some p.2.deadline else none) ++
    (if computePending (s.tower t) then [(s.tower t).now] else []) ++
    (s.streams.filterMap fun p => if p.1 / 256 = t ∧ p.2.state = .suspended then some p.2.yieldDue else none)

/-- The yields that wait in a tower for a cycle: each comes after the arbitration window of its stream, once that
stands at a row boundary (11 R298). -/
def yieldsWait (s : State) (t : Nat) : List Nat :=
  s.streams.filterMap fun p =>
    if p.1 / 256 = t ∧ p.2.state ≠ .parked ∧ rowBoundary s p.1 p.2 = true then
      p.2.window.map fun e => max (s.tower t).now (e + 1)
    else none

/-- The next end, or yield, in a tower. -/
def nextDue (s : State) (t : Nat) : Option Nat := (ends s t ++ yieldsWait s t).min?

/-- Nothing ends at or before a cycle that has not come about. -/
def timeOk (s : State) (t c : Nat) : Bool :=
  match nextDue (yieldsTo s t c) t with | some d => decide (c < d) | none => true

/-- The banks of a stream with a deadline pending. -/
def deadlineBanks (s : State) (st : Stream) (i : Nat) : List Nat :=
  (bankList st.mask).filter fun b => (s.bank (pcBase i + b)).deadline

/-- REFRESH_DEADLINE can be taken (10 R262): between words, by a stream outside its handler whose kernel has not
faulted, before a forced refresh has begun, and once every interval that ends now has raised its bank's debt. -/
def deadlineReady (s : State) (i : Nat) (st : Stream) : Bool :=
  (st.state == .running || st.state == .waiting) && !st.stopping && deadlineBanks s st i != [] &&
    atBoundary s i st && ((bankList st.mask).all fun b => !(s.bank (pcBase i + b)).forced) &&
    (ends s (i / 256)).all fun d => decide ((s.tower (i / 256)).now < d)

/-- The cycle of a stream's next word. -/
def streamNow (s : State) (i : Nat) (st : Stream) : Nat := max (s.tower (i / 256)).now st.readyAt

/-- The BJOIN at which a stream waits has its partner (11 R293). -/
def Stream.joined (st : Stream) : Bool :=
  match st.word.map decodeBank, st.split with
  | some (.ok (.bjoin _)), e :: _ => (match e.kind with | .parallel _ => false | _ => true)
  | _, _ => false

/-- A stream may yet act before a cycle (10 R255): it has not found that its word must wait, its BJOIN has its partner,
or it is to take a deadline. -/
def pressing (s : State) (i : Nat) (st : Stream) (c : Nat) : Bool :=
  decide (streamNow s i st < c) &&
    (((st.state == .running || st.state == .handler) && !st.held) ||
      (st.state == .waiting && (st.joined || deadlineReady s i st)))

/-- No other stream of a stream's tower may act before a cycle. -/
def noneBefore (s : State) (i c : Nat) : Bool :=
  s.streams.all fun p => p.1 == i || p.1 / 256 != i / 256 || !pressing s p.1 p.2 c

/-- A tower's time may reach a cycle: nothing ends before it, and no stream acts before it (00 R2, 10 R255). -/
def mayPass (s : State) (t c : Nat) : Bool :=
  (match nextDue (yieldsTo s t c) t with | some d => decide (c ≤ d) | none => true) &&
    s.streams.all fun p => p.1 / 256 != t || !pressing s p.1 p.2 c

/-- A tower's time reaches a cycle; the streams that waited may go on. -/
def reach (s : State) (t c : Nat) : State :=
  let s := yieldsTo (s.modTower t fun x => { x with now := max x.now c }) t c
  { s with streams := s.streams.map fun p => if p.1 / 256 = t then (p.1, { p.2 with held := false }) else p }

/-- At most four activates in any 20 consecutive cycles (10 R254). -/
def fawOk (acts : List Nat) : Bool :=
  acts.zipIdx.all fun p => match acts[p.2 + 4]? with | some d => decide (p.1 + tFAW ≤ d) | none => true

def insertSorted (c : Nat) : List Nat → List Nat
  | [] => [c]
  | x :: t => if c ≤ x then c :: x :: t else x :: insertSorted c t

/-- The activates of a pseudo-channel, and those with new ones at cycle `c` (and 28 later for an RCOPY). -/
def State.acts (s : State) (key : Nat) : List Nat := (s.tower (key / 1024)).acts.getD (key % 1024 / 16) []
def actsWith (acts : List Nat) (c : Nat) (two : Bool) : List Nat :=
  let l := insertSorted c acts
  if two then insertSorted (c + 28) l else l

/-- The earliest cycle from `c` at which a bank may activate a slot that is CLOSED (10 R254, R256): at the latest once
every activate so far has left the windows. -/
def actEarliest (s : State) (key c : Nat) (two : Bool) : Option Nat :=
  let x := s.bank key
  let apart (d : Nat) : Bool := x.acts.all fun a => decide (a + tAAD ≤ d) || decide (d + tAAD ≤ a)
  let last := (s.acts key ++ x.acts).foldl max c
  (List.range' c (last + tFAW + 1 - c)).find? fun d => apart d && (!two || apart (d + 28)) && fawOk (actsWith (s.acts key) d two)

/-- Note activates for tAAD and tFAW; those more than 20 cycles back are forgotten. -/
def noteAct (s : State) (key c : Nat) (two : Bool) : State :=
  let recent (l : List Nat) : List Nat := (actsWith l c two).filter fun a => decide ((s.tower (key / 1024)).now < a + tFAW)
  let s' := s.modTower (key / 1024) fun x => { x with acts := x.acts.set (key % 1024 / 16) (recent (s.acts key)) }
  s'.modBank key fun x => { x with acts := recent x.acts }

/-- A slot latches a row (10 R252). -/
def activate (s : State) (key n row c : Nat) : State :=
  let r := rowRead s key n row
  let s := noteAct s key c false
  s.modBank key fun x => x.putSlot n
    { state := .opening, row := row, bits := r.1, bad := r.2, due := c + tACU, actAt := c }

/-- A slot's precharge begins. -/
def precharge (s : State) (key n c : Nat) : State :=
  s.modBank key fun x => x.putSlot n { x.slotAt n with state := .precharging, due := c + tPRE }

/-! ## What comes about at its end -/

def commitSlot (s : State) (key n : Nat) : State :=
  let x := s.bank key
  let y := x.slotAt n
  match y.state with
  | .opening => s.setBank key (x.putSlot n { y with state := .openClean })
  | .writing => (rowWrite s key n y.row y.bits y.bad).modBank key fun x => x.putSlot n { y with state := .openClean }
  | .precharging => s.setBank key (x.putSlot n { y with state := .closed })
  | _ => s

def commitPass (s : State) (key : Nat) : State :=
  let x := s.bank key
  match x.pass with
  | none => s
  | some p =>
    let x := { x with pass := none }
    s.setBank key (match p.target with
      | .slot n bits bad => x.putSlot n { x.slotAt n with bits := bits, bad := bad }
      | .acc q bits => x.putQ q bits
      | .nothing => x)

def commitRcopy (s : State) (key n : Nat) : State :=
  match (s.bank key).rcopy.find? fun r => r.slot == n with
  | none => s
  | some r =>
    (rowWrite s key n r.dst r.bits r.bad).modBank key fun x =>
      { x.putSlot n { x.slotAt n with state := .closed, row := r.dst } with rcopy := x.rcopy.filter fun r => r.slot != n }

/-- The cycle of a tower at which the last refresh interval ended (10 R260). -/
def lastInterval (s : State) (key : Nat) : Nat := (s.tower (key / 1024)).now / tREFI * tREFI

/-- A bank that a stream may take: no stream controls it, the plinth has refreshed it to a debt of 2 or less (10 R260,
R261), and nothing is in progress in it. -/
def bankReady (s : State) (b : Nat) : Bool :=
  let x := s.bank b
  x.owner.isNone && decide (x.debt ≤ 2) && x.dues.isEmpty && !x.forced

/-- A slot is activated at the first cycle from `c` at which the bank may (10 R254, R256). -/
def reactivate (c key : Nat) (s : State) (n : Nat) : State :=
  activate s key n ((s.bank key).slotAt n).row ((actEarliest s key c false).getD c)

/-- A REFB ends: the debt falls (10 R260), and a transparent refresh opens its slots again (R263). -/
def commitRefb (s : State) (key : Nat) : State :=
  let x := s.bank key
  match x.refb with
  | none => s
  | some d =>
    (x.reopen.getD []).foldl (reactivate d key) (s.setBank key { x with refb := none, debt := x.debt - 1, reopen := none })

def commitSlots (s : State) (key : Nat) : State :=
  (List.range 4).foldl (fun s n => if (s.bank key).copying n then commitRcopy s key n else commitSlot s key n) s

/-- Whatever is in progress in a bank comes about. -/
def settleBank (s : State) (key : Nat) : State :=
  commitSlots (commitRefb (commitPass (commitSlots s key) key) key) key

/-- An activate that no stream makes, at the first cycle from `c` at which the bank may (10 R256): the state, and the
cycle. -/
def yieldAct (s : State) (key c : Nat) : State × Nat :=
  let a := (actEarliest s key c false).getD c
  (noteAct s key a false, a)

/-- The cycle from which a bank can serve an access that is accepted at `c`: what is in progress there, and the accesses
before it, are done. -/
def Bank.serveAt (x : Bank) (c : Nat) : Nat := max x.servedBy (x.dues.foldl max c)

/-- An access is served in a slot that is CLOSED (11 R299, 13 R343): one activate, the row's use, and its precharge. -/
def serveClosed (s : State) (key : Nat) (o : Ordinary) (c : Nat) : State :=
  let (s, a) := yieldAct s key ((s.bank key).serveAt c)
  s.modBank key fun x =>
    { x with servedBy := a + (if o.pass then tACU + tPass else tAPR) + tPRE,
             readBy := if o.pass then a + tACU + tPass else x.readBy }

/-- A bank no stream controls any more: its open slots are precharged, dirty contents and accumulators dropped
(11 R290, R309); each access that waited for it is served. -/
def freeBank (s : State) (key : Nat) : State :=
  let x := s.bank key
  let now := (s.tower (key / 1024)).now
  let s := s.setBank key
    { debt := x.debt, acts := x.acts, spared := x.spared, refAt := x.refAt, refb := x.refb, servedBy := x.servedBy,
      readBy := x.readBy,
      slot := x.slot.map fun y => match y.state with
        | .closed => {}
        | .precharging => { state := .precharging, due := y.due }
        | _ => { state := .precharging, due := max now (y.actAt + tAPR) + tPRE } }
  x.waiting.foldl (fun s o => serveClosed s key o now) s

/-- The cycle at which every slot of a bank is CLOSED for a refresh that begins to close them at `t`: after each
write-back, tAPR and tPRE (10 R254). -/
def Bank.closedBy (x : Bank) (t : Nat) : Nat :=
  (List.range 4).foldl (fun m n =>
    let y := x.slotAt n
    match y.state with
    | .closed => m
    | .precharging => max m y.due
    | .openDirty => max m (max (t + tWBK) (y.actAt + tAPR) + tPRE)
    | .openClean => max m (max t (y.actAt + tAPR) + tPRE)
    | _ => max m (max y.due (y.actAt + tAPR) + tPRE)) t

/-- Write back every dirty slot of a bank and close all of them (10 R264); a dirty row 0 has no row to go to
(log 31). -/
def flushBank (s : State) (key : Nat) : State :=
  (List.range 4).foldl (fun s n =>
    let y := (s.bank key).slotAt n
    let s := if y.state = .openDirty ∧ y.row ≠ 0 then rowWrite s key n y.row y.bits y.bad else s
    s.modBank key fun x => x.putSlot n { y with state := .closed }) (settleBank s key)

/-- A bank that a stream leaves while its forced refresh is due: its dirty slots are written back, every slot is
precharged, and REFBs follow until the debt is 8 (10 R264). -/
def forceBank (s : State) (key : Nat) : State :=
  let e := (s.bank key).closedBy (s.tower (key / 1024)).now + tRefb
  (freeBank (flushBank s key) key).modBank key fun x => { x with refb := some e, forced := true }

/-! ## Faults (11 R290, 16 R377) -/

/-- The offset of its bank record belongs to a stream no longer (14 R352). -/
def freeRecord (s : State) (st : Stream) : State :=
  match st.record, s.kernels.get? st.kernel with
  | some o, some k => parkFree s k.ctx [o]
  | _, _ => s

/-- A stream stops: what is in progress comes about, and the banks it controls are released, those of the other part
of a serialised split with them. A secondary keeps the count of its primary's timeline, and no other (11 R307). -/
def stopStream (s : State) (i : Nat) (st' : StreamState) : State :=
  let st := s.stream i
  let mark := (s.stream (rootStream s 4 i)).mark
  let s := (streamBanks s i).foldl (fun s b =>
    if (s.bank b).forced then forceBank s b else freeBank (settleBank s b) b) s
  (freeRecord s st).modStream i fun x =>
    { x with state := st', begun := 0, checked := false, phase := 0, window := none, preempt := false, stopping := false,
             record := none, saved := [], primary := none, mark := mark }

/-- A stream that is to stop may (11 R290): it stands at a row boundary, in no yield, and no forced refresh of a bank of
it is due, which faults it first (10 R264). -/
def mayHalt (s : State) (i : Nat) (st : Stream) : Bool :=
  st.state == .parked || (st.state != .suspended && rowBoundary s i st &&
    (streamBanks s i).all fun b => !(s.bank b).forced)

/-- A stream whose kernel has faulted, or whose context is destroyed, stops, at once where it may, else at its next row
boundary (11 R290, 14 R347). It is ENDED: R286 has no other state for a stream that holds no bank and has not faulted
(DESIGN CHOICE, log 46). -/
def haltStream (s : State) (i : Nat) : State :=
  if mayHalt s i (s.stream i) then stopStream s i .ended
  else s.modStream i fun x => { x with stopping := true }

/-- A stream has ended: its banks are released, and its context may have no member bound any more (14 R347). -/
def endStream (s : State) (i : Nat) : State :=
  match s.kernels.get? (s.stream i).kernel with
  | some k => settleCtx (stopStream s i .ended) k.ctx
  | none => stopStream s i .ended

/-- A stream that still holds banks. -/
def Stream.isLive (st : Stream) : Bool :=
  st.state == .running || st.state == .waiting || st.state == .handler || st.state == .suspended || st.state == .parked

/-- Write the KIND 10 record of a kernel, and note where it stands in the fault queue (16 R377). -/
def recordKernel (s : State) (kid : Nat) (k : Kernel) (reason tile core : Nat) : State :=
  let n (s : State) : Nat := match s.ctxs.get? k.ctx with | some cx => cx.fqTotal | none => 0
  let s' := faultRecord s k.ctx (kind10 k reason tile core)
  if n s < n s' then
    match s'.kernels.get? kid with
    | some x => s'.setKernel kid { x with recordAt := some (n s') }
    | none => s'
  else s'

/-- The plinth-buffer entries of a kernel are granted no longer (11 R296). -/
def releaseBuf (s : State) (kid : Nat) : State :=
  { s with towers := s.towers.map fun (i, x) =>
      let mine := (x.pgrant.filter fun p => p.2 == kid).map (·.1)
      (i, { x with pgrant := x.pgrant.filter fun p => p.2 != kid,
                   pbuf := x.pbuf.filter fun p => !mine.contains p.1,
                   crossing := x.crossing.filter fun c => !mine.contains c.entry }) }

/-- A kernel ends FAULTED (16 R377): its number is held in the queue's timeline, its streams stop, its groups'
members are RETIRED but for those of `keep`, and a KIND 10 record is written. -/
def kernelFaultBut (keep : Option Nat) (s : State) (kid reason tile core : Nat) : State :=
  match s.kernels.get? kid with
  | none => s
  | some k =>
    if k.state = .running ∨ k.state = .completing then
      let s := s.setKernel kid { k with state := .faulted }
      let s := k.streams.foldl (fun s i => if (s.stream i).isLive ∧ (s.stream i).kernel = kid then haltStream s i else s) s
      let s := (s.groups.filter fun p => p.2.kernel == kid && p.2.state != .ended && some p.1 != keep).foldl
        (fun s p => endGroup s p.1) s
      let s := modQueueLine (releaseBuf s kid) k.ctx k.queue fun l => l.fault k.num
      settleCtx (recordKernel s kid k reason tile core) k.ctx
    else s

def kernelFault (s : State) (kid reason tile core : Nat) : State := kernelFaultBut none s kid reason tile core

/-- A stream is faulted (11 R290): KIND 6 before KIND 10. BPC is 9 bits wide, so that word CODELEN of a full buffer
shows as 0 (log 60). -/
def streamFault (s : State) (i cause banks : Nat) : State :=
  let st := s.stream i
  let root := rootStream s 4 i
  let mark := (s.stream root).mark
  let s := stopStream s i .faulted
  match s.kernels.get? st.kernel with
  | none => s
  | some k =>
    let s := s.setKernel st.kernel { k with streamFaults := k.streamFaults.set root mark }
    let s := faultRecord s k.ctx (record4 (6 + k.ctx * 2 ^ 16 + (0x3000 + i) * 2 ^ 32 + cause * 2 ^ 48)
      (st.bpc.toNat + banks * 2 ^ 16) k.handle 0)
    kernelFault s st.kernel 2 0 0

/-- A slot that a transparent refresh closes and opens again: an open one, but for a dirty row 0, which has no row to
go to and stays (log 31). -/
def Bank.reopens (x : Bank) (n : Nat) : Bool :=
  (x.projected n).isSome && !((x.slotAt n).state == .openDirty && (x.slotAt n).row == 0)

/-- The transparent refresh of a bank begins at a boundary (10 R263): dirty slots are written back, every open slot
is precharged, one REFB follows, and the slots are activated again at its end. -/
def transparentRefresh (t : Nat) (s : State) (key : Nat) : State :=
  s.modBank key fun x =>
    let y := (List.range 4).foldl (fun (x : Bank) n =>
      let z := x.slotAt n
      if z.state = .openDirty ∧ z.row ≠ 0 then x.putSlot n { z with state := .writing, due := t + tWBK } else x) x
    { y with refb := some (x.closedBy t + tRefb), reopen := some ((List.range 4).filter x.reopens), deadline := false }

/-- Bank trap entry (11 R289): cause `c` in banks `bs`. The handler's first word comes a cycle after the trap (10 R255).
A transparent refresh leaves the stream as it is. -/
def bankTrap (s : State) (i c : Nat) (bs : List Nat) : State :=
  let st := s.stream i
  let cause := c + groupMask st.bound bs * 2 ^ 16
  let s := s.modStream i fun x => { x with btcause := BitVec.ofNat 32 cause }
  if st.state = .handler ∨ st.en = false then
    if c = 1 ∧ st.state ≠ .handler then
      bs.foldl (fun s b => transparentRefresh (s.tower (i / 256)).now s (pcBase i + b)) s
    else streamFault s i c (groupMask st.bound bs)
  else
    let s := (bankList st.mask).foldl (fun s b => s.modBank (pcBase i + b) fun x =>
      { ({ x with saved := x.pred, pred := true } : Bank).wrB 15 (BitVec.ofNat 64 cause) with
        handling := if c = 1 ∧ bs.contains b then true else x.handling,
        deadline := if c = 1 ∧ bs.contains b then false else x.deadline }) s
    s.modStream i fun x =>
      { x with btepc := x.bpc, bpc := x.entry, ranOff := false, state := .handler, begun := 0, checked := false,
               phase := 0, waitFor := none, held := false, readyAt := streamNow s i st + 1 }

/-- The deadline trap, or the transparent refresh (10 R262, R263). -/
def deadlineTrap (s : State) (i : Nat) (st : Stream) : State := bankTrap s i 1 (deadlineBanks s st i)

/-! ## Held rows (10 R257) -/

/-- Whether a row of a group of a bank lies in a held range of the stream's kernel: as destination, or as source. -/
def heldRow (s : State) (st : Stream) (key group row : Nat) (dest : Bool) : Bool :=
  match s.kernels.get? st.kernel with
  | none => false
  | some k => (List.range 8).any fun r =>
      let o := 0xB8 + 8 * r
      let first := recField k o 12 12
      recField k o 24 12 != 0 && recField k o 0 3 == key / 1024 && recField k o 3 6 == key % 1024 / 16 &&
        recField k o 9 2 == group && (recField k o 36 16).testBit (key % 16) &&
        decide (first ≤ row) && decide (row < first + recField k o 24 12) && (!dest || recField k o 11 1 == 1)

/-- The row trap of an access to row x (10 R257). -/
def rowTrap (s : State) (st : Stream) (key group : Nat) (x : Int) (write : Bool) : Option Nat :=
  if x < 0 ∨ 3072 ≤ x then some 5
  else if x = 0 then (if write then some 5 else none)
  else if heldRow s st key group x.toNat write then none
  else some 6

/-! ## A word over its banks (11 R283) -/

/-- R258's order of causes, the slot traps by their codes (11 R283). -/
def causeRank (c : Nat) : Nat :=
  match c with | 9 => 0 | 8 => 1 | 5 => 2 | 6 => 3 | 2 => 4 | 3 => 5 | 4 => 6 | _ => 7

/-- The first in R258's order of the causes that a bank would take. -/
def firstCause (l : List (Option Nat)) : Option Nat :=
  (l.filterMap id).foldl (fun a c => match a with
    | none => some c
    | some d => if causeRank c < causeRank d then some c else a) none

/-- A bank is retired (11 R290). -/
def retiredTrap (s : State) (key : Nat) : Option Nat :=
  if (s.tower (key / 1024)).isLive (key % 1024 / 16) (key % 16) then none else some 8

/-- The trap of a word over its banks: the cause and the banks that take it. -/
def wordTrap (s : State) (i : Nat) (ex : List Nat) (causes : State → Nat → List (Option Nat)) :
    Option (Nat × List Nat) :=
  let cs := ex.map fun b => (b, firstCause (retiredTrap s (pcBase i + b) :: causes s (pcBase i + b)))
  match firstCause (cs.map (·.2)) with
  | none => none
  | some c => some (c, (cs.filter fun p => p.2 == some c).map (·.1))

/-- The word is complete: the next may begin a cycle later (10 R255). -/
def Stream.wordDone (st : Stream) (next t : Nat) : Stream :=
  { st.goTo next with begun := 0, checked := false, phase := 0, held := false, readyAt := t + 1 }

/-- How a bank word acts, bank by bank: the causes it would trap with, the earliest cycle from one given at which it
can begin (none where it waits for something to end), and its beginning. -/
structure BankWord where
  pr     : Bool
  causes : State → Nat → List (Option Nat)
  ready  : State → Nat → Nat → Option Nat
  begin_ : State → Nat → Nat → State
  /-- ACT and RCOPY, to which the controller grants no activate in an arbitration window (11 R298). -/
  acts   : Bool := false

/-- The stream's turn to attempt a bank word. -/
def streamTurn (s : State) (f : Nat → Stream → State) : Out :=
  match s.cur with
  | some (.stream i) => .next (f i (s.stream i))
  | _ => .fault .noAgent

/-- Begin a word in the banks `bs` at a cycle, in ascending order, where each can still begin then. -/
def beginIn (s : State) (i t : Nat) (w : BankWord) : List Nat → List Nat → State × List Nat
  | [], done => (s, done)
  | b :: bs, done =>
    match w.ready s (pcBase i + b) t with
    | some c => if c ≤ t then beginIn (w.begin_ s (pcBase i + b) t) i t w bs (b :: done) else beginIn s i t w bs done
    | none => beginIn s i t w bs done

/-- No word begins after the arbitration window (11 R298). -/
def Stream.late (st : Stream) (c : Nat) : Bool := match st.window with | some e => decide (e < c) | none => false

/-- Nothing ends before a cycle, and the stream's arbitration window allows what it would do then. -/
def inTime (s : State) (i : Nat) (st : Stream) (c : Nat) (acts : Bool) : Bool :=
  timeOk s (i / 256) c && !st.late c && !(acts && st.window.isSome)

/-- The stream may act at a cycle: it is in time, and no other stream of the tower acts before. -/
def mayAct (s : State) (i : Nat) (st : Stream) (c : Nat) (acts : Bool) : Bool :=
  inTime s i st c acts && noneBefore s i c

/-- The stream does not act yet: where only another stream may come first, it acts no earlier than this cycle; else its
word waits in place (10 R255). -/
def putOff (s : State) (i : Nat) (st : Stream) (c : Nat) (acts checked : Bool) : State :=
  s.modStream i fun x =>
    if inTime s i st c acts then { x with readyAt := max x.readyAt c, checked := checked }
    else { x with held := true, checked := checked }

/-- The word has begun, or been checked, and waits for something to end (10 R255). -/
def waitInPlace (s : State) (i : Nat) : State := s.modStream i fun x => { x with held := true, checked := true }

/-- Begin a word, or a step of one, in the banks of a list that can begin first: the state, those banks, and the cycle.
It begins in none where it waits. -/
def progress (s : State) (i : Nat) (st : Stream) (w : BankWord) (left : List Nat) : State × List Nat × Nat :=
  match (left.filterMap fun b => w.ready s (pcBase i + b) (streamNow s i st)).min? with
  | none => (waitInPlace s i, [], 0)
  | some c =>
    if mayAct s i st c w.acts then
      let r := beginIn (reach s (i / 256) c) i c w left []
      (r.1.modStream i fun x => { x with begun := x.begun ||| maskOf r.2, checked := true, held := false }, r.2, c)
    else (putOff s i st c w.acts true, [], 0)

/-- One attempt at a word: its checks in every executing bank once, when it issues, then its beginning in those that can
begin first; `fin` is what follows when it has begun in all of them. -/
def attempt (s : State) (i : Nat) (st : Stream) (w : BankWord) (fin : State → Nat → State) : State :=
  let t0 := streamNow s i st
  let ex := executing s i st w.pr
  if st.checked = false ∧ mayAct s i st t0 false = false then putOff s i st t0 false false
  else
    match if st.checked then none else wordTrap s i ex w.causes with
    | some (c, bs) => bankTrap (reach s (i / 256) t0) i c bs
    | none =>
      let left := ex.filter fun b => !st.begun.getLsbD b
      if left = [] then
        if mayAct s i st t0 false then fin (reach s (i / 256) t0) t0 else putOff s i st t0 false true
      else
        let r := progress s i st w left
        if left.all fun b => r.2.1.contains b then fin r.1 r.2.2 else r.1

/-- The usual end of a word: the stream goes on at the next one. -/
def nextWord (i : Nat) (st : Stream) (s : State) (t : Nat) : State :=
  s.modStream i fun x => x.wordDone (st.pos + 1) t

/-- A word of a stream over its banks. -/
def bankWord (s : State) (w : Nat → Stream → BankWord) : Out :=
  streamTurn s fun i st => attempt s i st (w i st) (nextWord i st)

end Sys2Proof.Machine
end

