-- ==== Sys2Proof/Machine/Row.lean ====
section
/-! DEFINITION. The row words (10): opening, closing, writing back and refreshing slots, row arithmetic, the bank
accumulators and sweeps. Each is a BankWord, one per word, begun bank by bank. -/
namespace Sys2Proof

def BWord.sdN (w : BWord) : Nat := w.sd.toNat
def BWord.saN (w : BWord) : Nat := w.sa.toNat
def BWord.sbN (w : BWord) : Nat := w.sb.toNat
/-- The element width of the word's type. -/
def BWord.tw (w : BWord) : Nat := Ty.width w.ty.toNat
/-- H of an accumulator word (10 R266). -/
def BWord.h0 (w : BWord) : Nat := if w.imm.getLsbD 0 then 1 else 0
def BWord.immAt (w : BWord) (lo n : Nat) : Nat := Machine.bitsAt w.imm.toNat lo n
/-- START, N and H of a sweep (10 R280). -/
def BWord.sweepStart (w : BWord) : Nat := w.immAt 0 12
def BWord.sweepRows (w : BWord) : Nat := w.immAt 12 12
def BWord.sweepH (w : BWord) : Nat := w.immAt 26 1

end Sys2Proof

namespace Sys2Proof.Machine

/-! ## Operands -/

/-- The scalar operand b[bs1] of a bank (10 R268). -/
def bScalar (s : State) (i : Nat) (st : Stream) (key : Nat) (r : BitVec 4) : Word := bRead s st i (key % 16) r

/-- The 64-byte lines of a row from line `lo`. -/
def lineMask (lo n : Nat) : BitVec 128 := BitVec.ofNat 128 ((2 ^ n - 1) * 2 ^ lo)
def allLines : BitVec 128 := BitVec.allOnes 128

/-- The lines of a slot that cannot be corrected, once the pass in progress has ended. -/
def Bank.badAt (x : Bank) (n : Nat) : BitVec 128 :=
  match x.pass with
  | some ⟨_, _, .slot m _ bad, _⟩ => if m = n then bad else (x.slotAt n).bad
  | _ => (x.slotAt n).bad

/-! ## Lane words (10 R253, R255, R259) -/

/-- The slot trap of a lane word, or WB, on a slot. -/
def closedTrap (x : Bank) (n : Nat) : Option Nat := if (x.projected n).isNone then some 2 else none

/-- A word of one row pass: the lines it reads of its source slots, its destination slot, and what it writes. -/
def laneWord (pr : Bool) (reads : List (Nat × BitVec 128)) (dest : Option Nat)
    (result : State → Nat → PassTarget) : BankWord :=
  let named := reads.map (·.1) ++ dest.toList
  { pr := pr,
    causes := fun s key =>
      let x := s.bank key
      named.map (closedTrap x) ++ reads.map fun p => if x.badAt p.1 &&& p.2 = 0 then none else some 7,
    ready := fun s key c =>
      let x := s.bank key
      if x.lanesFree && named.all fun n => x.isOpen n then some c else none,
    begin_ := fun s key t =>
      let target := result s key
      s.modBank key fun x =>
        let x := match dest with | some n => x.putSlot n { x.slotAt n with state := .openDirty } | none => x
        { x with pass := some { due := t + tPass, reads := named, target := target } } }

/-- A pass that writes every element of a slot, from the elements of its sources (10 R275). -/
def arithWord (w : BWord) (reads : List Nat) (f : State → Nat → Nat → Nat → Nat → Nat → Nat) : BankWord :=
  laneWord w.pr (reads.map fun n => (n, allLines)) (some w.sdN) fun s key =>
    let x := s.bank key
    let es (n : Nat) := (x.slotAt n).bits
    let b := w.tw
    let old := es w.sdN
    let va := es w.saN
    let vb := es w.sbN
    .slot w.sdN (BitVec.ofNat 65536 (packElems b ((List.range (65536 / b)).map fun e =>
      f s key (getField old (b * e) b) (getField va (b * e) b) (getField vb (b * e) b) e))) 0

/-- A row arithmetic instruction of two sources. -/
def execRow2 (w : BWord) (s : State) (f : Nat → Nat → Nat → Nat) : Out :=
  bankWord s fun _ _ => arithWord w [w.saN, w.sbN] fun _ _ _ a b _ => f w.ty.toNat a b

/-- An integer result wrapped, or a float result rounded once, RNE (10 R275). -/
def rowNum (t : Nat) (fi : Int → Int → Int) (ff : Val → Val → Nat × Flags) (a b : Nat) : Nat :=
  if Ty.isF t then (ff (decodeF t a) (decodeF t b)).1 else wrapInt (Ty.width t) (fi (intElem t a) (intElem t b))

def execRadd (w : BWord) (s : State) : Out :=
  execRow2 w s fun t a b => rowNum t (· + ·) (fAdd t .rne) a b
def execRsub (w : BWord) (s : State) : Out :=
  execRow2 w s fun t a b => rowNum t (· - ·) (fun x y => fAdd t .rne x y.neg) a b
def execRmul (w : BWord) (s : State) : Out :=
  execRow2 w s fun t a b => rowNum t (· * ·) (fMul t .rne) a b
/-- Maximum or minimum (10 R275; floats as 05 R148). -/
def rowMinMax (t : Nat) (larger : Bool) (a b : Nat) : Nat :=
  if Ty.isF t then (minMaxElem t larger a b).1
  else if decide (intElem t a < intElem t b) != larger then a else b
def execRmax (w : BWord) (s : State) : Out := execRow2 w s fun t a b => rowMinMax t true a b
def execRmin (w : BWord) (s : State) : Out := execRow2 w s fun t a b => rowMinMax t false a b
def execRand (w : BWord) (s : State) : Out := execRow2 w s fun _ a b => a &&& b
def execRior (w : BWord) (s : State) : Out := execRow2 w s fun _ a b => a ||| b
def execRxor (w : BWord) (s : State) : Out := execRow2 w s fun _ a b => a ^^^ b

/-- RCMP (10 R276). -/
def rowCmp (t cc a b : Nat) : Bool :=
  let x := decodeF t a
  let y := decodeF t b
  let f := Ty.isF t
  let nan := f && (x.isNaN || y.isNaN)
  let c : Int := if f then x.cmp y else intElem t a - intElem t b
  match cc with
  | 0 => !nan && decide (c = 0)
  | 1 => nan || decide (c ≠ 0)
  | 2 => !nan && decide (c < 0)
  | 3 => !nan && decide (c ≤ 0)
  | 4 => !nan && decide (0 < c)
  | 5 => !nan && decide (0 ≤ c)
  | _ => nan

def execRcmp (w : BWord) (s : State) : Out :=
  execRow2 w s fun t a b => if rowCmp t (w.immAt 0 3) a b then 2 ^ Ty.width t - 1 else 0

/-- RSEL (10 R275): the mask is the old destination, which the pass reads too. An element is 0 where its bits are, so -0
is not (DEDUCED, log 41). -/
def execRsel (w : BWord) (s : State) : Out :=
  bankWord s fun _ _ => arithWord w [w.saN, w.sbN, w.sdN] fun _ _ old a b _ => if old ≠ 0 then a else b

/-- RSHR (10 R275). -/
def execRshr (w : BWord) (s : State) : Out :=
  bankWord s fun _ _ => arithWord w [w.saN] fun _ _ _ a _ _ =>
    wrapInt w.tw (intElem w.ty.toNat a / (2 ^ w.immAt 0 6 : Nat))

/-- a + c × b of RSCADD: saturated for integers, rounded once for floats (10 R275). -/
def rowScadd (t : Nat) (c : Word) (a b : Nat) : Nat :=
  if Ty.isF t then (fFma t .rne (decodeF 9 (c.toNat % 2 ^ 32)) (decodeF t b) (decodeF t a)).1
  else satBits t (intElem t a + bInt c * intElem t b)

def execRscadd (w : BWord) (s : State) : Out :=
  bankWord s fun i st => arithWord w [w.saN, w.sbN] fun s key _ a b _ =>
    rowScadd w.ty.toNat (bScalar s i st key w.bs1) a b

/-- RCVT (10 R277). -/
def execRcvt (w : BWord) (s : State) : Out :=
  let sf := w.immAt 0 5
  let df := w.ty.toNat
  let ws := Ty.width sf
  let wd := Ty.width df
  let n := 65536 / max ws wd
  let h := w.immAt 5 1
  let so := if ws < wd then n * h else 0
  let dO := if wd < ws then n * h else 0
  let mode : RMode := if w.imm.getLsbD 6 then .rtz else .rne
  let lines (b o : Nat) := lineMask (b * o / 512) (b * n / 512)
  bankWord s fun _ _ => laneWord w.pr [(w.saN, lines ws so)] (some w.sdN) fun s key =>
    let x := s.bank key
    let src := (x.slotAt w.saN).bits
    let y := x.slotAt w.sdN
    let els := (List.range n).map fun j => (cvtVal df mode (decodeElem sf (getField src (ws * (so + j)) ws)) 0).1
    .slot w.sdN (putField y.bits (wd * dO) (wd * n) (packElems wd els)) (y.bad &&& ~~~lines wd dO)

/-- RZERO (10 R278). -/
def execRzero (w : BWord) (s : State) : Out :=
  bankWord s fun _ _ => laneWord w.pr [] (some w.sdN) fun _ _ => .slot w.sdN 0 0

/-! ## Accumulators (10 R265 to R267, R279) -/

/-- The pairs of an accumulator word: their number, the first row element and the first accumulator element. -/
def accPairs (b h : Nat) : Nat × Nat × Nat :=
  match b with | 8 => (4096, 4096 * h, 0) | 16 => (4096, 0, 0) | _ => (2048, 0, 2048 * h)

/-- The lines of a row that the pairs take up. -/
def accLines (b h : Nat) : BitVec 128 :=
  let p := accPairs b h
  lineMask (b * p.2.1 / 512) (b * p.1 / 512)

/-- A row element widened to 32 bits (10 R267): a NaN gives the canonical NaN. -/
def widen32 (t bits : Nat) : Nat :=
  if t = 8 then (roundTo 9 .rne (decodeF 8 bits) 0).1
  else if t = 9 then (if (decodeF 9 bits).isNaN then canonNaN 9 else bits)
  else wrapInt 32 (intElem t bits)

/-- g + r, one rounding for floats, modulo 2^32 for integers. -/
def accAdd32 (t g r : Nat) : Nat :=
  if Ty.isF t then (fAdd 9 .rne (decodeF 9 g) (decodeF 9 r)).1 else (g + r) % 2 ^ 32
/-- g + r × m. -/
def accMac32 (t g r m : Nat) : Nat :=
  if Ty.isF t then (fFma 9 .rne (decodeF 9 r) (decodeF 9 m) (decodeF 9 g)).1 else (g + r * m) % 2 ^ 32
/-- The larger or smaller of g and r, in the accumulator's reading of the type (10 R265). -/
def accMinMax32 (t : Nat) (larger : Bool) (g r : Nat) : Nat :=
  rowMinMax (if Ty.isF t then 9 else if Ty.isSigned t then 2 else 6) larger g r

/-- Combine the pairs of a row into an accumulator: `f g r e` gives the new element for row element e. -/
def accCombine (t h : Nat) (row : BitVec 65536) (acc : BitVec 131072) (f : Nat → Nat → Nat → Nat) :
    BitVec 131072 :=
  let b := Ty.width t
  let p := accPairs b h
  putField acc (32 * p.2.2) (32 * p.1) (packElems 32 ((List.range p.1).map fun j =>
    f (getField acc (32 * (p.2.2 + j)) 32) (widen32 t (getField row (b * (p.2.1 + j)) b)) (p.2.1 + j)))

/-- An accumulator word over the pairs of R266. -/
def accWord (w : BWord) (reads : List Nat) (f : State → Nat → Nat → Nat → Nat → Nat) : BankWord :=
  laneWord w.pr (reads.map fun n => (n, accLines w.tw w.h0)) none fun s key =>
    let x := s.bank key
    .acc w.q (accCombine w.ty.toNat w.h0 (x.slotAt w.saN).bits (x.qAt w.q) (f s key))

def execQzero (w : BWord) (s : State) : Out :=
  bankWord s fun _ _ => laneWord w.pr [] none fun _ _ => .acc w.q 0

def execQacc (w : BWord) (s : State) : Out :=
  bankWord s fun _ _ => accWord w [w.saN] fun _ _ g r _ => accAdd32 w.ty.toNat g r

def execQmac (w : BWord) (s : State) : Out :=
  let t := w.ty.toNat
  let b := w.tw
  bankWord s fun i st =>
    if w.imm.getLsbD 1 then
      accWord w [w.saN] fun s key g r _ => accMac32 t g r ((bScalar s i st key w.bs1).toNat % 2 ^ 32)
    else
      accWord w [w.saN, w.sbN] fun s key g r e =>
        accMac32 t g r (widen32 t (getField ((s.bank key).slotAt w.sbN).bits (b * e) b))

def execQld (w : BWord) (s : State) : Out :=
  bankWord s fun _ _ => accWord w [w.saN] fun _ _ _ r _ => r

/-- An accumulator element converted to a type (QWB, 10 R279). -/
def qwbElem (t g : Nat) : Nat :=
  match t with
  | 2 => g | 6 => g | 9 => g
  | 8 => (roundTo 8 .rne (decodeF 9 g) 0).1
  | _ => satBits t (intElem (if Ty.isSigned t then 2 else 6) g)

def execQwb (w : BWord) (s : State) : Out :=
  let b := w.tw
  let p := accPairs b w.h0
  bankWord s fun _ _ => laneWord w.pr [] (some w.sdN) fun s key =>
    let x := s.bank key
    let y := x.slotAt w.sdN
    let acc := x.qAt w.q
    let els := (List.range p.1).map fun j => qwbElem w.ty.toNat (getField acc (32 * (p.2.2 + j)) 32)
    .slot w.sdN (putField y.bits (b * p.2.1) (b * p.1) (packElems b els)) (y.bad &&& ~~~accLines b w.h0)

/-! ## Opening, closing and refreshing -/

/-- The row operand of ACT (10 R269). -/
def actRow (s : State) (i : Nat) (st : Stream) (key : Nat) (w : BWord) : Int :=
  (w.immAt 0 12 : Int) + if w.imm.getLsbD 12 then bInt (bScalar s i st key w.bs1) else 0

/-- The trap of a word that needs its slot CLOSED (10 R255). -/
def busyTrap (x : Bank) (n : Nat) : Option Nat := if (x.projected n).isSome then some 3 else none

/-- A slot can be activated from a cycle on. -/
def actReady (s : State) (key n c : Nat) (two : Bool) : Option Nat :=
  let x := s.bank key
  if (x.slotAt n).state = .closed ∧ x.copying n = false ∧ x.refb.isNone then actEarliest s key c two else none

def execAct (w : BWord) (s : State) : Out :=
  bankWord s fun i st =>
    { pr := w.pr, acts := true,
      causes := fun s key => [rowTrap s st key w.sdN (actRow s i st key w) false, busyTrap (s.bank key) w.sdN],
      ready := fun s key c => actReady s key w.sdN c false,
      begin_ := fun s key t => activate s key w.sdN (actRow s i st key w).toNat t }

/-- The cycle from which a slot can be precharged (10 R254, R255). -/
def preReady (x : Bank) (n c : Nat) : Option Nat :=
  if x.refb.isSome then none
  else if (x.projected n).isNone then some c
  else if x.isOpen n ∧ x.passOn n = false then some (max c ((x.slotAt n).actAt + tAPR)) else none

/-- PRE and PRE.x (10 R270). -/
def execPre (w : BWord) (s : State) : Out :=
  bankWord s fun _ _ =>
    { pr := w.pr,
      causes := fun s key =>
        [if w.imm.getLsbD 0 = false ∧ (s.bank key).projected w.sdN = some true then some 4 else none],
      ready := fun s key c => preReady (s.bank key) w.sdN c,
      begin_ := fun s key t => if ((s.bank key).projected w.sdN).isNone then s else precharge s key w.sdN t }

/-- WB (10 R271): a clean slot does not change. -/
def execWb (w : BWord) (s : State) : Out :=
  bankWord s fun _ st =>
    { pr := w.pr,
      causes := fun s key =>
        let x := s.bank key
        [if (x.projected w.sdN).isSome then rowTrap s st key w.sdN (x.slotAt w.sdN).row true else none,
          closedTrap x w.sdN],
      ready := fun s key c =>
        let x := s.bank key
        if x.lanesFree && x.isOpen w.sdN then some c else none,
      begin_ := fun s key t => s.modBank key fun x =>
        let y := x.slotAt w.sdN
        if y.state = .openDirty then x.putSlot w.sdN { y with state := .writing, due := t + tWBK } else x }

def Bank.allClosed (x : Bank) : Bool :=
  x.rcopy.isEmpty && (List.range 4).all fun n => (x.slotAt n).state == .closed

/-- REFB (10 R272). -/
def execRefb (w : BWord) (s : State) : Out :=
  bankWord s fun _ _ =>
    { pr := w.pr,
      causes := fun s key => (List.range 4).map fun n => busyTrap (s.bank key) n,
      ready := fun s key c =>
        let x := s.bank key
        if x.lanesFree && x.allClosed then some c else none,
      begin_ := fun s key t => s.modBank key fun x => { x with refb := some (t + tRefb) } }

def SlotState.code : SlotState → Nat
  | .closed => 0 | .opening => 1 | .openClean => 2 | .openDirty => 3 | .writing => 4 | .precharging => 5

/-- What REFQ reports of a slot at a cycle (10 R273); an RCOPY as R474. -/
def slotReport (x : Bank) (n t : Nat) : Nat :=
  match x.rcopy.find? fun r => r.slot == n with
  | some r =>
    let d := t - r.start
    (if d < 28 then r.src else r.dst) + (if d < 16 then 1 else if d < 44 then 2 else 5) * 2 ^ 16
  | none => (x.slotAt n).row + (x.slotAt n).state.code * 2 ^ 16

/-- REFQ (10 R273). -/
def execRefq (w : BWord) (s : State) : Out :=
  bankWord s fun _ st =>
    { pr := w.pr,
      causes := fun _ _ => [],
      ready := fun _ _ c => some c,
      begin_ := fun s key t => s.modBank key fun x =>
        x.wrB w.bd (BitVec.ofNat 64 (match w.immAt 0 3 with
          | 0 => x.debt + if x.deadline || x.handling then 16 else 0
          | 5 => st.swc.toNat
          | k => slotReport x (k - 1) t)) }

/-- RCOPY (10 R274). -/
def execRcopy (w : BWord) (s : State) : Out :=
  let src := w.immAt 0 12
  let dst := w.immAt 12 12
  bankWord s fun _ st =>
    { pr := w.pr, acts := true,
      causes := fun s key => [rowTrap s st key w.sdN src false, rowTrap s st key w.sdN dst true,
        busyTrap (s.bank key) w.sdN],
      ready := fun s key c => actReady s key w.sdN c true,
      begin_ := fun s key t =>
        let r := rowRead s key w.sdN src
        (noteAct s key t true).modBank key fun x =>
          { x.putSlot w.sdN { x.slotAt w.sdN with row := src, actAt := t } with
            rcopy := x.rcopy ++ [⟨w.sdN, src, dst, t, r.1, r.2⟩] } }

/-! ## Sweeps (10 R280, R281, R472) -/

/-- How a sweep combines a row element into an accumulator element. -/
def sweepOp (w : BWord) (c : Word) (g r : Nat) : Nat :=
  let t := w.ty.toNat
  match w.immAt 24 2 with
  | 0 => accAdd32 t g r
  | 1 => accMac32 t g r (c.toNat % 2 ^ 32)
  | 2 => accMinMax32 t true g r
  | _ => accMinMax32 t false g r

/-- The checks of a sweep. -/
def sweepCauses (w : BWord) (st : Stream) (s : State) (key : Nat) : List (Option Nat) :=
  let start := w.sweepStart
  let n := w.sweepRows
  if n = 0 then []
  else
    [if 3072 < start + n then some 5 else none,
      if (List.range n).any fun j => start + j != 0 && !heldRow s st key w.sdN (start + j) false then some 6 else none,
      busyTrap (s.bank key) w.sdN]

/-- Activation of the next row (phase 0). -/
def sweepAct (w : BWord) (st : Stream) : BankWord :=
  { pr := w.pr, acts := true, causes := fun _ _ => [],
    ready := fun s key c => actReady s key w.sdN c false,
    begin_ := fun s key t => activate s key w.sdN (w.sweepStart + st.swc.toNat) t }

/-- The passes of the row, and the precharge of each slot after its pass (phase 1). -/
def sweepRow (w : BWord) (i : Nat) (st : Stream) : BankWord :=
  { pr := w.pr, causes := fun _ _ => [],
    ready := fun s key c =>
      let x := s.bank key
      if st.begun.getLsbD (key % 16) then (if x.isOpen w.sdN then preReady x w.sdN c else none)
      else if x.lanesFree && x.isOpen w.sdN then some c else none,
    begin_ := fun s key t =>
      if st.begun.getLsbD (key % 16) then precharge s key w.sdN t
      else
        let c := bScalar s i st key w.bs1
        s.modBank key fun x =>
          let acc := accCombine w.ty.toNat w.sweepH (x.slotAt w.sdN).bits (x.qAt w.q) fun g r _ => sweepOp w c g r
          { x with pass := some ⟨t + tPass, [w.sdN], .acc w.q acc, false⟩ } }

/-- The precharge of every slot before a trap (phase 2). -/
def sweepShut (w : BWord) : BankWord :=
  { pr := w.pr, causes := fun _ _ => [],
    ready := fun s key c => let x := s.bank key; if x.isOpen w.sdN then preReady x w.sdN c else none,
    begin_ := fun s key t => precharge s key w.sdN t }

/-- The lines that a pass of the row reads, over one executing bank or several (10 R472). -/
def sweepLines (w : BWord) (several : Bool) : BitVec 128 :=
  if several then allLines else accLines w.tw w.sweepH

/-- One turn of a sweep whose checks have been made. A row whose activates the controller does not grant any more in an
arbitration window (11 R298) is given up before any bank has combined it: its slots are precharged (phase 3), and the
yield comes at the boundary before the row (log 42). -/
def sweepStep (w : BWord) (i : Nat) (st : Stream) (s : State) : State :=
  let ex := executing s i st w.pr
  let t0 := streamNow s i st
  -- a row that every executing bank has activated is finished, whatever the window (10 R281, 11 R298)
  let st' := if st.phase = 0 then st else { st with window := none }
  let go (b : BankWord) (left : List Nat) : State := (progress s i st' b left).1
  let closed := ex.all fun b => ((s.bank (pcBase i + b)).slotAt w.sdN).state == .closed
  match st.phase with
  | 0 =>
    if ex = [] ∨ w.sweepRows ≤ st.swc.toNat then
      if mayAct s i st t0 false then
        nextWord i st ((reach s (i / 256) t0).modStream i fun x => { x with swc := 0 }) t0
      else putOff s i st t0 false true
    else
      match ex.filter fun b => !st.begun.getLsbD b with
      | [] => s.modStream i fun x => { x with phase := 1, begun := 0 }
      | left =>
        if st.begun ≠ 0 ∧ st.window.isSome then s.modStream i fun x => { x with phase := 3 }
        else go (sweepAct w st') left
  | 1 =>
    let latched := ex.all fun b => (s.bank (pcBase i + b)).isOpen w.sdN
    let bad := ex.filter fun b =>
      ((s.bank (pcBase i + b)).slotAt w.sdN).bad &&& sweepLines w (decide (1 < ex.length)) ≠ 0
    if st.begun = 0 ∧ latched = false then waitInPlace s i
    else if st.begun = 0 ∧ bad ≠ [] then s.modStream i fun x => { x with phase := 2 }
    else if (ex.all fun b => st.begun.getLsbD b) ∧ closed = true then
      s.modStream i fun x => { x with phase := 0, begun := 0, swc := x.swc + 1 }
    else go (sweepRow w i st') ex
  | 2 =>
    if closed then
      let bad := ex.filter fun b =>
        ((s.bank (pcBase i + b)).slotAt w.sdN).bad &&& sweepLines w (decide (1 < ex.length)) ≠ 0
      bankTrap s i 7 bad
    else go (sweepShut w) ex
  | _ =>
    if closed then s.modStream i fun x => { x with phase := 0, begun := 0 } else go (sweepShut w) ex

/-- RSWEEP (10 R280): one turn of its microprogram. -/
def execRsweep (w : BWord) (s : State) : Out :=
  streamTurn s fun i st =>
    let t0 := streamNow s i st
    if st.checked then sweepStep w i st s
    else if mayAct s i st t0 false = false then putOff s i st t0 false false
    else
      match wordTrap s i (executing s i st w.pr) (sweepCauses w st) with
      | some (c, bs) => bankTrap (reach s (i / 256) t0) i c bs
      | none => sweepStep w i { st with checked := true } (s.modStream i fun x => { x with checked := true })

end Sys2Proof.Machine
end

