-- ==== Sys2Proof/Machine/BankCtl.lean ====
section
/-! DEFINITION. The movement and control words of a bank stream (11 R295 to R297, R302 to R310), splitting and
joining (R291 to R294). -/
namespace Sys2Proof.Machine

/-! ## SHMOV (11 R295) -/

/-- The group size of a stream as bound. -/
def Stream.groupSize (st : Stream) : Nat := (bankList st.bound).length

/-- The bank of a group index. -/
def bankOfIndex (bound : BitVec 16) (j : Nat) : Option Nat := (bankList bound)[j]?

/-- The group index from which index `j` receives. -/
def shmovSrc (w : BWord) (g j : Nat) : Nat :=
  let k := w.immAt 2 4
  match w.immAt 0 2 with
  | 0 => (j + g * 16 - k) % g
  | 1 => j ^^^ k
  | _ => k

/-- The moves of a SHMOV: sender and receivers, as banks, in order. -/
def shmovMoves (w : BWord) (st : Stream) (ex : List Nat) : List (Nat × List Nat) :=
  let g := st.groupSize
  let src (b : Nat) : Option Nat :=
    match bankOfIndex st.bound (shmovSrc w g (groupIndex st.bound b)) with
    | some x => if ex.contains x then some x else none
    | none => none
  if w.immAt 0 2 = 2 then
    match ex.filterMap src with
    | [] => []
    | x :: _ => [(x, ex)]
  else ex.filterMap fun b => (src b).map fun x => (x, [b])

def shmovAcc (w : BWord) : Bool := w.imm.getLsbD 6

/-- The checks of a SHMOV in one bank. -/
def shmovCauses (w : BWord) (i : Nat) (st : Stream) (moves : List (Nat × List Nat)) (s : State) (key : Nat) :
    List (Option Nat) :=
  let x := s.bank key
  [if w.immAt 0 2 = 2 ∧ st.groupSize ≤ w.immAt 2 4 then some 9 else none,
    closedTrap x w.sdN,
    if shmovAcc w then none else closedTrap x w.saN,
    if shmovAcc w = false ∧ (moves.any fun m => pcBase i + m.1 == key) ∧ x.badAt w.saN ≠ 0 then some 7 else none]

/-- The 8,192 bytes that a sender sends. -/
def shmovBits (w : BWord) (x : Bank) : BitVec 65536 :=
  if shmovAcc w then BitVec.ofNat 65536 (getField (x.qAt w.q) (if w.imm.getLsbD 7 then 65536 else 0) 65536)
  else (x.slotAt w.saN).bits

/-- Begin one move at a cycle: the lanes of the sender and the receivers, and the bus, are occupied; with the last move
the lanes of `rest`, the other executing banks, until the word is complete (log 41). -/
def shmovBegin (w : BWord) (i : Nat) (m : Nat × List Nat) (rest : List Nat) (t : Nat) (s : State) : State :=
  let bits := shmovBits w (s.bank (pcBase i + m.1))
  let reads := if shmovAcc w then [] else [w.saN]
  let s := if m.2.contains m.1 then s
    else s.modBank (pcBase i + m.1) fun x => { x with pass := some ⟨t + tMove, reads, .nothing, true⟩ }
  let s := m.2.foldl (fun s b => s.modBank (pcBase i + b) fun x =>
    { x.putSlot w.sdN { x.slotAt w.sdN with state := .openDirty } with
      pass := some ⟨t + tMove, w.sdN :: reads, .slot w.sdN bits 0, true⟩ }) s
  let s := rest.foldl (fun s b => s.modBank (pcBase i + b) fun x =>
    if x.lanesFree then { x with pass := some ⟨t + tMove, w.sdN :: reads, .nothing, true⟩ } else x) s
  s.modTower (i / 256) fun x => { x with bus := x.bus.set (i % 256 / 4) (t + tMove) }

/-- One turn of a SHMOV whose checks have been made. -/
def shmovStep (w : BWord) (i : Nat) (st : Stream) (ex : List Nat) (moves : List (Nat × List Nat)) (s : State) : State :=
  let t0 := streamNow s i st
  if st.phase ≠ 0 then waitInPlace s i
  else
    match moves[st.swc.toNat]? with
    | none =>
      if mayAct s i st t0 false then
        nextWord i st ((reach s (i / 256) t0).modStream i fun x => { x with swc := 0 }) t0
      else putOff s i st t0 false true
    | some m =>
      let busFree := match (s.tower (i / 256)).bus.get? (i % 256 / 4) with | some d => decide (d ≤ t0) | none => true
      let snd := s.bank (pcBase i + m.1)
      if busFree && snd.lanesFree && (shmovAcc w || snd.isOpen w.saN) &&
          (m.2.all fun b => (s.bank (pcBase i + b)).lanesFree && (s.bank (pcBase i + b)).isOpen w.sdN) then
        if mayAct s i st t0 false then
          let last := decide (st.swc.toNat + 1 = moves.length)
          let rest := if last then ex.filter fun b => b != m.1 && !m.2.contains b else []
          let s := shmovBegin w i m rest t0 (reach s (i / 256) t0)
          if last then nextWord i st (s.modStream i fun x => { x with swc := 0 }) t0
          else s.modStream i fun x => { x with phase := 1 }
        else putOff s i st t0 false true
      else waitInPlace s i

/-- SHMOV (11 R295): one move, or the end of the word. -/
def execShmov (w : BWord) (s : State) : Out :=
  streamTurn s fun i st =>
    let ex := executing s i st w.pr
    let moves := shmovMoves w st ex
    let t0 := streamNow s i st
    if st.checked then shmovStep w i st ex moves s
    else if mayAct s i st t0 false = false then putOff s i st t0 false false
    else
      match wordTrap s i ex (shmovCauses w i st moves) with
      | some (c, bs) => bankTrap (reach s (i / 256) t0) i c bs
      | none => shmovStep w i { st with checked := true } ex moves (s.modStream i fun x => { x with checked := true })

/-! ## The plinth buffer (11 R296, R297) -/

/-- The entry operand of BUFST and BUFLD in a bank. -/
def bufEntry (s : State) (i : Nat) (st : Stream) (key : Nat) (w : BWord) : Int :=
  (w.immAt 0 6 : Int) + if w.imm.getLsbD 6 then bInt (bScalar s i st key w.bs1) else 0

/-- BUFN of the kernel of a stream, and the first entry granted. -/
def bufGrant (s : State) (st : Stream) : Nat × Nat :=
  match s.kernels.get? st.kernel with
  | some k => (recField k 0x80 8 7, k.bufBase)
  | none => (0, 0)

def bufTrap (s : State) (i : Nat) (st : Stream) (key : Nat) (w : BWord) : Option Nat :=
  let e := bufEntry s i st key w
  if e < 0 ∨ (bufGrant s st).1 ≤ e.toNat then some 6 else none

/-- BUFST: the row leaves the bank in its pass and crosses to the entry. -/
def execBufst (w : BWord) (s : State) : Out :=
  bankWord s fun i st =>
    let base := laneWord w.pr [(w.saN, allLines)] none fun _ _ => .nothing
    let ex := executing s i st w.pr
    { base with
      causes := fun s key =>
        let e := bufEntry s i st key w
        (if 1 < (ex.filter fun b => bufEntry s i st (pcBase i + b) w == e).length then some 9 else none) ::
          bufTrap s i st key w :: base.causes s key,
      begin_ := fun s key t =>
        let c : Crossing := ⟨(bufGrant s st).2 + (bufEntry s i st key w).toNat, i,
          ((s.bank key).slotAt w.saN).bits⟩
        (base.begin_ s key t).modTower (i / 256) fun x => { x with crossing := x.crossing ++ [c] } }

/-- The BUFSTs of other streams to an entry that a BUFLD of a stream meets: those crossing since its own last. -/
def bufMet (s : State) (i entry : Nat) : List Crossing :=
  (((s.tower (i / 256)).crossing.filter fun c => c.entry == entry).reverse.takeWhile fun c =>
    c.stream != i).reverse

/-- The 64-byte units of a row that a mask names, from another row. -/
def takeUnits (m : BitVec 128) (old new : BitVec 65536) : BitVec 65536 :=
  let bits := BitVec.ofNat 65536 (((List.range 128).filter fun l => m.getLsbD l).foldl
    (fun a l => a + (2 ^ 512 - 1) * 2 ^ (512 * l)) 0)
  (old &&& ~~~bits) ||| (new &&& bits)

/-- What a stream reads of an entry (11 R297): its own latest BUFST still crossing, else what the buffer holds, and each
64-byte unit of another stream's BUFST that it meets old or new. -/
def bufRead (s : State) (i entry : Nat) : BitVec 65536 :=
  let x := s.tower (i / 256)
  let own := (x.crossing.filter fun c => c.entry == entry && c.stream == i).getLast?
  let base := match own with | some c => c.bits | none => x.pbuf.getD entry 0
  ((bufMet s i entry).foldl (fun (a : BitVec 65536 × Nat) c =>
    (takeUnits (Config.crossedUnits a.2) a.1 c.bits, a.2 + 1)) (base, s.free)).1

def execBufld (w : BWord) (s : State) : Out :=
  bankWord s fun i st =>
    let entry (s : State) (key : Nat) : Nat := (bufGrant s st).2 + (bufEntry s i st key w).toNat
    let base := laneWord w.pr [] (some w.sdN) fun s key => .slot w.sdN (bufRead s i (entry s key)) 0
    { base with
      causes := fun s key => bufTrap s i st key w :: base.causes s key,
      begin_ := fun s key t =>
        { base.begin_ s key t with free := s.free + (bufMet s i (entry s key)).length } }

/-- The oldest crossing that a condition holds of reaches its entry. -/
def Tower.land (x : Tower) (p : Crossing → Bool) : Tower :=
  match x.crossing.find? p with
  | none => x
  | some c => { x with pbuf := x.pbuf.set c.entry c.bits, crossing := x.crossing.erase c }

/-! ## Control words (11 R302 to R310) -/

/-- A control word issues as a whole when its cycle has come (11 R283). -/
def controlWord (s : State) (f : Nat → Stream → Nat → State → State) : Out :=
  streamTurn s fun i st =>
    let t0 := streamNow s i st
    if mayAct s i st t0 false then f i st t0 (reach s (i / 256) t0) else putOff s i st t0 false true

/-- ILLEGAL over the banks of the stream. -/
def illegalWord (s : State) (i : Nat) : State := bankTrap s i 9 (bankList (s.stream i).mask)

/-- A word of some banks that writes b[bd] in each. -/
def bWrite (w : BWord) (s : State) (f : State → Nat → Stream → Nat → Word) : Out :=
  controlWord s fun i st t s =>
    nextWord i st ((executing s i st w.pr).foldl (fun s b =>
      s.modBank (pcBase i + b) fun x => x.wrB w.bd (f s i st b)) s) t

/-- BLI (11 R303). -/
def execBli (w : BWord) (s : State) : Out :=
  bWrite w s fun _ _ _ _ => w.imm.signExtend 64

/-- BADD (11 R303). -/
def execBadd (w : BWord) (s : State) : Out :=
  bWrite w s fun s i st b => bRead s st i b w.bs1 +
    if w.imm.getLsbD 0 then BitVec.ofInt 64 (signedOf 30 (w.immAt 1 30)) else bRead s st i b w.bs2

/-- The comparisons of BBR and BPSET (11 R302). -/
def bCond (cc : Nat) (a b : Word) : Bool :=
  match cc with
  | 0 => a == b | 1 => a != b | 2 => a.slt b | 3 => !a.slt b | 4 => a.ult b | _ => !a.ult b

/-- The target of a branch, none outside the loaded code (11 R285, R302). -/
def bTarget (w : BWord) (st : Stream) : Option Nat :=
  let x : Int := (st.pos : Int) + signedOf 12 (w.immAt 3 12)
  if 0 ≤ x ∧ x < (st.code.length : Int) then some x.toNat else none

/-- A condition over the active banks: it holds in every one, and there is one (11 R287). -/
def overActive (s : State) (i : Nat) (st : Stream) (f : Nat → Bool) : Bool :=
  let a := activeBanks s i st
  a != [] && a.all f

def goWord (i n t : Nat) (s : State) : State := s.modStream i fun x => x.wordDone n t

/-- BBR (11 R304). -/
def execBbr (w : BWord) (s : State) : Out :=
  controlWord s fun i st t s =>
    match bTarget w st with
    | none => illegalWord s i
    | some n =>
      let cc := w.immAt 0 3
      let taken := cc == 6 || overActive s i st fun b => bCond cc (bRead s st i b w.bs1) (bRead s st i b w.bs2)
      goWord i (if taken then n else st.pos + 1) t s

/-- BLOOP (11 R304). -/
def execBloop (w : BWord) (s : State) : Out :=
  controlWord s fun i st t s =>
    match bTarget w st with
    | none => illegalWord s i
    | some n =>
      let s := (bankList st.mask).foldl (fun s b =>
        s.modBank (pcBase i + b) fun x => x.wrB w.bd (bRead s st i b w.bd - 1)) s
      goWord i (if overActive s i st fun b => bRead s st i b w.bd != 0 then n else st.pos + 1) t s

/-- BPSET (11 R305). -/
def execBpset (w : BWord) (s : State) : Out :=
  controlWord s fun i st t s =>
    let cc := w.immAt 0 3
    nextWord i st ((bankList st.mask).foldl (fun s b =>
      s.modBank (pcBase i + b) fun x => { x with pred :=
        cc == 6 || ((!w.pr || x.pred) && bCond cc (bRead s st i b w.bs1) (bRead s st i b w.bs2)) }) s) t

/-- Set the predicates of a set of banks. -/
def setPreds (s : State) (i : Nat) (bs : BitVec 16) (f : Nat → Bool) : State :=
  (bankList bs).foldl (fun s b => s.modBank (pcBase i + b) fun x => { x with pred := f b }) s

/-- A sequencer of a pseudo-channel that no stream holds (11 R292, log 32). -/
def freeSeq (s : State) (i : Nat) : Option Nat :=
  (List.range' (i / 4 * 4) 4).find? fun j =>
    let st := (s.stream j).state
    st == .idle || st == .ended || st == .faulted

/-- BSPLIT (11 R291, R292). -/
def execBsplit (w : BWord) (s : State) : Out :=
  controlWord s fun i st t s =>
    match bTarget w st with
    | none => illegalWord s i
    | some n =>
      if 3 ≤ st.split.length then illegalWord s i
      else
        let p1 := maskOf (activeBanks s i st)
        let p0 := st.mask &&& ~~~p1
        let entry (k : SplitKind) : Split := ⟨p1, st.mask, p1, p0, n, k⟩
        if p0 = 0 ∨ p1 = 0 then
          goWord i (if p1 = 0 then n else st.pos + 1) t
            (s.modStream i fun x => { x with split := entry .alone :: x.split })
        else
          match freeSeq s i with
          | none => goWord i (st.pos + 1) t
              ((setPreds s i p1 fun _ => true).modStream i fun x =>
                { x with mask := p1, split := entry .serialFirst :: x.split })
          | some j =>
            let s := setPreds s i st.mask fun _ => true
            let sec : Stream :=
              { state := .running, kernel := st.kernel, bound := st.bound, mask := p0, bpc := BitVec.ofNat 9 n,
                swc := st.swc, entry := st.entry, en := st.en, split := entry .returns :: st.split,
                code := st.code, primary := some i, readyAt := t + 1, window := st.window }
            let s := s.setStream j sec
            let s := (bankList p0).foldl (fun s b => s.modBank (pcBase i + b) fun x => { x with owner := some j }) s
            let s := match s.kernels.get? st.kernel with
              | some k => s.setKernel st.kernel { k with streams := k.streams ++ [j] }
              | none => s
            goWord i (st.pos + 1) t
              (s.modStream i fun x => { x with mask := p1, split := entry (.parallel j) :: x.split })

/-- A secondary that has reached its BJOIN returns its banks to its primary and is IDLE (11 R293). Its record in the park
region is given back (14 R352), and what it has stored to the plinth buffer is the primary's from then on (log 43). -/
def returnBanks (s : State) (j : Nat) : State :=
  let sec := s.stream j
  match sec.primary with
  | none => s
  | some i =>
    let s := (bankList sec.mask).foldl (fun s b => s.modBank (pcBase i + b) fun x => { x with owner := some i }) s
    let s := s.modTower (j / 256) fun x =>
      { x with crossing := x.crossing.map fun c => if c.stream = j then { c with stream := i } else c }
    let s := (freeRecord s sec).modStream i fun x =>
      { x with split := x.split.map fun e => if e.kind = .parallel j then { e with kind := .alone } else e,
               window := match x.window with | some e => some e | none => sec.window,
               readyAt := max x.readyAt sec.readyAt }
    let s := match s.kernels.get? sec.kernel with
      | some k => s.setKernel sec.kernel { k with streams := k.streams.filter (· != j) }
      | none => s
    s.setStream j {}

/-- The state of a stream that leaves WAITING. -/
def Stream.resumed (st : Stream) : StreamState := if st.state = .waiting then st.left else st.state

/-- The stream waits: its word completes by STREAM_WAKE (11 R286). In HANDLER, which WAITING does not follow, the word
waits in place (DEDUCED, log 42). -/
def waitStream (s : State) (i : Nat) (st : Stream) (b : Option (Nat × Nat)) : State :=
  s.modStream i fun x => { x with state := if st.state = .handler then .handler else .waiting, left := st.resumed,
                                  waitFor := b, held := false }

/-- BJOIN (11 R293); false where the stream is WAITING. That of a secondary in HANDLER, which R286 does not know, is
ILLEGAL (log 60). -/
def joinStep (i : Nat) (st : Stream) (t : Nat) (s : State) : State × Bool :=
  match st.split with
  | [] => (illegalWord s i, true)
  | e :: rest =>
    let go (n : Nat) (x : Stream) : Stream := { x.wordDone n t with state := st.resumed, waitFor := none }
    match e.kind with
    | .returns => if st.state = .handler then (illegalWord s i, true) else (returnBanks s i, true)
    | .parallel _ => (waitStream s i st none, false)
    | .serialFirst =>
      ((setPreds s i e.p0 fun _ => true).modStream i fun x =>
        { go e.target x with mask := e.p0, split := { e with kind := .serialSecond } :: rest }, true)
    | _ =>
      ((setPreds s i e.part fun b => e.preds.getLsbD b).modStream i fun x =>
        { go (st.pos + 1) x with mask := e.part, split := rest }, true)

def execBjoin (_w : BWord) (s : State) : Out :=
  controlWord s fun i st t s => (joinStep i st t s).1

/-- Every BUFST of a stream reaches its entry (11 R297). -/
def landAll (s : State) (i : Nat) : State :=
  s.modTower (i / 256) fun x =>
    { x with pbuf := x.crossing.foldl (fun m c => if c.stream = i then m.set c.entry c.bits else m) x.pbuf,
             crossing := x.crossing.filter fun c => c.stream != i }

/-- BSIG (11 R306). -/
def execBsig (_w : BWord) (s : State) : Out :=
  controlWord s fun i st t s =>
    nextWord i st ((landAll s i).modStream (rootStream s 4 i) fun x => { x with mark := x.mark + 1 }) t

/-- BEND (11 R309). In HANDLER, from which R286 has no way to ENDED, it is ILLEGAL (log 60). -/
def execBend (_w : BWord) (s : State) : Out :=
  streamTurn s fun i st =>
    let t0 := streamNow s i st
    let closed := (bankList st.mask).all fun b =>
      (s.bank (pcBase i + b)).allClosed && (s.bank (pcBase i + b)).refb.isNone
    let busy := (bankList st.mask).filter fun b =>
      (List.range 4).any fun n => ((s.bank (pcBase i + b)).projected n).isSome
    if mayAct s i st t0 false = false then putOff s i st t0 false true
    else if st.split ≠ [] ∨ st.state = .handler then illegalWord (reach s (i / 256) t0) i
    else if busy ≠ [] then bankTrap (reach s (i / 256) t0) i 3 busy
    else if closed then endStream (landAll (reach s (i / 256) t0) i) i
    else waitInPlace s i

/-- BWAITT (11 R308); false where the stream is WAITING. -/
def waittStep (w : BWord) (i : Nat) (st : Stream) (t : Nat) (s : State) : State × Bool :=
  match bankList st.mask with
  | [] => (illegalWord s i, true)
  | lead :: _ =>
    let h := (bRead s st i lead w.bs1).toNat
    let n := (bRead s st i lead w.bs2).toNat
    let kind := h / 4096
    let c := match s.kernels.get? st.kernel with | some k => k.ctx | none => 0
    let ok := h < 2 ^ 16 && (kind == 0 || kind == 1 || kind == 3 || kind == 4)
    match if ok then waitView s c none h st.waitFor else none with
    | none => (illegalWord s i, true)
    | some v =>
      if v.faulted.any (· ≤ n) then (streamFault s i 0x8C (groupMask st.bound [lead]), true)
      else if n ≤ v.mark then
        ((nextWord i st s t).modStream i fun x => { x with state := st.resumed, waitFor := none }, true)
      else (waitStream s i st (st.waitFor.or (waitBinding s c h)), false)

def execBwaitt (w : BWord) (s : State) : Out :=
  controlWord s fun i st t s => (waittStep w i st t s).1

/-- BRETT (11 R310). -/
def execBrett (_w : BWord) (s : State) : Out :=
  controlWord s fun i st t s =>
    if st.state ≠ .handler then illegalWord s i
    else
      let s := (bankList st.mask).foldl (fun s b =>
        s.modBank (pcBase i + b) fun x => { x with pred := x.saved, handling := false }) s
      s.modStream i fun x => { x.wordDone st.btepc.toNat t with state := .running }

def execBnop (_w : BWord) (s : State) : Out :=
  controlWord s fun i st t s => nextWord i st s t

end Sys2Proof.Machine
end

