-- ==== Sys2Proof/Machine/Matrix.lean ====
section
/-! DEFINITION. Matrix words (12): operand tiles in the scratchpad, tile registers and their values, MMA, and the
arithmetic of maquettes. A word's checks, flags, scratchpad and tile-register effects come about at its step; its
accumulator value and its FIN count at MATRIX_WORD_COMPLETE (log 14). -/
namespace Sys2Proof.Machine

/-! ## How a matrix word issues and ends -/

/-- What a matrix word has done: the state, and the new value of the accumulator it names. -/
structure MDone where
  s   : State
  acc : BitVec 131072 := 0

/-- A matrix word of the sequencer at place `k` (12 R311, R313, R314; 04 R101): it joins the order of the
accumulator that it names, WAITS for the array, is STALLED behind the order's earlier members, and completes whole. -/
def matrixOp (w : MWord) (acc : Option Nat) (s : State) (body : Nat → Hart → Core → Except Stop MDone) : Out :=
  match s.cur with
  | some (.hart k) =>
    let cn := k / 9
    let c := s.core cn
    let q := match acc with
      | some n => if (c.queue n).contains k then c.queue n else c.queue n ++ [k]
      | none => []
    let join (q : List Nat) : State := match acc with
      | some n => s.setCore cn (c.putQueue n q)
      | none => s
    finishSlot s k
      (if c.job.isSome then .error (.wait (join q))
       else if acc.isSome ∧ q.head? ≠ some k then .error (.stall (join q))
       else
         match body k (s.hart k) c with
         | .error e => .error e
         | .ok d =>
           let s' := d.s
           let c' := s'.core cn
           let c' := match acc with | some n => c'.putQueue n q.tail | none => c'
           .ok (s'.setCore cn { c' with job := some ⟨acc.map fun n => (n, d.acc), w.imm.getLsbD 15⟩ }))
  | _ => .fault .noAgent

/-- A word of mops 4 to 12, which a variant without MAQUETTE lacks (01 R34 to R36). -/
def maquetteOp (mk : MWord → Instr) (w : MWord) (s : State) (body : Nat → Hart → Core → Except Stop MDone) : Out :=
  match s.cur with
  | some (.hart k) =>
    if s.variant.hasMaquette then matrixOp w none s body
    else finishSlot s k (raise cUnitAbsent (parcelWord (mk w)) 0x0012)
  | _ => .fault .noAgent

/-! ## The scratchpad (12 R316) -/

/-- The checks of R316 on the `n` bytes from an offset. -/
def spadCheck (off n : Nat) : Except Stop Unit :=
  if off % 16 ≠ 0 then raise cMisaligned (BitVec.ofNat 64 off)
  else if 0x8_0000 < off + n then raise cAccess (BitVec.ofNat 64 off)
  else .ok ()

/-- The bytes from an offset of a core's scratchpad, or DATA_UNCORRECTABLE at the first unit that holds one. -/
def spadRead (s : State) (c off n : Nat) : Except Stop (List Byte) :=
  match (List.range n).find? fun i => uncorrectable s (coreBase c + off + i) 1 with
  | some i => raise cUncorrectable (BitVec.ofNat 64 (off + i - (off + i) % 8))
  | none => .ok (physBytes s (coreBase c + off) n)

def spadWrite (s : State) (c off : Nat) (bs : List Byte) : State := store s (coreBase c + off) bs none

/-- An operand header (08 R222). -/
structure OpHeader where
  fmt  : Nat
  swz  : Nat
  rows : Nat
  cols : Nat
  deriving DecidableEq, Repr

def readHeader (s : State) (c off : Nat) : Except Stop OpHeader :=
  match spadRead s c off 16 with
  | .error e => .error e
  | .ok bs =>
    let v := ofBytes bs
    .ok ⟨bitsAt v 0 5, bitsAt v 8 3, bitsAt v 16 16, bitsAt v 32 16⟩

/-- The bytes of a header (08 R222). COLS holds a longer row's E modulo 2^16 (DESIGN CHOICE, log 60). -/
def headerBytes (fmt swz rows cols tagh tagn : Nat) : List Byte :=
  toBytes 8 (fmt + swz * 2 ^ 8 + rows % 2 ^ 16 * 2 ^ 16 + cols % 2 ^ 16 * 2 ^ 32) ++
    toBytes 8 (tagh % 2 ^ 16 + tagn % 2 ^ 48 * 2 ^ 16)

/-- A header as MMA checks it (12 R324): one that cannot be corrected shows no field, and traps after every other
check (log 57). -/
def peekHeader (s : State) (c off : Nat) : Option OpHeader :=
  match readHeader s c off with
  | .ok h => some h
  | .error _ => none

/-- The header checks of R317. -/
def headerMatches (off : Nat) (h : OpHeader) (fmt swz rows cols : Nat) : Except Stop Unit :=
  if h.fmt ≠ fmt ∨ h.rows ≠ rows ∨ h.cols ≠ cols then
    raise cHeaderFormat (BitVec.ofNat 64 off) (BitVec.ofNat 64 h.fmt)
  else if h.swz ≠ swz then raise cSwizzle (BitVec.ofNat 64 off) (BitVec.ofNat 64 h.swz)
  else .ok ()

/-- The slot of a sequencer among its group's hosting cores, as a handle (12 R312). -/
def seqHandle (s : State) (k : Nat) (h : Hart) : Nat :=
  0x2000 + (match s.groupOf h with
    | some (g, _) => (g.cores.findIdx? (· == k / 9)).getD 0
    | none => 0)

/-- f_s(r) of R318. -/
def swzF (swz r : Nat) : Nat :=
  match swz with
  | 0 => 0 | 1 => r | 2 => r / 2 | 3 => r / 4 | 4 => 2 * r | 5 => 4 * r | 6 => r ^^^ (r / 8) | _ => r / 8

/-- A row with its 16-byte units permuted as R318 gives, which is its own inverse. -/
def swzRow (swz r : Nat) (row : List Byte) : List Byte :=
  if swz = 0 then row
  else
    let u := row.length / 16
    (List.range u).flatMap fun i => (row.drop (16 * (i ^^^ (swzF swz r % u)))).take 16

/-- The 64 rows of `rb` bytes of a tile. -/
def tileRows (swz rb : Nat) (bs : List Byte) : List (List Byte) :=
  (List.range 64).map fun r => swzRow swz r ((bs.drop (rb * r)).take rb)

/-- The values of a row of a type. -/
def rowVals (t : Nat) (row : List Byte) : List Val :=
  let v := ofBytes row
  if Ty.isBfp t then
    let b := Ty.bfpBytes t
    (List.range (row.length / b)).flatMap fun j =>
      (List.range 32).map fun i => bfpElem (Ty.bfpM t) (bitsAt v (8 * b * j) (8 * b)) i
  else
    let w := Ty.width t
    (List.range (8 * row.length / w)).map fun i => decodeElem t (bitsAt v (w * i) w)

/-- Row bytes of an MMA operand type (12 R316). -/
def opRowBytes (t : Nat) : Nat :=
  if Ty.isBfp t then mmaK t / 32 * Ty.bfpBytes t else mmaK t * Ty.width t / 8

/-! ## Flags of FP32 arithmetic -/

/-- A computation that raises flags. -/
abbrev Fp := StateM Flags

def fpGet (r : Nat × Flags) : Fp Nat := fun f => (r.1, f ||| r.2)

def f32 (b : Nat) : Val := decodeF 9 b
def negBits (b : Nat) : Nat := (b ^^^ 0x8000_0000)
def isZeroBits (b : Nat) : Bool := b % 0x8000_0000 == 0

/-- Dot (12 R322), of FP32 bits. -/
def fpDot (a b : List Nat) : Fp Nat := fpGet (dotFrom .rne 0 ((a.map f32).zip (b.map f32)))
def fpAdd (a b : Nat) : Fp Nat := fpGet (fAdd 9 .rne (f32 a) (f32 b))
def fpMul (a b : Nat) : Fp Nat := fpGet (fMul 9 .rne (f32 a) (f32 b))
def fpDiv (a b : Nat) : Fp Nat := fpGet (fDiv 9 .rne (f32 a) (f32 b))
def fpSqrt (a : Nat) : Fp Nat := fpGet (fSqrt 9 .rne (f32 a))
def fpFma (a b c : Nat) : Fp Nat := fpGet (fFma 9 .rne (f32 a) (f32 b) (f32 c))

/-! ## Tile registers (12 R320 to R322) -/

def Core.tileAt (c : Core) (m : BitVec 4) : Tile := c.tile[m.toNat]

/-- Rank of a register that counts EMPTY as rank 0. -/
def Tile.rank : Tile → Nat | .maquette r _ _ => r | _ => 0
def Tile.isDense : Tile → Bool | .dense32 _ => true | .dense16 _ => true | _ => false

/-- 64 rows of `r` FP32 elements. -/
def factorRows (r : Nat) (l : List (BitVec 32)) : List (List Nat) :=
  (List.range 64).map fun i => ((l.drop (r * i)).take r).map fun b => b.toNat

/-- The factors of a register, as rows. -/
def Tile.factors : Tile → List (List Nat) × List (List Nat)
  | .maquette r u v => (factorRows r u, factorRows r v)
  | _ => (List.replicate 64 [], List.replicate 64 [])

def mkMaquette (r : Nat) (u v : List (List Nat)) : Tile :=
  .maquette r (u.flatMap fun x => x.map (BitVec.ofNat 32)) (v.flatMap fun x => x.map (BitVec.ofNat 32))

/-- R58 from +0 over the columns of two factors: FP32 bits, row-major. -/
def fpProduct (mode : RMode) (u v : List (List Nat)) : Fp (List Nat) :=
  (u.flatMap fun a => v.map fun b => (a, b)).mapM fun p =>
    fpGet (dotFrom mode 0 ((p.1.map f32).zip (p.2.map f32)))

/-- The dense value of a register (12 R322), row-major. -/
def Tile.dense (t : Tile) : Fp (List Val) :=
  match t with
  | .empty => pure (List.replicate 4096 (.fin false 0 0))
  | .dense32 m => pure ((List.range 4096).map fun i => decodeF 9 (getField m (32 * i) 32))
  | .dense16 m => pure ((List.range 4096).map fun i => decodeF 8 (getField m (16 * i) 16))
  | .maquette r u v => do
    let b ← fpProduct .rne (factorRows r u) (factorRows r v)
    pure (b.map f32)

/-- A DENSE register of a type from element bits. -/
def mkDense (t : Nat) (l : List Nat) : Tile :=
  if t = 8 then .dense16 (BitVec.ofNat 65536 (packElems 16 l)) else .dense32 (BitVec.ofNat 131072 (packElems 32 l))

/-- The free granules of a tile store, with those of register `md` where they may be taken again (12 R321). -/
def Core.openGranules (c : Core) (md : Nat) (again : Bool) : List Nat :=
  (List.range 256).filter fun g => c.grans.toList.zipIdx.all fun p => (again && p.2 == md) || !p.1.contains g

/-- `n` of some granules, in an order that is not architectural (12 R320). -/
def takeGranules (stamp : Nat) : Nat → List Nat → List Nat
  | 0, _ => []
  | n + 1, l => match l[Config.pickGranule stamp n % l.length]? with
    | none => []
    | some g => g :: takeGranules stamp n (l.filter (· != g))

/-- A core with a value in tile register `md` and the granules that it takes (12 R320). -/
def Core.putTile (c : Core) (md : BitVec 4) (t : Tile) (gs : List Nat) : Core :=
  { c with tile := c.tile.set md.toNat t, grans := c.grans.set md.toNat gs,
           store := c.store.filter fun p => !gs.contains (p.1 / 1024) }

/-- Write md, if its granules fit (12 R321); `srcs` are the word's sources. -/
def tileWrite (s : State) (cn : Nat) (md : BitVec 4) (t : Tile) (srcs : List (BitVec 4)) : Except Stop State :=
  let c := s.core cn
  let f := c.freeGranules + if srcs.contains md then 0 else (c.tileAt md).granules
  if f < t.granules then raise cTileStoreFull (md.zeroExtend 64) (BitVec.ofNat 64 t.granules)
  else
    let gs := takeGranules s.free t.granules (c.openGranules md.toNat (!srcs.contains md))
    .ok { s.setCore cn (c.putTile md t gs) with free := s.free + 1 }

/-- A result whose rank exceeds MQRMAX traps when D is 0 (12 R327 to R329). -/
def rankTrap (md : BitVec 4) (r : Nat) : Except Stop State :=
  raise cRankOverflow (md.zeroExtend 64) (BitVec.ofNat 64 r)

/-- Write md with a result and the flags it raised. -/
def tileFinish (s : State) (k : Nat) (md : BitVec 4) (srcs : List (BitVec 4)) (r : Tile × Flags) : Except Stop MDone :=
  (tileWrite s (k / 9) md r.1 srcs).map fun s => ⟨s.modHart k fun h => h.addFlags r.2, 0⟩

/-! ## MMA (12 R324) -/

/-- One row of A: the value at each k, with none at a structural zero (12 R319). -/
abbrev ARow := List (Option Val)

/-- The positions of the two values of a group of four, from its metadata. -/
def sparseGroup (md g : Nat) : Nat × Nat := (bitsAt md (4 * g) 2, bitsAt md (4 * g + 2) 2)

/-- A row of a sparse tile expanded to K positions. -/
def sparseRow (kk : Nat) (xs : List Val) (md : Nat) : ARow :=
  (List.range (kk / 4)).flatMap fun g =>
    let p := sparseGroup md g
    (List.range 4).map fun i =>
      if i = p.1 then xs[2 * g]? else if i = p.2 then xs[2 * g + 1]? else none

/-- The A tile of an MMA, after its checks. -/
def mmaA (s : State) (c off t swz : Nat) (sp : Bool) : Except Stop (List ARow) :=
  let kk := mmaK t
  let rb := if sp then opRowBytes t / 2 else opRowBytes t
  match spadRead s c (off + 16) (64 * rb + if sp then 8 * kk else 0) with
  | .error e => .error e
  | .ok bs =>
    let rows := (tileRows swz rb bs).map (rowVals t)
    if sp then
      let md := (List.range 64).map fun i => ofBytes ((bs.drop (64 * rb + kk / 8 * i)).take (kk / 8))
      .ok ((rows.zip md).map fun p => sparseRow kk p.1 p.2)
    else .ok (rows.map fun r => r.map some)

/-- A group of metadata with i0 ≥ i1 (12 R319), where it can be read (log 57). -/
def sparseBad (s : State) (c off t : Nat) : Bool :=
  let kk := mmaK t
  let base := coreBase c + off + 16 + 64 * (opRowBytes t / 2)
  let bs := physBytes s base (8 * kk)
  (List.range (16 * kk)).any fun g =>
    let p := sparseGroup (ofBytes ((bs.drop (g / 2)).take 1)) (g % 2)
    decide (p.2 ≤ p.1) && !uncorrectable s (base + g / 2) 1

/-- The factor pairs of one output element: a structural zero of A contributes nothing (02 R64). -/
def mmaPairs (a : ARow) (b : List Val) : List (Val × Val) :=
  (a.zip b).map fun p => match p.1 with
    | some x => (x, p.2)
    | none => (.fin false 0 0, .fin false 0 0)

/-- A B element that is not finite stands against a structural zero (02 R66). -/
def sparseHidden (a : ARow) (b : List Val) : Bool :=
  (a.zip b).any fun p => p.1.isNone && (p.2.isNaN || p.2.isInf)

/-- A·B added into an accumulator, element by element, with the lowest element that R66 marks. -/
def mmaDense (mode : RMode) (acc : BitVec 131072) (a : List ARow) (b : List (List Val)) :
    List Nat × Flags × Option Nat :=
  let r := (a.zipIdx.flatMap fun p => b.zipIdx.map fun q => (64 * p.2 + q.2, p.1, q.1)).map
    fun (x : Nat × ARow × List Val) =>
      (x.1, dotFrom mode (getField acc (32 * x.1) 32) (mmaPairs x.2.1 x.2.2), sparseHidden x.2.1 x.2.2)
  (r.map fun x => x.2.1.1, r.foldl (fun f x => f ||| x.2.1.2) 0, (r.find? fun x => x.2.2).map fun x => x.1)

/-- A times a maquette of rank r (12 R324): T[l] first, then the columns of V. -/
def mmaMaquette (mode : RMode) (acc : BitVec 131072) (a : List ARow) (r : Nat) (u v : List (List Nat)) :
    Fp (List Nat) := do
  let cols := (List.range r).map fun l => u.map fun row => f32 (row.getD l 0)
  let out ← a.zipIdx.mapM fun p => do
    let t ← cols.mapM fun c => fpGet (dotFrom .rne 0 (mmaPairs p.1 c))
    v.zipIdx.mapM fun q =>
      fpGet (dotFrom mode (getField acc (32 * (64 * p.2 + q.2)) 32) ((t.map f32).zip (q.1.map f32)))
  pure out.flatten

/-- The lowest element that R66 marks where B is a maquette: a factor element of U that is not finite stands against
a structural zero of row i, whose every output it reaches. -/
def maquetteHidden (a : List ARow) (r : Nat) (u : List (List Nat)) : Option Nat :=
  let cols := (List.range r).map fun l => u.map fun row => f32 (row.getD l 0)
  (a.zipIdx.find? fun p => cols.any fun c => sparseHidden p.1 c).map fun p => 64 * p.2

/-- MMA (12 R324). An EMPTY B leaves the accumulator unchanged. -/
def execMma (w : MWord) (s : State) : Out :=
  matrixOp w (some w.ad.toNat) s fun k h c => do
    let cn := k / 9
    let ta := w.ta.toNat
    let tb := w.tb.toNat
    let br := w.imm.getLsbD 0
    let kk := mmaK ta
    let xa := (h.rd w.xa).toNat
    let xb := (h.rd w.xb).toNat
    let mode := arithMode h.frm w.rm
    let acc := c.accAt w.ad.toNat
    spadCheck xa (16 + 64 * (if w.sp then opRowBytes ta / 2 else opRowBytes ta) + if w.sp then 8 * kk else 0)
    if br then pure () else spadCheck xb (16 + 64 * opRowBytes tb)
    match peekHeader s cn xa with
    | some ha => headerMatches xa ha ta w.sw.toNat 64 (if w.sp then kk / 2 else kk)
    | none => pure ()
    if br then pure () else
      match peekHeader s cn xb with
      | some hb => headerMatches xb hb tb w.sw.toNat 64 kk
      | none => pure ()
    if w.sp ∧ sparseBad s cn xa ta = true then
      raise cHeaderFormat (BitVec.ofNat 64 xa) (BitVec.ofNat 64 ta)
    let _ ← readHeader s cn xa
    let a ← mmaA s cn xa ta w.sw.toNat w.sp
    let bRows ← if br then pure [] else do
      let _ ← readHeader s cn xb
      let bs ← spadRead s cn (xb + 16) (64 * opRowBytes tb)
      pure ((tileRows w.sw.toNat (opRowBytes tb) bs).map (rowVals tb))
    let t := c.tileAt w.ms2
    let done (l : List Nat) (fl : Flags) (hid : Option Nat) : MDone :=
      ⟨s.modHart k fun h =>
        let h := h.addFlags fl
        match hid with
        | some e =>
          let v : Word := BitVec.ofNat 64 (e + w.ad.toNat * 2 ^ 12)
          let h := h.addFlags fNV
          if h.tstat.prv then { h with s := { h.s with tval2 := v } } else { h with u := { h.u with tval2 := v } }
        | none => h, BitVec.ofNat 131072 (packElems 32 l)⟩
    match br, t with
    | true, .empty => pure ⟨s, acc⟩
    | true, .maquette r _ _ =>
      let f := t.factors
      let x := mmaMaquette mode acc a r f.1 f.2 0
      pure (done x.1 x.2 (maquetteHidden a r f.1))
    | true, _ =>
      let d := t.dense 0
      let cols := (List.range 64).map fun j => (List.range 64).map fun i => (d.1.getD (64 * i + j) (.fin false 0 0))
      let x := mmaDense mode acc a cols
      pure (done x.1 (x.2.1 ||| d.2) x.2.2)
    | false, _ =>
      let x := mmaDense mode acc a bRows
      pure (done x.1 x.2.1 x.2.2)

/-- MZERO (12 R325). -/
def execMzero (w : MWord) (s : State) : Out :=
  matrixOp w (some w.ad.toNat) s fun _ _ _ => .ok ⟨s, 0⟩

/-! ## Tiles and images (12 R326, R327, R332) -/

/-- MTLD (12 R326). -/
def execMtld (w : MWord) (s : State) : Out :=
  matrixOp w none s fun k h _ => do
    let t := w.ta.toNat
    let xa := (h.rd w.xa).toNat
    let rb := 8 * Ty.width t
    spadCheck xa (16 + 64 * rb)
    let hd ← readHeader s (k / 9) xa
    headerMatches xa hd t w.sw.toNat 64 64
    let bs ← spadRead s (k / 9) (xa + 16) (64 * rb)
    let m := ofBytes (tileRows w.sw.toNat rb bs).flatten
    tileFinish s k w.md [] (if t = 8 then .dense16 (BitVec.ofNat 65536 m) else .dense32 (BitVec.ofNat 131072 m), 0)

/-- The element bits of a register in a DENSE type (12 R326, R331): copied from that type, else rounded. -/
def tileBits (x : Tile) (t : Nat) (mode : RMode) : Fp (List Nat) :=
  match x, t with
  | .dense16 m, 8 => pure ((List.range 4096).map fun i => getField m (16 * i) 16)
  | .dense32 m, 9 => pure ((List.range 4096).map fun i => getField m (32 * i) 32)
  | _, _ => do
    let d ← x.dense
    d.mapM fun v => fpGet (cvtVal t mode v 0)

/-- MTST (12 R326). -/
def execMtst (w : MWord) (s : State) : Out :=
  matrixOp w none s fun k h c => do
    let t := w.ta.toNat
    let xa := (h.rd w.xa).toNat
    let rb := 8 * Ty.width t
    spadCheck xa (16 + 64 * rb)
    let b := tileBits (c.tileAt w.ms1) t (arithMode h.frm w.rm) 0
    let rows := tileRows w.sw.toNat rb (toBytes (64 * rb) (packElems (Ty.width t) b.1))
    let s' := spadWrite s (k / 9) (xa + 16) rows.flatten
    let s' := spadWrite s' (k / 9) xa (headerBytes t w.sw.toNat 64 64 (seqHandle s k h) 0)
    pure ⟨s'.modHart k fun h => h.addFlags b.2, 0⟩

/-- MQLD (12 R327). -/
def execMqld (w : MWord) (s : State) : Out :=
  maquetteOp .mqld w s fun k h _ => do
    let xa := (h.rd w.xa).toNat
    spadCheck xa 16
    let hd ← readHeader s (k / 9) xa
    if hd.fmt ≠ 9 ∨ hd.rows ≠ 128 ∨ 32 < hd.cols then
      raise cHeaderFormat (BitVec.ofNat 64 xa) (BitVec.ofNat 64 hd.fmt)
    if hd.swz ≠ 0 then raise cSwizzle (BitVec.ofNat 64 xa) (BitVec.ofNat 64 hd.swz)
    let r := hd.cols
    spadCheck xa (16 + 512 * r)
    let bs ← spadRead s (k / 9) (xa + 16) (512 * r)
    let f := (List.range (128 * r)).map fun i => BitVec.ofNat 32 (ofBytes ((bs.drop (4 * i)).take 4))
    let t := Tile.maquette r (f.take (64 * r)) (f.drop (64 * r))
    if r ≤ h.mqrmax.toNat then tileFinish s k w.md [] (t, 0)
    else if w.imm.getLsbD 0 then
      let d := fpProduct .rne t.factors.1 t.factors.2 0
      tileFinish s k w.md [] (mkDense 9 d.1, d.2)
    else (rankTrap w.md r).map fun s => ⟨s, 0⟩

/-- MQST (12 R327). -/
def execMqst (w : MWord) (s : State) : Out :=
  maquetteOp .mqst w s fun k h c => do
    let t := c.tileAt w.ms1
    let xa := (h.rd w.xa).toNat
    if xa % 16 ≠ 0 then raise cMisaligned (BitVec.ofNat 64 xa)
    if t.isDense then raise cHeaderFormat (BitVec.ofNat 64 xa) 9
    let r := t.rank
    spadCheck xa (16 + 512 * r)
    let s' := spadWrite s (k / 9) (xa + 16) ((t.factors.1 ++ t.factors.2).flatMap fun row => row.flatMap (toBytes 4))
    pure ⟨spadWrite s' (k / 9) xa (headerBytes 9 0 128 r (seqHandle s k h) 0), 0⟩

/-- MTHDR (12 R332). -/
def execMthdr (w : MWord) (s : State) : Out :=
  matrixOp w none s fun k h _ => do
    let v := (h.rd w.xb).toNat
    let xa := (h.rd w.xa).toNat
    if 2 ^ 32 ≤ v then raise cIllegal (parcelWord (.mthdr w))
    spadCheck xa 16
    pure ⟨spadWrite s (k / 9) xa
      (headerBytes w.ta.toNat w.sw.toNat (v % 2 ^ 16) (v / 2 ^ 16) (seqHandle s k h) 0), 0⟩

/-! ## Maquette arithmetic (12 R328, R329, R331) -/

/-- MQADD (12 R328). -/
def execMqadd (w : MWord) (s : State) : Out :=
  maquetteOp .mqadd w s fun k h c =>
    let a := c.tileAt w.ms1
    let b := c.tileAt w.ms2
    let mode := arithMode h.frm w.rm
    let srcs := [w.ms1, w.ms2]
    if a.isDense || b.isDense then
      let r := (do
        let x ← a.dense
        let y ← b.dense
        (x.zip y).mapM fun p => fpGet (fAdd 9 mode p.1 p.2) : Fp (List Nat)) 0
      tileFinish s k w.md srcs (mkDense 9 r.1, r.2)
    else
      let r := a.rank + b.rank
      let u := List.zipWith (· ++ ·) a.factors.1 b.factors.1
      let v := List.zipWith (· ++ ·) a.factors.2 b.factors.2
      if r ≤ h.mqrmax.toNat then tileFinish s k w.md srcs (mkMaquette r u v, 0)
      else if w.imm.getLsbD 0 then
        let d := fpProduct mode u v 0
        tileFinish s k w.md srcs (mkDense 9 d.1, d.2)
      else (rankTrap w.md r).map fun s => ⟨s, 0⟩

/-- The columns of a matrix of rows. -/
def columns (n : Nat) (rows : List (List Nat)) : List (List Nat) :=
  (List.range n).map fun j => rows.map fun r => r.getD j 0

/-- The product of two maquettes, as a rank and two factors (12 R329). -/
def maquetteMul (r1 r2 : Nat) (f1 f2 : List (List Nat) × List (List Nat)) : Fp (List (List Nat) × List (List Nat)) := do
  let v1 := columns r1 f1.2
  let u2 := columns r2 f2.1
  let c ← v1.mapM fun a => u2.mapM fun b => fpDot a b
  if r1 ≤ r2 then
    let v ← f2.2.mapM fun row => c.mapM fun cl => fpDot row cl
    pure (f1.1, v)
  else
    let cols := columns r2 c
    let u ← f1.1.mapM fun row => cols.mapM fun cn => fpDot row cn
    pure (u, f2.2)

/-- MQMUL (12 R329). -/
def execMqmul (w : MWord) (s : State) : Out :=
  maquetteOp .mqmul w s fun k h c =>
    let a := c.tileAt w.ms1
    let b := c.tileAt w.ms2
    let mode := arithMode h.frm w.rm
    let srcs := [w.ms1, w.ms2]
    if a.isDense || b.isDense then
      let r := (do
        let x ← a.dense
        let y ← b.dense
        let rows := (List.range 64).map fun i => (x.drop (64 * i)).take 64
        let cols := (List.range 64).map fun j => (List.range 64).map fun i => y.getD (64 * i + j) (.fin false 0 0)
        (rows.flatMap fun p => cols.map fun q => (p, q)).mapM fun p =>
          fpGet (dotFrom mode 0 (p.1.zip p.2)) : Fp (List Nat)) 0
      tileFinish s k w.md srcs (mkDense 9 r.1, r.2)
    else
      let r := min a.rank b.rank
      if h.mqrmax.toNat < r ∧ w.imm.getLsbD 0 = false then (rankTrap w.md r).map fun s => ⟨s, 0⟩
      else
        let f := maquetteMul a.rank b.rank a.factors b.factors 0
        if r ≤ h.mqrmax.toNat then tileFinish s k w.md srcs (mkMaquette r f.1.1 f.1.2, f.2)
        else
          let d := fpProduct .rne f.1.1 f.1.2 f.2
          tileFinish s k w.md srcs (mkDense 9 d.1, d.2)

/-- MQCAST (12 R331). -/
def execMqcast (w : MWord) (s : State) : Out :=
  maquetteOp .mqcast w s fun k h c =>
    let t := w.ta.toNat
    let r := (do
      let d ← (c.tileAt w.ms1).dense
      d.mapM fun v => fpGet (cvtVal t (arithMode h.frm w.rm) v 0) : Fp (List Nat)) 0
    tileFinish s k w.md [w.ms1] (mkDense t r.1, r.2)

/-- MQRANK (12 R331). -/
def execMqrank (w : MWord) (s : State) : Out :=
  maquetteOp .mqrank w s fun k _ c =>
    let t := c.tileAt w.ms1
    let state := match t with | .empty => 0 | .maquette _ _ _ => 2 | _ => 1
    let half := match t with | .dense16 _ => 1 | _ => 0
    .ok ⟨s.wrX k w.xa (BitVec.ofNat 64 (t.rank + state * 2 ^ 6 + half * 2 ^ 8 + t.granules * 2 ^ 9)), 0⟩

/-- MQFREE (12 R331). -/
def execMqfree (w : MWord) (s : State) : Out :=
  maquetteOp .mqfree w s fun k _ _ => tileFinish s k w.md [] (.empty, 0)

/-- MQSCL (12 R331). -/
def execMqscl (w : MWord) (s : State) : Out :=
  maquetteOp .mqscl w s fun k h c =>
    let mode := arithMode h.frm w.rm
    let x := decodeF 9 ((h.rd w.xa).toNat % 2 ^ 32)
    let scale (t : Nat) (l : List Nat) : Fp (List Nat) := l.mapM fun b => fpGet (fMul t mode x (decodeF t b))
    let r : Tile × Flags := match c.tileAt w.ms1 with
      | .empty => (.empty, 0)
      | .dense32 m =>
        let b := scale 9 ((List.range 4096).map fun i => getField m (32 * i) 32) 0
        (mkDense 9 b.1, b.2)
      | .dense16 m =>
        let b := scale 8 ((List.range 4096).map fun i => getField m (16 * i) 16) 0
        (mkDense 8 b.1, b.2)
      | .maquette r u v =>
        let b := scale 9 (u.map fun e => e.toNat) 0
        (.maquette r (b.1.map (BitVec.ofNat 32)) v, b.2)
    tileFinish s k w.md [w.ms1] r

/-! ## CHISEL (12 R330) -/

/-- Modified Gram–Schmidt of columns of 64: the columns of Q, and those of R down to the diagonal. -/
def gramSchmidt (cols : List (List Nat)) : Fp (List (List Nat) × List (List Nat)) :=
  cols.foldlM (fun (a : List (List Nat) × List (List Nat)) col => do
    let r ← a.1.foldlM (fun (b : List Nat × List Nat) q => do
      let d ← fpDot q b.1
      let v ← (q.zip b.1).mapM fun p => fpFma (negBits d) p.1 p.2
      pure (v, b.2 ++ [d])) (col, [])
    let n ← fpDot r.1 r.1
    let rjj ← fpSqrt n
    let q ← if isZeroBits rjj then pure (List.replicate 64 0) else r.1.mapM fun x => fpDiv x rjj
    pure (a.1 ++ [q], a.2 ++ [r.2 ++ [rjj]])) ([], [])

/-- One rotation of the columns p and q of W and Z. -/
def jacobi (w z : List (List Nat)) (p q : Nat) : Fp (List (List Nat) × List (List Nat)) := do
  let one := 0x3F80_0000
  let wp := w.getD p []
  let wq := w.getD q []
  let al ← fpDot wp wp
  let be ← fpDot wq wq
  let ga ← fpDot wp wq
  if isZeroBits ga then pure (w, z)
  else
    let num ← fpAdd be (negBits al)
    let den ← fpMul 0x4000_0000 ga
    let zt ← fpDiv num den
    let ff ← fpFma zt zt one
    let rt ← fpSqrt ff
    let ab ← fpAdd (zt % 0x8000_0000) rt
    let nonneg := !(f32 zt).isNaN && decide (0 ≤ (f32 zt).cmp (.fin false 0 0))
    let t ← fpDiv (if nonneg then one else negBits one) ab
    let tt ← fpFma t t one
    let rt2 ← fpSqrt tt
    let c ← fpDiv one rt2
    let sn ← fpMul c t
    let turn (x : List (List Nat)) : Fp (List (List Nat)) := do
      let xp := x.getD p []
      let xq := x.getD q []
      let np ← (xp.zip xq).mapM fun e => do
        let m ← fpMul c e.1
        fpFma (negBits sn) e.2 m
      let nq ← (xp.zip xq).mapM fun e => do
        let m ← fpMul sn e.1
        fpFma c e.2 m
      pure ((x.set p np).set q nq)
    let w' ← turn w
    let z' ← turn z
    pure (w', z')

/-- Insert by σ descending, after those that are equal. -/
def insertDesc (x : Nat × List Nat × List Nat) : List (Nat × List Nat × List Nat) → List (Nat × List Nat × List Nat)
  | [] => [x]
  | y :: t => if (f32 y.1).cmp (f32 x.1) < 0 then x :: y :: t else y :: insertDesc x t

/-- The smallest rank whose discarded tail is within the tolerance; r if none. -/
def chiselRank (tol : Val) (sig : List Nat) : Nat → Nat → Fp Nat
  | 0, k => pure k
  | n + 1, k => do
    let d ← fpDot (sig.drop k) (sig.drop k)
    let e ← fpSqrt d
    if !(f32 e).isNaN && !tol.isNaN && decide ((f32 e).cmp tol ≤ 0) then pure k
    else if n = 0 then pure k
    else chiselRank tol sig n (k + 1)

/-- The recompression of a maquette of rank r. -/
def chiselFactors (r : Nat) (f : List (List Nat) × List (List Nat)) (tol : Val) :
    Fp (Nat × List (List Nat) × List (List Nat)) := do
  let (qu, ru) ← gramSchmidt (columns r f.1)
  let (qv, rv) ← gramSchmidt (columns r f.2)
  let row (m : List (List Nat)) (i : Nat) : List Nat :=
    (List.range r).map fun j => if i ≤ j then (m.getD j []).getD i 0 else 0
  let w ← (List.range r).mapM fun j => (List.range r).mapM fun i => fpDot (row ru i) (row rv j)
  let z := (List.range r).map fun j => (List.range r).map fun i => if i = j then 0x3F80_0000 else 0
  let pairs := (List.range r).flatMap fun p => (List.range' (p + 1) (r - p - 1)).map fun q => (p, q)
  let wz ← (List.range 6).foldlM (fun a _ => pairs.foldlM (fun (b : List (List Nat) × List (List Nat)) pq =>
    jacobi b.1 b.2 pq.1 pq.2) a) (w, z)
  let sig ← wz.1.mapM fun c => do
    let d ← fpDot c c
    fpSqrt d
  let sorted := (sig.zip (wz.1.zip wz.2)).foldl (fun l x => insertDesc x l) []
  let k ← chiselRank tol (sorted.map fun x => x.1) (r + 1) 0
  let cols ← (sorted.take k).mapM fun x => do
    let y ← if isZeroBits x.1 then pure (List.replicate r 0) else x.2.1.mapM fun e => fpDiv e x.1
    let u ← (List.range 64).mapM fun i => do
      let d ← fpDot (qu.map fun q => q.getD i 0) y
      fpMul d x.1
    let v ← (List.range 64).mapM fun i => fpDot (qv.map fun q => q.getD i 0) x.2.2
    pure (u, v)
  pure (k, columns 64 (cols.map fun p => p.1), columns 64 (cols.map fun p => p.2))

/-- CHISEL (12 R330). Its rank never grows, so that md = ms1 always has room. -/
def execChisel (w : MWord) (s : State) : Out :=
  maquetteOp .chisel w s fun k h c =>
    let t := c.tileAt w.ms1
    match t with
    | .empty => tileFinish s k w.md [] (.empty, 0)
    | .maquette r u v =>
      if (u ++ v).any fun b => (f32 b.toNat).isInf || (f32 b.toNat).isNaN then tileFinish s k w.md [] (t, fNV)
      else
        let x := chiselFactors r t.factors (f32 h.mqtol.toNat) 0
        tileFinish s k w.md [] (mkMaquette x.1.1 x.1.2.1 x.1.2.2, x.2 &&& (fNX ||| fUF ||| fOF))
    | _ => (rankTrap w.md 64).map fun s => ⟨s, 0⟩

end Sys2Proof.Machine
end

