-- ==== Sys2Proof/Machine/Plinth.lean ====
section
/-! DEFINITION. The steps of the plinth (10, 11): what a stream has begun comes about at its end, refresh, and the
yields to ordinary traffic. Time reaches the cycle of each end as it comes about (log 19). -/
namespace Sys2Proof.Machine

/-- The streams of a tower that are to stop do so where they may (11 R290). -/
def haltAll (s : State) (t : Nat) : State :=
  s.streams.foldl (fun s p =>
    if p.1 / 256 = t ∧ p.2.stopping = true ∧ mayHalt s p.1 (s.stream p.1) = true then endStream s p.1 else s) s

/-- What follows an end at its cycle: yields begin their next steps (11 R299), and streams stop. -/
def followUp (s : State) (t : Nat) : State := haltAll (yieldsTo s t (s.tower t).now) t

/-- What ends at cycle `d` of a tower comes about, if time may reach it. -/
def comeAbout (s : State) (t d : Nat) (f : State → State) : Option State :=
  if mayPass s t d then some (followUp (f (reach s t d)) t) else none

/-- A slot's passage in a state ends. -/
def slotElapsed (bank slot : Nat) (st : SlotState) (s : State) : Option State :=
  let y := (s.bank bank).slotAt slot
  if slot < 4 ∧ y.state = st ∧ (s.bank bank).copying slot = false then
    comeAbout s (bank / 1024) y.due fun s => commitSlot s bank slot
  else none

/-- OPENING ends (10 R252): the slot holds its row. -/
def tryTacuElapsed (bank slot : Nat) (s : State) : Option State := slotElapsed bank slot .opening s
def execTacuElapsed (bank slot : Nat) (s : State) : Out := comes s (tryTacuElapsed bank slot s)

/-- WRITING ends (10 R252): the array holds the slot's contents. -/
def tryTwbkElapsed (bank slot : Nat) (s : State) : Option State := slotElapsed bank slot .writing s
def execTwbkElapsed (bank slot : Nat) (s : State) : Out := comes s (tryTwbkElapsed bank slot s)

/-- PRECHARGING ends (10 R252). -/
def tryTpreElapsed (bank slot : Nat) (s : State) : Option State := slotElapsed bank slot .precharging s
def execTpreElapsed (bank slot : Nat) (s : State) : Out := comes s (tryTpreElapsed bank slot s)

/-- A row pass ends (10 R253). -/
def tryRowPassEnd (bank : Nat) (s : State) : Option State :=
  match (s.bank bank).pass with
  | some p => if p.move then none else comeAbout s (bank / 1024) p.due fun s => commitPass s bank
  | none => none
def execRowPassEnd (bank : Nat) (s : State) : Out := comes s (tryRowPassEnd bank s)

/-- An RCOPY ends (10 R274). -/
def tryRcopyComplete (bank slot : Nat) (s : State) : Option State :=
  match (s.bank bank).rcopy.find? fun r => r.slot == slot with
  | some r => comeAbout s (bank / 1024) (r.start + tRcopy) fun s => commitRcopy s bank slot
  | none => none
def execRcopyComplete (bank slot : Nat) (s : State) : Out := comes s (tryRcopyComplete bank slot s)

/-- A REFB ends (10 R272). Those of a forced refresh follow one another until the debt is 8 (R264). -/
def tryRefbComplete (bank : Nat) (s : State) : Option State :=
  match (s.bank bank).refb with
  | some d => comeAbout s (bank / 1024) d fun s => (commitRefb s bank).modBank bank fun x =>
      if x.forced = true ∧ x.owner = none then
        (if 8 < x.debt then { x with refb := some (d + tRefb) } else { x with forced := false })
      else x
  | none => none
def execRefbComplete (bank : Nat) (s : State) : Out := comes s (tryRefbComplete bank s)

/-- The banks of a stream that take part in the move on its bus. -/
def movingBanks (s : State) (i : Nat) : List Nat :=
  ((List.range 16).map (pcBase i + ·)).filter fun k =>
    (s.bank k).owner == some i && (match (s.bank k).pass with | some p => p.move | none => false)

/-- A bus move ends (11 R295): its receivers hold the row, and SWC counts it while the word goes on. -/
def tryBusMoveEnd (stream : Nat) (s : State) : Option State :=
  match movingBanks s stream with
  | [] => none
  | k :: ks =>
    match (s.bank k).pass with
    | none => none
    | some p => comeAbout s (stream / 256) p.due fun s =>
      ((k :: ks).foldl commitPass s).modStream stream fun x =>
        if x.phase = 1 then { x with phase := 0, swc := x.swc + 1 } else x
def execBusMoveEnd (stream : Nat) (s : State) : Out := comes s (tryBusMoveEnd stream s)

/-! ## Further timers: a word that waited for one may go on -/

/-- tAPR after an activate elapses (10 R254). -/
def tryTaprElapsed (bank slot : Nat) (s : State) : Option State :=
  let x := s.bank bank
  let d := (x.slotAt slot).actAt + tAPR
  if slot < 4 ∧ (x.projected slot).isSome = true ∧ (s.tower (bank / 1024)).now ≤ d then
    comeAbout s (bank / 1024) d id
  else none
def execTaprElapsed (bank slot : Nat) (s : State) : Out := comes s (tryTaprElapsed bank slot s)

/-- tAAD after the bank's last activate elapses (10 R254). -/
def tryTaadElapsed (bank : Nat) (s : State) : Option State :=
  match (s.bank bank).acts.getLast? with
  | some a => if (s.tower (bank / 1024)).now ≤ a + tAAD then comeAbout s (bank / 1024) (a + tAAD) id
    else none
  | none => none
def execTaadElapsed (bank : Nat) (s : State) : Out := comes s (tryTaadElapsed bank s)

/-- The oldest activate leaves the tFAW window of a pseudo-channel (10 R256). -/
def tryTfawWindowElapsed (tower pc : Nat) (s : State) : Option State :=
  match ((s.tower tower).acts.getD pc []).filter fun a => decide ((s.tower tower).now < a + tFAW) with
  | a :: _ => comeAbout s tower (a + tFAW) id
  | [] => none
def execTfawWindowElapsed (tower pc : Nat) (s : State) : Out := comes s (tryTfawWindowElapsed tower pc s)

/-- A BUFST reaches its plinth-buffer entry (11 R296). -/
def tryPlinthBufferCrossingEnd (tower entry : Nat) (s : State) : Option State :=
  if (s.tower tower).crossing.any fun c => c.entry == entry then
    some (s.modTower tower fun x => x.land fun c => c.entry == entry)
  else none
def execPlinthBufferCrossingEnd (tower entry : Nat) (s : State) : Out := comes s (tryPlinthBufferCrossingEnd tower entry s)

/-! ## Refresh (10 R260 to R264) -/

/-- An interval of a bank's oscillator ends (10 R260), tREFI after the last: the debt rises; past 8 a deadline is
pending in a controlled bank (R262), and past 11 forced refresh is due (R264). The plinth keeps the debt of any other
bank at 2 or less (R261): its refresh comes first. -/
def tryRefreshInterval (bank : Nat) (s : State) : Option State :=
  let x := s.bank bank
  let d := x.refAt + tREFI
  if s.variant.towers ≤ bank / 1024 ∨ (x.owner.isNone = true ∧ 2 ≤ x.debt) then none
  else
    comeAbout s (bank / 1024) d fun s => s.modBank bank fun x =>
      { x with debt := min 12 (x.debt + 1), refAt := d,
               deadline := x.deadline || (x.owner.isSome && x.debt == 8),
               forced := x.forced || (x.owner.isSome && x.debt == 11) }
def execRefreshInterval (bank : Nat) (s : State) : Out := comes s (tryRefreshInterval bank s)

/-- The plinth refreshes a bank that no stream controls (10 R261): its REFB begins once every slot is CLOSED, and an
ordinary access to the bank comes after it. -/
def tryPlinthRefresh (bank : Nat) (s : State) : Option State :=
  let x := s.bank bank
  if x.owner.isNone ∧ 0 < x.debt ∧ x.refb = none ∧ x.allClosed = true then
    some (s.setBank bank { x with refb := some ((s.tower (bank / 1024)).now + tRefb) })
  else none
def execPlinthRefresh (bank : Nat) (s : State) : Out := comes s (tryPlinthRefresh bank s)

/-- The deadline trap, or the transparent refresh, over every bank whose debt passed 8 (10 R262, R263). -/
def tryRefreshDeadline (stream : Nat) (s : State) : Option State :=
  let st := s.stream stream
  if deadlineReady s stream st then some (deadlineTrap s stream st)
  else none
def execRefreshDeadline (stream : Nat) (s : State) : Out := comes s (tryRefreshDeadline stream s)

/-- Forced refresh (10 R264), once every interval that ends now has come, what is in progress in the banks concerned has
completed, and an RSWEEP stands between rows (R281): their dirty slots are written back and all are precharged, REFBs
follow until the debt is 8, and the stream is faulted, naming them. A yield ends first (11 R286). -/
def tryForcedRefresh (bank : Nat) (s : State) : Option State :=
  match (s.bank bank).owner with
  | some i =>
    let st := s.stream i
    let banks := (streamBanks s i).filter fun b => (s.bank b).forced
    let now := (s.tower (i / 256)).now
    if banks.contains bank = true ∧ (banks.all fun b => (s.bank b).dues.isEmpty) = true ∧ st.state ≠ .suspended ∧
        (st.sweeping = true → rowBoundary s i st = true) ∧ (ends s (i / 256)).all (fun d => decide (now < d)) = true then
      some (streamFault s i 1 (groupMask st.bound (banks.map (· % 16))))
    else none
  | none => none
def execForcedRefresh (bank : Nat) (s : State) : Out := comes s (tryForcedRefresh bank s)

/-! ## Ordinary traffic (11 R298 to R301) -/

/-- A slot as the yields so far leave it: its row, and none where it is CLOSED, else whether it is dirty. -/
def Bank.settled (x : Bank) (n : Nat) : Slot × Option Bool :=
  match (x.plan.filter fun p => p.slot == n).getLast? with
  | some ⟨_, _, .shut was⟩ => (was, none)
  | some ⟨_, _, .restore was dirty⟩ => (was, some dirty)
  | _ => (x.slotAt n, if x.yieldCopies.any fun q => q.2.1 == n && q.2.2 then some true else x.projected n)

/-- What a yield does in a bank for one access, from cycle `c` (11 R299): its activates are noted, its steps and copies
planned. The cycle at which the slot is as it was, and that at which a lamination's pass of the row ends. -/
def serveFrom (s : State) (key : Nat) (o : Ordinary) (c : Nat) : State × Nat × Nat :=
  let n := o.group % 4
  let (y, held) := (s.bank key).settled n
  let used := if o.pass then tACU + tPass else tAPR
  let pass (a : Nat) : List YieldStep := if o.pass then [⟨a, n, .pass⟩] else []
  let plan (s : State) (l : List YieldStep) : State := s.modBank key fun x => { x with plan := x.plan ++ l }
  match held with
  | none =>
    let (s, a) := yieldAct s key c
    (plan s ([⟨a, n, .activate o.row⟩] ++ pass (a + tACU) ++ [⟨a + used, n, .shut y⟩]), a + used + tPRE, a + tACU + tPass)
  | some dirty =>
    if dirty = false ∧ y.row = o.row then (plan s (pass c), if o.pass then c + tPass else c, c + tPass)
    else
      let c1 := if dirty then c + tWBK else c
      let p := max c1 (y.actAt + tAPR)
      let (s, a) := yieldAct s key (p + tPRE)
      let (s, r) := yieldAct s key (a + used + tPRE)
      let e := if dirty then r + tACU + tWBK else r + tACU
      let s := plan s ([⟨p, n, .precharge⟩, ⟨a, n, .activate o.row⟩] ++ pass (a + tACU) ++
        [⟨a + used, n, .precharge⟩, ⟨r, n, .restore { y with actAt := r } dirty⟩])
      (s.modBank key fun x =>
        { x with yieldCopies := if dirty then x.yieldCopies ++ [(c1, n, false), (e, n, true)] else x.yieldCopies },
        e, a + tACU + tPass)

/-- Serve one access in a bank that a stream holds, once what is in progress there and the accesses before it are done:
the state, and the cycle at which it is done. -/
def serve (s : State) (key : Nat) (o : Ordinary) (c : Nat) : State × Nat :=
  let r := serveFrom s key o ((s.bank key).serveAt c)
  (r.1.modBank key fun x => { x with servedBy := r.2.1, readBy := if o.pass then r.2.2 else x.readBy }, r.2.1)

/-- The accesses that wait for the banks of a mask, with their banks, in arrival order. -/
def insertOrdinary (k : Nat) (o : Ordinary) : List (Nat × Ordinary) → List (Nat × Ordinary)
  | [] => [(k, o)]
  | (j, p) :: t => if o.at_ < p.at_ then (k, o) :: (j, p) :: t else (j, p) :: insertOrdinary k o t

def waitingAccesses (s : State) (i : Nat) : List (Nat × Ordinary) :=
  (streamBanks s i).foldl (fun l b => (s.bank b).waiting.foldl (fun l o => insertOrdinary b o l) l) []

/-- Serve every access that waits for the banks of a stream from cycle `c`, in arrival order; those of one bank follow
one another. The cycle is that at which the last is done. -/
def serveAll (s : State) (i c : Nat) : State × Nat :=
  let l := waitingAccesses s i
  let s := (streamBanks s i).foldl (fun s b => s.modBank b fun x => { x with waiting := [] }) s
  l.foldl (fun (p : State × Nat) a => let q := serve p.1 a.1 a.2 c; (q.1, max p.2 q.2)) (s, c)

/-- The controller of a pseudo-channel accepts an ordinary access (11 R298). In a bank that no stream holds, that of a
PARKED stream included, it makes its activate and goes (10 R256, R301); the REFB of such a bank delays it (R261). -/
def accept (s : State) (bank : Nat) (o : Ordinary) : State :=
  let atOnce (i : Nat) (f : Nat → Stream → Stream) : State :=
    let r := serve s bank o o.at_
    yieldsTo (r.1.modStream i (f r.2)) (bank / 1024) o.at_
  match (s.bank bank).owner with
  | none => serveClosed s bank o o.at_
  | some i =>
    match (s.stream i).state with
    | .suspended => atOnce i fun e x => { x with yieldDue := max x.yieldDue e }
    | .waiting => atOnce i fun e x => { x with readyAt := max x.readyAt e }
    | _ =>
      (s.modBank bank fun x => { x with waiting := x.waiting ++ [o] }).modStream i fun x =>
        { x with window := match x.window with | some e => some e | none => some (o.at_ + 8) }

/-- ORDINARY_ACCESS: an access reaches its controller. When a hart's or an engine's does is not architectural: it may
have been served by a cache (log 19). -/
def tryOrdinaryAccess (bank group row : Nat) (s : State) : Option State :=
  if row = 0 ∨ 3072 ≤ row ∨ 4 ≤ group ∨ bankLive s bank = false then none
  else some (accept s bank ⟨(s.tower (bank / 1024)).now, group, row, false⟩)
def execOrdinaryAccess (bank group row : Nat) (s : State) : Out := comes s (tryOrdinaryAccess bank group row s)

/-- A yield can begin (11 R298, R301): the window has passed, at a row boundary, and no deadline comes first. -/
def yieldReady (s : State) (i : Nat) (st : Stream) : Bool :=
  (st.state == .running || st.state == .handler || st.state == .waiting) && st.window.isSome &&
    rowBoundary s i st && !deadlineReady s i st

/-- A yield is accepted (11 R298): the stream is SUSPENDED, and the accesses are served. A stream that has gone
WAITING stays so (R301). -/
def tryStreamYield (stream : Nat) (s : State) : Option State :=
  let st := s.stream stream
  match st.window with
  | none => none
  | some e =>
    let t := max (s.tower (stream / 256)).now (e + 1)
    if yieldReady s stream st then
      comeAbout s (stream / 256) t fun s =>
        let r := serveAll s stream t
        r.1.modStream stream fun x =>
          if st.state = .waiting then { x with window := none, readyAt := max x.readyAt r.2 }
          else { x with state := .suspended, left := st.state, window := none, yieldDue := r.2 }
    else none
def execStreamYield (stream : Nat) (s : State) : Out := comes s (tryStreamYield stream s)

/-- A copy of a dirty slot to or from the yield row ends (11 R299). -/
def tryYieldRowCopyEnd (bank : Nat) (s : State) : Option State :=
  match (s.bank bank).yieldCopies with
  | [] => none
  | (d, n, back) :: rest => comeAbout s (bank / 1024) d fun s => s.modBank bank fun x =>
    let y := x.slotAt n
    if back then
      { x.putSlot n { y with state := .openDirty, bits := x.yieldRow, bad := x.yieldBad } with yieldCopies := rest }
    else { x with yieldRow := y.bits, yieldBad := y.bad, yieldCopies := rest }
def execYieldRowCopyEnd (bank : Nat) (s : State) : Out := comes s (tryYieldRowCopyEnd bank s)

/-- The yield ends, every slot as it was: the stream goes on in the state it left (11 R299). -/
def tryYieldEnd (stream : Nat) (s : State) : Option State :=
  let st := s.stream stream
  let spent (x : Bank) : Bool := x.plan.isEmpty && x.yieldCopies.isEmpty && x.dues.all fun d => decide (st.yieldDue < d)
  if st.state = .suspended ∧ ((streamBanks s stream).all fun b => spent (s.bank b)) = true then
    comeAbout s (stream / 256) st.yieldDue fun s =>
      s.modStream stream fun x => { x with state := st.left, readyAt := max x.readyAt st.yieldDue }
  else none
def execYieldEnd (stream : Nat) (s : State) : Out := comes s (tryYieldEnd stream s)

/-- An activate hint changes nothing that is architectural (06 R174). -/
def execActivateHint (_bank _group _row : Nat) (s : State) : Out := .next s

/-! ## Waking a stream (11 R286) -/

/-- A WAITING stream completes its BWAITT or BJOIN, or faults (11 R293, R308). -/
def tryStreamWake (stream : Nat) (s : State) : Option State :=
  let st := s.stream stream
  let t := streamNow s stream st
  if st.state = .waiting ∧ mayAct s stream st t false ∧ deadlineReady s stream st = false then
    let s := reach s (stream / 256) t
    let r := match st.word.map decodeBank with
      | some (.ok (.bwaitt w)) => waittStep w stream st t s
      | some (.ok (.bjoin _)) => joinStep stream st t s
      | _ => (s, false)
    if r.2 then some r.1 else none
  else none
def execStreamWake (stream : Nat) (s : State) : Out := comes s (tryStreamWake stream s)

end Sys2Proof.Machine
end

