-- ==== Sys2Proof/Machine/Xfer.lean ====
section
/-! DEFINITION. The steps of the transfer engine (08 R215 to R228, 06 R175, 09 R249): an operation starts, its bytes
land in destination order, and it completes or faults. -/
namespace Sys2Proof.Machine

/-- Why an engine cannot go on. -/
inductive XStop where
  /-- A failure that faults the operation: cause and virtual address (08 R227). -/
  | fault (cause : Nat) (va : Word)
  /-- A group is parked, or a buffer is full: the operation waits (06 R175, 17 R386). -/
  | blocked
  /-- A peer must be asked first (19 R416). -/
  | ask (addr : Nat) (op : PodOp)
  deriving DecidableEq, Repr

/-- Where an engine's access leads, after its checks. -/
inductive EngHome where
  | plain (pa : Nat) (cnt : Bool)
  | vreg (place off : Nat)
  | ingress (core n off : Nat)
  deriving DecidableEq, Repr

/-- The names under which a transfer, a lamination operation and a kernel's admission ask peers (log 59). -/
def xferWho (c chan num : Nat) : Nat := 4 * ((64 * c + chan) * 2 ^ 64 + num) + 1
def lamWho (c chan num : Nat) : Nat := 4 * ((64 * c + chan) * 2 ^ 64 + num) + 2
def codeWho (c q : Nat) : Nat := 4 * (c * 2 ^ 16 + q) + 3

/-- A byte that an engine reads, of a peer's line from its answer. -/
def engByte (s : State) (who pa : Nat) : Byte := if 2 ^ 50 ≤ pa then s.podByte who pa else physByte s pa

/-- The unit of a byte that an engine reads cannot be corrected (07 R201). -/
def engBad (s : State) (who pa : Nat) : Bool :=
  if 2 ^ 50 ≤ pa then s.podReply who pa == some .bad else uncorrectable s pa 1

/-- A write by an engine. A peer is asked to perform it, and has to answer. -/
def engStore (s : State) (who : Nat) (va : Word) (pa : Nat) (bs : List Byte) : Except XStop State :=
  if pa < 2 ^ 50 then .ok (store s pa bs none)
  else match podAnswerTo s who pa (.write bs) with
    | none => .error (.ask pa (.write bs))
    | some false => .error (.fault cAccess va)
    | some true => .ok (podTaken s who pa (.write bs))

/-- What an engine cannot do at a step: it asks a peer, or the step does not come about. -/
def engStop (s : State) (who : Nat) : XStop → Option State
  | .ask a op => if (s.askPod who a op).pod = s.pod then none else some (s.askPod who a op)
  | _ => none

/-- The core record of a PARKING group's core is written: its scratchpad has moved (08 R226). -/
def imageMoved (s : State) (core : Nat) : Bool :=
  match (s.hostedGroup core).bind s.groups.get? with
  | some g => g.state == .parking && (match g.cores.findIdx? (· == core) with
    | some i => g.written.contains i
    | none => false)
  | none => false

/-- An engine's access to the on-chip window (01 R25, 08 R221). A write waits where the scratchpad has moved. R25 lets engines write the accumulators, which R221
does not name among the destinations of a transfer: the model accepts them (DESIGN CHOICE, log 60). -/
def engWindow (s : State) (c : Nat) (va : Word) (pa : Nat) (writes : Bool) : Except XStop EngHome :=
  let core := (pa - windowBase) / 0x100_0000
  let off := (pa - windowBase) % 0x100_0000
  let owned := match s.hostedGroup core with
    | none => false
    | some g => match s.groups.get? g with
      | none => false
      | some x => match s.kernels.get? x.kernel with | some k => k.ctx == c | none => false
  if 64 * s.variant.towers ≤ core ∨ (s.core core).lost = true ∨ owned = false then .error (.fault cAccess va)
  else if off < 0x8_0000 then if writes && imageMoved s core then .error .blocked else .ok (.plain pa false)
  else if off < 0x10_0000 then
    let k := 9 * core + (off - 0x8_0000) / 0x1_0000
    if writes then .ok (.vreg k (off % 0x1_0000))
    else if physHome s pa = .none then .error (.fault cAccess va) else .ok (.plain pa false)
  else if off < 0x11_0000 then .ok (.plain pa false)
  else if off < 0x12_0000 then
    if writes then .ok (.ingress core ((off - 0x11_0000) / 0x4000) (off % 0x4000)) else .error (.fault cAccess va)
  else .error (.fault cAccess va)

/-- An engine's access outside the window. A line of a peer that it reads has to have come. -/
def engMemory (s : State) (who : Nat) (va : Word) (l : Leaf) (writes : Bool) : Except XStop EngHome :=
  let f : Except XStop EngHome := .error (.fault cAccess va)
  match physHome s l.pa with
  | .mem _ => if writes && (isRowZero l.pa || l.mode == 3) then f else .ok (.plain l.pa l.cnt)
  | .towerReg _ _ => if writes then f else .ok (.plain l.pa false)
  | .cap _ => if writes then f else .ok (.plain l.pa false)
  | .pod _ =>
    if writes then
      if l.mode = 3 ∨ (podReach s l.pa = false ∧ s.pod.all (fun p => p.by_ != who || p.addr / 64 != l.pa / 64) = true) then f
      else .ok (.plain l.pa false)
    else match podAnswerTo s who (l.pa / 64 * 64) (.read 64) with
      | none => if podReach s l.pa then .error (.ask (l.pa / 64 * 64) (.read 64)) else f
      | some false => f
      | some true => .ok (.plain l.pa false)
  | _ => f

/-- A window page that names a hosting-core slot, for an engine (17 R386, 18 R397). -/
def engSlot (s : State) (g : Nat) (va : Word) (pa : Nat) : Except XStop Nat :=
  match s.groups.get? g with
  | none => .error (.fault cAccess va)
  | some grp =>
    match grp.cores[bitsAt pa 24 2]? with
    | some c => .ok (coreBase c + pa % 2 ^ 24)
    | none => if grp.cores = [] ∧ grp.state ≠ .ended then .error .blocked else .error (.fault cAccess va)

/-- A translated address checked for an engine. -/
def engLeaf (s : State) (who c g : Nat) (va : Word) (l : Leaf) (writes : Bool) : Except XStop EngHome :=
  match if l.slot then engSlot s g va l.pa else .ok l.pa with
  | .error e => .error e
  | .ok pa =>
    if windowBase ≤ pa ∧ pa < 0x7F02_0000_0000 then engWindow s c va pa writes
    else engMemory s who va { l with pa := pa } writes

/-- Translate and check an engine's access (08 R218). -/
def engAddr (s : State) (who c g : Nat) (prv : Bool) (va : Word) (k : Acc) : Except XStop EngHome :=
  if va.toNat / 2 ^ 57 ≠ 0 then .error (.fault cAccess va)
  else
    match walk s c va.toNat k prv with
    | .error e => .error (.fault e va)
    | .ok l => engLeaf s who c g va l (k == .store)

/-- Where a destination byte of an operation leads. A register-bound operation follows its hart wherever it runs
(08 R225), and its rows lie in that hart's range (R223); a stream takes its elements in order, whatever the address
(R224). While the hart is PARKED the operation waits. One whose hart has retired faults with ACCESS_FAULT, since its
destination is no bound hart's any more (DEDUCED, log 39). -/
def dstHome (s : State) (who c : Nat) (op : XferOp) (va : Word) : Except XStop EngHome :=
  match op.hart with
  | none => engAddr s who c op.group op.prv va .store
  | some k =>
    if s.stillParked k then .error .blocked
    else match op.strm with
    | some n => if boundAt s c k then .ok (.ingress (k / 9) n 0) else .error (.fault cAccess va)
    | none =>
      match if va.toNat / 2 ^ 57 ≠ 0 then .error cAccess else walk s c va.toNat .store op.prv with
      | .error e => .error (.fault e va)
      | .ok l =>
        if l.pa / 0x1_0000 ≠ op.home ∨ boundAt s c k = false then .error (.fault cAccess va)
        else .ok (.vreg k (l.pa % 0x1_0000))

/-! ## Source elements -/

def XferOp.sh (op : XferOp) : Shadow := op.shadow
def XferOp.e (op : XferOp) : Nat := (elemsIn op.sh.sfmt op.sh.len).getD 0
def XferOp.rowBytes (op : XferOp) : Nat := (Machine.rowBytes op.sh.dfmt op.e).getD 0
/-- Destination bytes without the header. -/
def XferOp.total (op : XferOp) : Nat := op.sh.rows * op.rowBytes
/-- T of R218. -/
def XferOp.bytes (op : XferOp) : Nat := op.total + if op.sh.hdr then 16 else 0
/-- The address of byte `b` of destination row `r`. -/
def XferOp.dstVa (op : XferOp) (r b : Nat) : Word :=
  op.shadow[1] + (if op.sh.hdr then 16 else 0) + op.shadow[4] * BitVec.ofNat 64 r + BitVec.ofNat 64 b
def XferOp.srcVa (op : XferOp) (r b : Nat) : Word :=
  op.shadow[0] + op.shadow[3] * BitVec.ofNat 64 r + BitVec.ofNat 64 b

/-- The rounding mode of the stages (08 R220). -/
def XferOp.mode (op : XferOp) : RMode :=
  match op.sh.rm with
  | 1 => .rtz
  | 2 => .sr op.seed op.base
  | 3 => if op.frm = 4 then .sr op.seed op.base else frmMode op.frm
  | _ => .rne

/-- A source byte: what it holds, or held before this operation overwrote it (08 R233). A line is read once, into
the private buffer (07 R179), from which its bytes come afterwards, whatever becomes of the address. With it comes the
address, where the byte was not in the buffer: virtual, physical, and whether it is counted. -/
def xferByte (s : State) (who c : Nat) (op : XferOp) (va : Word) : Except XStop (Nat × List (Nat × Nat × Bool)) :=
  let overlapped (pa : Nat) (v : Byte) : Nat :=
    match op.old.find? fun p => p.1 == homeKey s pa with
    | some p => (if Config.overlapNew s.free (homeKey s pa) then engByte s who pa else p.2).toNat
    | none => v.toNat
  match op.buf.find? fun p => p.1 == va.toNat with
  | some p => .ok (match engAddr s who c op.group op.prv va .load with
    | .ok (.plain pa _) => overlapped pa p.2
    | _ => p.2.toNat, [])
  | none =>
    match engAddr s who c op.group op.prv va .load with
    | .error e => .error e
    | .ok (.plain pa cnt) =>
      if engBad s who pa then .error (.fault cUncorrectable va)
      else .ok (overlapped pa (engByte s who pa), [(va.toNat, pa, cnt)])
    | .ok _ => .error (.fault cAccess va)

/-- The lines that a step has read come into the private buffer. -/
def latchLines (s : State) (who : Nat) (buf : List Host.Cell) (reads : List (Nat × Nat × Bool)) : List Host.Cell :=
  ((reads.map fun p => (p.1 / 64, p.2.1 / 64)).eraseDups).foldl (fun buf l =>
    buf ++ (List.range 64).filterMap fun j =>
      let pa := 64 * l.2 + j
      if engBad s who pa then none else some (64 * l.1 + j, engByte s who pa)) buf

/-- `n` source bytes of a row, as a number, with the addresses that have been read. -/
def xferBytes (s : State) (who c : Nat) (op : XferOp) (r b : Nat) : Nat → Except XStop (Nat × List (Nat × Nat × Bool))
  | 0 => .ok (0, [])
  | n + 1 =>
    match xferByte s who c op (op.srcVa r b) with
    | .error e => .error e
    | .ok (v, l) =>
      match xferBytes s who c op r (b + 1) n with
      | .error e => .error e
      | .ok (w, m) => .ok (v + 256 * w, l ++ m)

/-- The formats before each stage (08 R219): stages with the format each finds, latest first. -/
def stageFormats (dfmt : Nat) : Nat → List Nat → List (Nat × Nat) → List (Nat × Nat)
  | _, [], done => done
  | f, c :: cs, done =>
    stageFormats dfmt (match c with | 1 => dfmt | 4 => dfmt | 5 => 9 | _ => f) cs ((c, f) :: done)

/-- The element that a swizzled row holds at element `e` of row `r` (08 R219, 12 R318). -/
def swizElem (swz w r e : Nat) : Nat :=
  let o := e * w / 8
  let u := 64 * w / 8 / 16
  (16 * ((o / 16) ^^^ (swzF swz (r % 64) % u)) + o % 16) * 8 / w

/-- Element (r, e) after the stages, as bits, or as its whole block in a BFP format. `ix` gives the index in destination
order of the element that stands at a row and column here (08 R220), through the stages that follow. A BFP value that f32 cannot hold, -2^128, becomes minus infinity under DEQUANT: R220 says only that
it decodes exactly (DESIGN CHOICE, log 60). -/
def xferElem (s : State) (who c : Nat) (op : XferOp) :
    List (Nat × Nat) → Nat → Nat → (Nat → Nat → Nat) → Except XStop (Nat × List (Nat × Nat × Bool))
  | [], r, e, _ =>
    let t := op.sh.sfmt
    if Ty.isBfp t then xferBytes s who c op r (e / 32 * Ty.bfpBytes t) (Ty.bfpBytes t)
    else
      let w := Ty.width t
      let b0 := e * w / 8
      (xferBytes s who c op r b0 ((e * w + w + 7) / 8 - b0)).map fun p => (bitsAt p.1 (e * w % 8) w, p.2)
  | (code, f) :: rest, r, e, ix =>
    let d := op.sh.dfmt
    match code with
    | 1 => (xferElem s who c op rest r e ix).map fun p => ((cvtVal d op.mode (decodeElem f p.1) (ix r e)).1, p.2)
    | 2 => xferElem s who c op rest (64 * (r / 64) + e) (r % 64) fun r e => ix (64 * (r / 64) + e) (r % 64)
    | 3 => xferElem s who c op rest r (swizElem op.sh.swz (Ty.width f) r e) fun r e =>
        ix r (swizElem op.sh.swz (Ty.width f) r e)
    | 4 =>
      let at_ (i : Nat) : Nat := e - e % 32 + i
      ((List.range 32).mapM fun i => xferElem s who c op rest r (at_ i) ix).map fun l =>
        ((quantBfp (Ty.bfpM d) op.mode (l.zipIdx.map fun p => (decodeElem f p.1.1, ix r (at_ p.2)))).1, l.flatMap (·.2))
    | _ => (xferElem s who c op rest r e ix).map fun p => ((roundTo 9 .rne (bfpElem (Ty.bfpM f) p.1 (e % 32)) 0).1, p.2)

/-- Elements, or blocks, of destination row `r` from index `i`. -/
def xferElems (s : State) (who c : Nat) (op : XferOp) (r i n : Nat) : Except XStop (List Nat × List (Nat × Nat × Bool)) :=
  let w : Shadow := op.shadow
  let st := stageFormats w.dfmt w.sfmt w.stages []
  let per := if Ty.isBfp w.dfmt then 32 else 1
  ((List.range n).mapM fun j => xferElem s who c op st r (per * (i + j)) fun r e => r * op.e + e).map fun l =>
    (l.map (·.1), l.flatMap (·.2))

/-- The bits that one element, or block, of the destination takes up. -/
def XferOp.unit (op : XferOp) : Nat :=
  let d := op.sh.dfmt
  if Ty.isBfp d then 8 * Ty.bfpBytes d else Ty.width d

/-- The elements, or blocks, of a row. -/
def XferOp.units (op : XferOp) : Nat := if Ty.isBfp op.sh.dfmt then op.e / 32 else op.e

/-- `n` bytes of destination row `r` from byte `b`; bits beyond the row's elements are zero (08 R218). -/
def xferRowBytes (s : State) (who c : Nat) (op : XferOp) (r b n : Nat) : Except XStop (List Byte × List (Nat × Nat × Bool)) :=
  let w := op.unit
  let i := 8 * b / w
  let j := (8 * (b + n) + w - 1) / w
  (xferElems s who c op r i (min j op.units - i)).map fun p =>
    (toBytes n (packElems w p.1 / 2 ^ (8 * b - w * i)), p.2)

/-! ## Regions, for the order of one channel's operations (08 R233) -/

/-- The pieces of the rows of an operation, as physical addresses and lengths; a piece that does not translate is
left out. -/
def xferPieces (s : State) (c : Nat) (op : XferOp) (va : Nat → Nat → Word) (len : Nat) (k : Acc) : List (Nat × Nat) :=
  (List.range op.sh.rows).flatMap fun r =>
    (pageParts (va r 0).toNat len).filterMap fun p =>
      match walk s c p.1 k op.prv with
      | .error _ => none
      | .ok l => (resolveSlot s op.group l).map fun pa => (pa, p.2)

def piecesMeet (a b : List (Nat × Nat)) : Bool :=
  a.any fun p => b.any fun q => decide (p.1 < q.1 + q.2) && decide (q.1 < p.1 + p.2)

/-- Where an operation writes, its header included. -/
def xferWrites (s : State) (c : Nat) (o : XferOp) : List (Nat × Nat) :=
  xferPieces s c o o.dstVa o.rowBytes .store ++
    (if o.sh.hdr then xferPieces s c { o with shadow := o.shadow.set 5 1 } (fun _ _ => o.shadow[1]) 16 .store
     else [])

/-- An operation must wait for another of its channel: an earlier one that writes bytes it reads or writes. -/
def xferAfter (s : State) (c : Nat) (o op : XferOp) : Bool :=
  decide (o.num < op.num) &&
    (piecesMeet (xferWrites s c o) (xferPieces s c op op.srcVa op.sh.len .load) ||
      piecesMeet (xferWrites s c o) (xferWrites s c op))

/-- An operation must wait for an earlier one of its channel. -/
def xferMustWait (s : State) (c : Nat) (ops : List XferOp) (op : XferOp) : Bool :=
  ops.any fun o => xferAfter s c o op

/-- An operation cannot go on while a group is PARKED: it is SUSPENDED, its hart is PARKED, or it waits for such an
operation of its channel. The fuel bounds the chain. -/
def xferStuck (s : State) (c : Nat) (ops : List XferOp) : Nat → XferOp → Bool
  | 0, _ => false
  | f + 1, op => op.state == .suspended || op.hart.any s.stillParked ||
      (op.state == .queued && ops.any fun o => xferAfter s c o op && xferStuck s c ops f o)

/-! ## State of a channel -/

def Context.chan (cx : Context) (n : Nat) : Channel := cx.xfer.getD n {}

/-- Replace an operation. -/
def setOp (s : State) (c chan : Nat) (op : XferOp) : State :=
  match s.ctxs.get? c with
  | none => s
  | some cx =>
    let ch := cx.chan chan
    let ops := ch.ops.map fun o => if o.num = op.num then op else o
    s.setCtx c { cx with xfer := cx.xfer.set chan { ch with ops := ops } }

/-- An operation leaves its channel, and its number ends or faults. -/
def endOp (s : State) (c chan num : Nat) (f : Timeline → Timeline) : State :=
  match s.ctxs.get? c with
  | none => s
  | some cx =>
    let ch := cx.chan chan
    let ops := ch.ops.filter fun o => o.num != num
    s.setCtx c { cx with xfer := cx.xfer.set chan { line := f ch.line, ops := ops } }

/-- An operation that has not ended. -/
def findOp (s : State) (c chan num : Nat) : Option XferOp :=
  match s.ctxs.get? c with
  | none => none
  | some cx => (cx.chan chan).ops.find? fun o => o.num == num

/-- The hart and stream register that an operation has bound (06 R175). -/
def XferOp.bound (op : XferOp) (s : State) : Option (Nat × Nat) :=
  match op.hart, op.strm with
  | some k, some n => if ((s.hart k).strm n).state = .bound ∧ ((s.hart k).strm n).num = op.num then some (k, n) else none
  | _, _ => none

/-! ## Start (08 R216, R221 to R224) -/

/-- The first destination byte of a register-bound operation that lies outside the registers of its hart, if any (08
R223): such an operation faults before a byte has landed. -/
def boundBeyond (s : State) (c : Nat) (op : XferOp) (k : Nat) : Option Word :=
  let size := 4 * (s.hart k).vgrant
  (List.range op.sh.rows).findSome? fun r => (pageParts (op.dstVa r 0).toNat op.rowBytes).findSome? fun p =>
    match if p.1 / 2 ^ 57 ≠ 0 then .error 0 else walk s c p.1 .store op.prv with
    | .error _ => none
    | .ok l =>
      let off := l.pa % 0x1_0000
      if l.pa / 0x1_0000 ≠ op.home then some (BitVec.ofNat 64 p.1)
      else if size < off + p.2 then some (BitVec.ofNat 64 (p.1 + (size - off))) else none

/-- TRANSFER_OP_START. A register-bound operation does not start while its hart's pre-emption keeps those that run
suspended (08 R225). -/
def tryTransferOpStart (ctx chan num : Nat) (s : State) : Option State :=
  match s.ctxs.get? ctx, findOp s ctx chan num with
  | some cx, some op =>
    let w : Shadow := op.shadow
    let who := xferWho ctx chan num
    if op.state ≠ .queued ∨ xferMustWait s ctx (cx.chan chan).ops op = true then none
    else
      let run (o : XferOp) := setOp s ctx chan { o with state := .running }
      let bad : Option State := some (run { op with fail := some (cAccess, w[1]) })
      match dstHome s who ctx op w[1] with
      | .error .blocked => none
      | .error (.ask _ _) => some (run op)
      | .error (.fault c va) => some (run { op with fail := some (c, va) })
      | .ok (.plain _ _) => some (run op)
      | .ok (.vreg k _) =>
        let k := op.hart.getD k
        if w.hdr = true ∨ boundAt s ctx k = false ∨ isSeqPlace k = true then bad
        else if (s.hart k).readsHeld = true ∨ (s.hart k).vstate = .off then none
        else
          let home := if op.hart.isSome then op.home else blockOf s ctx op.prv w[1]
          let op := { op with hart := some k, home := home }
          some (run { op with fail := (boundBeyond s ctx op k).map fun va => (cAccess, va) })
      | .ok (.ingress core n off) =>
        let k := 9 * core + bitsAt w[4].toNat 0 3
        if w.hdr = true ∨ off ≠ 0 ∨ w[4].toNat / 8 ≠ 0 ∨ boundAt s ctx k = false then bad
        else if ((s.hart k).strm n).state ≠ .unbound then none
        else
          some ((run { op with hart := some k, strm := some n }).modHart k fun h =>
            h.putStrm n { state := .bound, handle := BitVec.ofNat 16 chan, num := num, fmt := BitVec.ofNat 5 w.dfmt })
  | _, _ => none
def execTransferOpStart (ctx chan num : Nat) (s : State) : Out := comes s (tryTransferOpStart ctx chan num s)

/-! ## Landing -/

/-- Some byte of a register-bound operation from destination offset `from_` on lies in register `i`. -/
def stillComes (op : XferOp) (vgrant i from_ : Nat) : Bool :=
  let rb := op.rowBytes
  (List.range' (from_ / rb) (op.sh.rows - from_ / rb)).any fun r =>
    let b := if r = from_ / rb then from_ % rb else 0
    (regsOf vgrant ((op.dstVa r b).toNat % 0x1_0000) (rb - b)).contains i

/-- Write bytes into the vector registers of a hart place (08 R223). -/
def putVregs (h : Hart) (off : Nat) (bs : List Byte) : Hart :=
  let n := h.vgrant / 8
  bs.zipIdx.foldl (fun h p =>
    let o := off + p.2
    if hr : o / n < 32 then
      Hart.noteV { h with v := h.v.set (o / n) (putField h.v[o / n] (8 * (o % n)) 8 p.1.toNat) } (o / n)
    else h) h

/-- Count the lines of engine accesses (18 R401). -/
def countLines (s : State) (pas : List Nat) : State :=
  ((pas.map (· / 64)).eraseDups).foldl (fun s l => countFrame s (64 * l)) s

/-- The next destination bytes of an operation in destination order, at most `lim` of them, as pieces of rows: row,
first byte and length. The fuel bounds the pieces. -/
def XferOp.pieces (op : XferOp) : Nat → Nat → Nat → List (Nat × Nat × Nat)
  | 0, _, _ => []
  | f + 1, pos, lim =>
    let rb := op.rowBytes
    if op.total ≤ pos ∨ lim = 0 then []
    else
      let n := min (rb - pos % rb) lim
      (pos / rb, pos % rb, n) :: XferOp.pieces op f (pos + n) (lim - n)

/-- The pieces of rows from destination offset `pos` on that lie in a line, which one step writes (07 R179): the line is
named by its virtual address ÷ 64. -/
def XferOp.linePieces (op : XferOp) (line pos : Nat) : List (Nat × Nat × Nat) :=
  let rb := op.rowBytes
  (List.range' (pos / rb) (op.sh.rows - pos / rb)).filterMap fun r =>
    let a := (op.dstVa r 0).toNat
    let lo := max (64 * line) (a + if r = pos / rb then pos % rb else 0)
    let hi := min (64 * line + 64) (a + rb)
    if hi ≤ lo then none else some (r, lo - a, hi - lo)

/-- The first destination offset, from `pos` on, of a byte that is in none of the lines. The fuel bounds the parts of
rows by lines. -/
def XferOp.skip (op : XferOp) (lines : List Nat) : Nat → Nat → Nat
  | 0, pos => pos
  | f + 1, pos =>
    let rb := op.rowBytes
    let va := (op.dstVa (pos / rb) (pos % rb)).toNat
    if pos < op.total ∧ lines.contains (va / 64) then
      XferOp.skip op lines f (pos + min (64 - va % 64) (rb - pos % rb))
    else pos

/-- The line of the byte at `landed` has landed whole. -/
def XferOp.landLine (op : XferOp) (line : Nat) : XferOp :=
  let lines := line :: op.ahead
  let pos := op.skip lines (op.total - op.landed + 1) op.landed
  { op with landed := pos, ahead := lines.filter fun l => op.linePieces l pos != [] }

/-- The runs of bytes that are written in a line, given what is written at offsets in it, the latest first. -/
def lineRuns (cells : List (Nat × Byte)) : List (Nat × List Byte) :=
  (List.range 64).foldr (fun o (l : List (Nat × List Byte)) =>
    match cells.find? fun p => p.1 == o with
    | none => l
    | some p => match l with
      | (q, bs) :: t => if q = o + 1 then (o, p.2 :: bs) :: t else (o, [p.2]) :: (q, bs) :: t
      | [] => [(o, [p.2])]) []

/-- The bytes of pieces of rows, with the addresses read for them. -/
def xferPieceBytes (s : State) (who c : Nat) (op : XferOp) (ps : List (Nat × Nat × Nat)) :
    Except XStop (List (Word × List Byte) × List (Nat × Nat × Bool)) :=
  (ps.mapM fun p => (xferRowBytes s who c op p.1 p.2.1 p.2.2).map fun x => ((op.dstVa p.1 p.2.1, x.1), x.2)).map fun l =>
    (l.map (·.1), l.flatMap (·.2))

/-- The lines that a step has read: counted, given back to peers, and kept in the buffer. -/
def readLines (s : State) (who : Nat) (op : XferOp) (reads : List (Nat × Nat × Bool)) : State × XferOp :=
  let buf := latchLines s who op.buf reads
  let s := countLines s ((reads.filter (·.2.2)).map (·.2.1))
  (reads.foldl (fun s p => podTaken s who (p.2.1 / 64 * 64) (.read 64)) s, { op with buf := buf })

/-- The physical address of a byte of the registers at a hart place (01 R26). -/
def vregPa (k off : Nat) : Nat := coreBase (k / 9) + 0x8_0000 + k % 9 * 0x1_0000 + off

/-- Bytes that a step overwrites, as they are before it, beside those that the operation has kept (08 R233). -/
def keepOld (s : State) (who : Nat) (old : List Host.Cell) (pas : List Nat) : List Host.Cell :=
  pas.foldl (fun l pa =>
    let k := homeKey s pa
    if l.any fun x => x.1 == k then l else l ++ [(k, engByte s who pa)]) old

/-- The next bytes of an operation land: in memory all that it writes in one line (07 R179), in registers one group of 64
bytes, in a stream register one group of elements. -/
def xferLand (s : State) (c chan : Nat) (op : XferOp) : Except XStop State :=
  let who := xferWho c chan op.num
  let rb := op.rowBytes
  let r := op.landed / rb
  let b := op.landed % rb
  let va := op.dstVa r b
  match dstHome s who c op va with
  | .error e => .error e
  | .ok (.plain pa cnt) =>
    match xferPieceBytes s who c op (op.linePieces (va.toNat / 64) op.landed) with
    | .error e => .error e
    | .ok (bss, reads) =>
      let cells := (bss.flatMap fun p => p.2.zipIdx.map fun q => (p.1.toNat % 64 + q.2, q.1)).reverse
      let line := pa / 64 * 64
      let (s1, op1) := readLines s who op reads
      let s1 := countLines s1 (if cnt then [pa] else [])
      match (lineRuns cells).foldl (fun (x : Except XStop State) p => x.bind fun s =>
          engStore s who (va - BitVec.ofNat 64 (va.toNat % 64) + BitVec.ofNat 64 p.1) (line + p.1) p.2) (.ok s1) with
      | .error e => .error e
      | .ok s2 => .ok (setOp { s2 with free := s.free + 1 } c chan
          { op1.landLine (va.toNat / 64) with old := keepOld s who op.old (cells.map fun p => line + p.1) })
  | .ok (.vreg k _) =>
    let h := s.hart k
    let ps := op.pieces 64 op.landed (64 - op.landed % 64)
    let bad := ps.findSome? fun p => match dstHome s who c op (op.dstVa p.1 p.2.1) with
      | .error e => some e
      | .ok (.vreg _ off) => if off + p.2.2 ≤ 4 * h.vgrant then none
          else some (.fault cAccess (op.dstVa p.1 p.2.1 + BitVec.ofNat 64 (4 * h.vgrant - off)))
      | .ok _ => some (.fault cAccess (op.dstVa p.1 p.2.1))
    match bad with
    | some e => .error e
    | none =>
      match xferPieceBytes s who c op ps with
      | .error e => .error e
      | .ok (bss, reads) =>
        let n := (ps.map (·.2.2)).foldl (· + ·) 0
        let h' := bss.foldl (fun h p => putVregs h (p.1.toNat % 0x1_0000) p.2) h
        let regs := ps.flatMap fun x => regsOf h.vgrant ((op.dstVa x.1 x.2.1).toNat % 0x1_0000) x.2.2
        let full := regs.foldl (fun (m : BitVec 32) i =>
          if stillComes op h.vgrant i (op.landed + n) then m else m ||| ((1 : BitVec 32) <<< i)) h.full
        let (s1, op1) := readLines s who op reads
        let pas := bss.flatMap fun p => (List.range p.2.length).map fun j => vregPa k (p.1.toNat % 0x1_0000 + j)
        .ok (setOp ({ s1 with free := s.free + 1 }.setHart k { h' with full := full }) c chan
          { op1 with landed := op.landed + n, old := keepOld s who op.old pas })
  | .ok (.ingress _ n _) =>
    let k := op.hart.getD 0
    let w := op.unit
    let g := (s.hart k).strm n
    let i := 8 * b / w
    let m := min (if op.sh.dfmt = 14 then 64 else max 1 (512 / w)) (op.units - i)
    if (op.bound s).isNone then .error (.fault cAccess va)
    else if 8 * 16384 < (g.elems.length + m) * w then .error .blocked
    else
      match xferElems s who c op r i m with
      | .error e => .error e
      | .ok (es, reads) =>
        let landed := if i + m = op.units then (r + 1) * rb else r * rb + w * (i + m) / 8
        let (s1, op1) := readLines s who op reads
        let g' := { g with elems := g.elems ++ es, state := if landed = op.total then .ended else .bound }
        let s1 := s1.modHart k fun h => (h.putStrm n g').advanceReads
        .ok (setOp { s1 with free := s.free + 1 } c chan { op1 with landed := landed })

/-- ELEMENT_GROUP_LANDS (06 R175): the next bytes land; a peer is asked first. -/
def tryElementGroupLands (ctx chan num : Nat) (s : State) : Option State :=
  match findOp s ctx chan num with
  | some op =>
    if op.state = .running ∧ op.fail = none ∧ op.landed < op.total then
      match xferLand s ctx chan op with
      | .ok s' => some s'
      | .error e => engStop s (xferWho ctx chan num) e
    else none
  | none => none
def execElementGroupLands (ctx chan num : Nat) (s : State) : Out := comes s (tryElementGroupLands ctx chan num s)

/-! ## Counting and completing -/

/-- A record of a count discarded (09 R250, KIND 5). -/
def kind5 (c handle reason num bytes : Nat) (b : BarCapture) : List Byte :=
  record4 (5 + c * 2 ^ 16 + handle * 2 ^ 32 + reason * 2 ^ 48) num b.va.toNat (bytes + b.gen.toNat * 2 ^ 48)

/-- The object of a count: where it was captured, or where BAR leads now if that translation was dropped, and whether
the access is counted. One that is no longer mapped is no barrier page any more (of a captured one R250 does not speak:
DESIGN CHOICE, log 60). -/
def countHome (s : State) (c : Nat) (prv : Bool) (b : BarCapture) : Option (Nat × Bool) :=
  let home := if b.again then
      match walk s c b.va.toNat .barWrite prv with
      | .ok l => if l.mode = 3 ∧ isRowZero l.pa = false then some (l.pa, l.cnt) else none
      | .error _ => none
    else some (b.home, b.cnt)
  home.filter fun p => physHome s p.1 != .none

/-- Why a count on an object is discarded (09 R250), if it is. Where several cases hold, the order of the tests is the
model's (DESIGN CHOICE, log 60). -/
def BarObj.discard (o : BarObj) (gen bytes : Nat) : Option Nat :=
  if o.valid = false ∨ o.gen ≠ gen then some 0
  else if o.pendb - bytes < -(2 ^ 39 : Nat) then some 1
  else none

/-- The count of an operation's bytes against its barrier (09 R249, R250). The home performs it: a peer is asked, and
its answer says whether it was discarded. A count that no path reaches (19 R417) is discarded as one that leads to no
barrier page, and the operation completes (DESIGN CHOICE, log 60). -/
def barCount (s : State) (who c handle num bytes : Nat) (prv : Bool) (bar : Option BarCapture) : Except XStop State :=
  match bar with
  | none => .ok s
  | some b =>
    let drop (s : State) (reason : Nat) : State := faultRecord s c (kind5 c handle reason num bytes b)
    match countHome s c prv b with
    | none => .ok (drop s 3)
    | some (pa, cnt) =>
      let s := if cnt then countFrame s pa else s
      if 2 ^ 50 ≤ pa then
        let op : PodOp := .count b.gen.toNat bytes
        match podAnswerTo s who pa op with
          | none => if podReach s pa then .error (.ask pa op) else .ok (drop s 3)
          | some false => .ok (drop (podTaken s who pa op) 3)
          | some true =>
            let t := podTaken s who pa op
            if s.podReply who pa = some .bad then .ok (drop t 2)
            else match (barOf fun i => s.podByte who (pa + i)).discard b.gen.toNat bytes with
              | some r => .ok (drop t r)
              | none => .ok t
      else if uncorrectable s pa 32 then .ok (drop s 2)
      else
        let o := barRead s pa
        match o.discard b.gen.toNat bytes with
        | some r => .ok (drop s r)
        | none => .ok (barWrite s pa ({ o with pendb := o.pendb - bytes } : BarObj).settle none)

/-- The header of a transfer (08 R222). -/
def xferHeader (op : XferOp) (chan : Nat) : List Byte :=
  let w : Shadow := op.shadow
  headerBytes w.dfmt (if w.stages.contains 3 then w.swz else 0) w.rows op.e chan op.num

/-- Write the header at DST, in its lines. -/
def xferPutHeader (s : State) (c chan : Nat) (op : XferOp) : Except XStop State :=
  let who := xferWho c chan op.num
  let bs := xferHeader op chan
  let put (s : State) (va : Word) (l : List Byte) : Except XStop State :=
    match engAddr s who c op.group op.prv va .store with
    | .error e => .error e
    | .ok (.plain pa cnt) => engStore (countLines s (if cnt then [pa] else [])) who va pa l
    | .ok _ => .error (.fault cAccess va)
  let n := min 16 (64 - op.shadow[1].toNat % 64)
  match put s op.shadow[1] (bs.take n) with
  | .error e => .error e
  | .ok s => if n = 16 then .ok s else put s (op.shadow[1] + BitVec.ofNat 64 n) (bs.drop n)

/-- The header is written, once every data byte has landed (08 R222). -/
def xferHead (s : State) (c chan : Nat) (op : XferOp) : Except XStop State :=
  if op.sh.hdr && !op.headed then
    (xferPutHeader s c chan op).map fun s => setOp s c chan { op with headed := true }
  else .ok s

/-- TRANSFER_OP_COMPLETE (08 R216): the header, then the count (09 R249), for which a peer may have to be asked, then the
watermark. -/
def tryTransferOpComplete (ctx chan num : Nat) (s : State) : Option State :=
  match findOp s ctx chan num with
  | some op =>
    let who := xferWho ctx chan num
    if op.state = .running ∧ op.fail = none ∧ op.landed = op.total then
      match xferHead s ctx chan op with
      | .error e => engStop s who e
      | .ok s =>
        match barCount s who ctx chan op.num op.bytes op.prv op.bar with
        | .ok s => some (endOp s ctx chan num fun l => l.endNum num)
        | .error e => engStop s who e
    else none
  | none => none
def execTransferOpComplete (ctx chan num : Nat) (s : State) : Out := comes s (tryTransferOpComplete ctx chan num s)

/-- The failure that an operation meets next, if any. -/
def xferFailure (s : State) (c chan : Nat) (op : XferOp) : Option (Nat × Word) :=
  match op.fail with
  | some f => some f
  | none =>
    match if op.landed < op.total then xferLand s c chan op else xferHead s c chan op with
    | .error (.fault cause va) => some (cause, va)
    | _ => none

/-- The hart that an operation is bound to has RETIRED. -/
def hartGone (s : State) (c : Nat) (op : XferOp) : Bool :=
  match op.hart with
  | some k => !s.stillParked k && !boundAt s c k
  | none => false

/-- TRANSFER_OP_FAULT (08 R227, R228). A stream destination becomes FAULTED, and the SRD that waits on it ends (06
R175, R176). -/
def tryTransferOpFault (ctx chan num : Nat) (s : State) : Option State :=
  match findOp s ctx chan num with
  | some op =>
    if op.state = .running ∨ (op.state = .suspended ∧ hartGone s ctx op = true) then
      match xferFailure s ctx chan op with
      | some (cause, va) =>
        let s := match op.bound s with
          | some (k, n) => s.modHart k fun h =>
              (h.putStrm n { h.strm n with state := .faulted, elems := [] }).advanceReads
          | none => s
        let s := endOp (State.leaveAsks s (xferWho ctx chan num)) ctx chan num fun l => l.fault num
        some (faultRecord s ctx (record4 (4 + ctx * 2 ^ 16 + chan * 2 ^ 32 + cause * 2 ^ 48) num va.toNat op.landed))
      | none => none
    else none
  | none => none
def execTransferOpFault (ctx chan num : Nat) (s : State) : Out := comes s (tryTransferOpFault ctx chan num s)

/-- The register-bound operations of the hart at a place are SUSPENDED (08 R225). Their groups of 64 bytes land whole,
so that the cut is where they stand; what they have read is read again. -/
def cutBound (s : State) (k : Nat) : State :=
  { s with ctxs := s.ctxs.map fun (c, cx) => (c, { cx with xfer := cx.xfer.map fun (i, ch) =>
      (i, { ch with ops := ch.ops.map fun o =>
        if o.hart = some k ∧ o.strm = none ∧ o.state = .running then { o with state := .suspended, buf := [] } else o }) }) }

end Sys2Proof.Machine
end

