-- ==== Sys2Proof/Machine/Lam.lean ====
section
/-! DEFINITION. The steps of the lamination engine (13): admission, placement in an entry, computing and splitting. -/
namespace Sys2Proof.Machine

def LamOp.sh (op : LamOp) : Shadow := op.shadow
def LamOp.h (op : LamOp) : Nat := lamH op.shadow
def LamOp.k (op : LamOp) : Nat := lamK op.shadow
def LamOp.n (op : LamOp) : Nat := lamN op.shadow
def LamOp.wfmt (op : LamOp) : Nat := lamWfmt op.shadow
def LamOp.afmt (op : LamOp) : Nat := lamAfmt op.shadow
def LamOp.ofmt (op : LamOp) : Nat := lamOfmt op.shadow
def LamOp.banks (op : LamOp) : Nat := lamBanks op.shadow
def LamOp.bytes (op : LamOp) : Nat := op.h * op.n * (Ty.width op.ofmt / 8)

/-- The virtual address of weight row `n` (13 R336). -/
def LamOp.rowVa (op : LamOp) (n : Nat) : Word :=
  op.shadow[3] + BitVec.ofNat 64 (n % op.banks * 2 ^ 27 + n / op.banks * 2 ^ 13)

/-- The virtual address of byte `o` of the activations, and of the outputs. -/
def LamOp.actVa (op : LamOp) (o : Nat) : Word := op.shadow[0] + BitVec.ofNat 64 o
def LamOp.outVa (op : LamOp) (o : Nat) : Word := op.shadow[1] + BitVec.ofNat 64 o

/-! ## Admission (13 R340) -/

/-- The 16-byte parts of `len` bytes from an address, by their first byte within the range: no boundary of the memory
map (01 R18, R19, R23 to R26) lies inside one. -/
def partsOf (va len : Nat) : List Nat :=
  (List.range (len / 16 + 2)).filterMap fun p =>
    let lo := max va (va / 16 * 16 + p * 16)
    if lo < va + len then some lo else none

/-- Translate and check a range for the engine, part by part. -/
def lamRange (s : State) (who c : Nat) (op : LamOp) (va len : Nat) (k : Acc) : Except XStop Unit :=
  (partsOf va len).foldl (fun r p => r.bind fun _ =>
    match engAddr s who c op.group op.prv (BitVec.ofNat 64 p) k with
    | .error e => .error e
    | .ok (.plain _ _) => .ok ()
    | .ok _ => .error (.fault cAccess (BitVec.ofNat 64 p))) (.ok ())

/-- The pages of the outputs, as admission finds them. An output to a parked group is checked at its write. -/
def lamOuts (s : State) (who c : Nat) (op : LamOp) : Except XStop (NatMap (Nat × Bool × Bool)) :=
  (partsOf op.shadow[1].toNat op.bytes).foldl (fun r p => r.bind fun m =>
    let va : Word := BitVec.ofNat 64 p
    if va.toNat / 2 ^ 57 ≠ 0 then .error (.fault cAccess va)
    else
      match walk s c va.toNat .store op.prv with
      | .error e => .error (.fault e va)
      | .ok l =>
        let page := va.toNat / 2 ^ 16
        match engLeaf s who c op.group va l true with
        | .ok (.plain _ _) => .ok (m.set page (l.pa - l.pa % 2 ^ 16, l.slot, l.cnt))
        | .error .blocked => .ok (m.set page (l.pa - l.pa % 2 ^ 16, l.slot, l.cnt))
        | .error e => .error e
        | .ok _ => .error (.fault cAccess va)) (.ok [])

/-- Row 0 of the weights and the checks of R336: the physical address of row 0. -/
def lamWeights (s : State) (c : Nat) (op : LamOp) : Except XStop Nat :=
  let row (n : Nat) : Except XStop Leaf :=
    let va := op.rowVa n
    if va.toNat / 2 ^ 57 ≠ 0 then .error (.fault cAccess va)
    else match walk s c va.toNat .load op.prv with
      | .error e => .error (.fault e va)
      | .ok l => .ok l
  match row 0 with
  | .error e => .error e
  | .ok l0 =>
    let p0 := l0.pa
    (List.range op.n).foldl (fun r n => r.bind fun p =>
      match row n with
      | .error e => .error e
      | .ok l =>
        let mapped := match physHome s l.pa with | .mem _ => true | _ => false
        if l.mode = 1 ∧ mapped = true ∧ l.pa = p0 + n % op.banks * 2 ^ 27 + n / op.banks * 2 ^ 13 ∧
            bitsAt p0 27 4 + op.banks ≤ 16 ∧ bitsAt l.pa 13 12 < 3072 then .ok p
        else .error (.fault cAccess (op.rowVa n))) (.ok p0)

/-- The weight rows that were translated through a counted entry (18 R401). -/
def lamCounted (s : State) (c : Nat) (op : LamOp) : List Nat :=
  (List.range op.n).filter fun n => match walk s c (op.rowVa n).toNat .load op.prv with
    | .ok l => l.cnt
    | .error _ => false

/-- The activation rows as element bits, read at admission, with the addresses read and whether they are counted. -/
def lamReadActs (s : State) (who c : Nat) (op : LamOp) : Except XStop (List (Nat × List (Nat × Bool))) :=
  let b := Ty.width op.afmt / 8
  let byte (o : Nat) : Except XStop (Byte × Nat × Bool) :=
    match engAddr s who c op.group op.prv (op.actVa o) .load with
    | .error e => .error e
    | .ok (.plain pa cnt) =>
      if engBad s who pa then .error (.fault cUncorrectable (op.actVa o)) else .ok (engByte s who pa, pa, cnt)
    | .ok _ => .error (.fault cAccess (op.actVa o))
  (List.range (op.h * op.k)).mapM fun i =>
    ((List.range b).mapM fun j => byte (b * i + j)).map fun l => (ofBytes (l.map (·.1)), l.map (·.2))

/-- Admission whole: the physical address of weight row 0, the output pages and the activations. -/
def lamAdmit (s : State) (who c : Nat) (op : LamOp) :
    Except XStop (Nat × NatMap (Nat × Bool × Bool) × List (Nat × List (Nat × Bool))) :=
  match lamRange s who c op op.shadow[0].toNat (op.h * op.k * (Ty.width op.afmt / 8)) .load with
  | .error e => .error e
  | .ok _ =>
    match lamOuts s who c op with
    | .error e => .error e
    | .ok outs =>
      match lamWeights s c op with
      | .error e => .error e
      | .ok p0 => (lamReadActs s who c op).map fun acts => (p0, outs, acts)

/-! ## Operations of a channel -/

def findLam (s : State) (c chan num : Nat) : Option LamOp :=
  match s.ctxs.get? c with
  | none => none
  | some cx => (cx.lam.getD chan {}).ops.find? fun o => o.num == num

def setLam (s : State) (c chan : Nat) (op : LamOp) : State :=
  match s.ctxs.get? c with
  | none => s
  | some cx =>
    let ch := cx.lam.getD chan {}
    let ops := ch.ops.map fun o => if o.num = op.num then op else o
    s.setCtx c { cx with lam := cx.lam.set chan { ch with ops := ops } }

def endLam (s : State) (c chan num : Nat) (f : Timeline → Timeline) : State :=
  match s.ctxs.get? c with
  | none => s
  | some cx =>
    let ch := cx.lam.getD chan {}
    let ops := ch.ops.filter fun o => o.num != num
    s.setCtx c { cx with lam := cx.lam.set chan { line := f ch.line, ops := ops } }

/-- A lamination operation is faulted (13 R344). -/
def lamFault (s : State) (c chan num cause : Nat) (wside : Bool) (va : Word) (height : Nat) : State :=
  faultRecord (endLam (State.leaveAsks s (lamWho c chan num)) c chan num fun l => l.fault num) c
    (record4 (7 + c * 2 ^ 16 + (0x1000 + chan) * 2 ^ 32 + cause * 2 ^ 48 + if wside then 2 ^ 56 else 0)
      num va.toNat height)

/-! ## Entries (13 R341, R342) -/

def State.modLam (s : State) (t e : Nat) (f : LamEntry → LamEntry) : State :=
  s.modTower t fun x => { x with lam := x.lam.set e (f (x.lam.getD e {})) }

/-- The key of an operation with weight row 0 at a physical address. -/
def LamOp.key (op : LamOp) (p0 : Nat) : LamKey :=
  let b0 := bitsAt p0 27 4
  ⟨p0, op.k, op.n, BitVec.ofNat 5 op.wfmt, BitVec.ofNat 16 ((2 ^ op.banks - 1) * 2 ^ b0)⟩

/-- An arrival: its member, key, deadline and priority. -/
structure Arrival where
  m    : LamMember
  key  : LamKey
  due  : Nat
  prio : Nat

/-- An arrival may join an entry (13 R342). -/
def mayJoin (e : LamEntry) (a : Arrival) : Bool :=
  e.state == .forming && e.key == a.key && decide (e.height + a.m.h ≤ 64) && decide (e.deadline ≤ a.due) &&
    e.members.all fun m => m.ctx == a.m.ctx || (a.m.x && m.x)

/-- Add a member; at height 64 the entry is DISPATCHED. -/
def LamEntry.add (e : LamEntry) (a : Arrival) : LamEntry :=
  let e := { e with members := e.members ++ [a.m], height := e.height + a.m.h, prio := max e.prio a.prio }
  if e.height = 64 then { e with state := .dispatched } else e

/-- The entry that an arrival joins: of earliest deadline, then lowest index. -/
def joinEntry (x : Tower) (a : Arrival) : Option Nat :=
  (x.lam.foldl (fun (b : Option (Nat × Nat)) p =>
    if mayJoin p.2 a then
      match b with
      | none => some (p.2.deadline, p.1)
      | some (d, _) => if p.2.deadline < d then some (p.2.deadline, p.1) else b
    else b) none).map (·.2)

/-- The lowest FREE entry. -/
def freeEntry (x : Tower) : Option Nat := (List.range 64).find? fun i => (x.lam.getD i {}).state == .free

/-- Place an arrival: it joins, forms or waits. -/
def placeArrival (s : State) (t : Nat) (a : Arrival) : State :=
  match joinEntry (s.tower t) a with
  | some e => s.modLam t e fun x => x.add a
  | none =>
    match freeEntry (s.tower t) with
    | some e => s.modLam t e fun _ =>
        ({ state := .forming, key := a.key, deadline := a.due, prio := a.prio } : LamEntry).add a
    | none => s.modTower t fun x => { x with lamWait := x.lamWait ++ [a.m] }

/-- The arrival of an admitted operation that is a waiting member. -/
def arrivalOf (s : State) (m : LamMember) : Option Arrival :=
  (findLam s m.ctx m.chan m.num).map fun op => ⟨m, op.key op.p0, op.arrival + op.hold, op.prio⟩

/-- Arrivals that wait are taken in order as entries free (13 R341). -/
def takeWaiting (s : State) (t : Nat) : State :=
  let l := (s.tower t).lamWait
  l.foldl (fun s m => match arrivalOf s m with
    | some a => placeArrival s t a
    | none => s) (s.modTower t fun x => { x with lamWait := [] })

/-- LAM_ADMISSION (13 R340): the operation is faulted, or arrives and is placed. -/
def tryLamAdmission (ctx chan num : Nat) (s : State) : Option State :=
  match findLam s ctx chan num with
  | some op =>
    let who := lamWho ctx chan num
    if op.admitted then none
    else
      match lamAdmit s who ctx op with
      | .error (.fault cause va) => some (lamFault s ctx chan num cause false va op.h)
      | .error e => engStop s who e
      | .ok (p0, outs, acts) =>
        let t := bitsAt p0 37 3
        if computePending (s.tower t) then none else
        let a := (s.tower t).now
        let op := { op with
          admitted := true, tower := t, arrival := a, p0 := p0, wcnt := lamCounted s ctx op, acts := acts.map (·.1),
          outs := outs }
        let s := countLines (State.leaveAsks s who) (((acts.flatMap (·.2)).filter (·.2)).map (·.1))
        some (placeArrival (setLam s ctx chan op) t ⟨⟨ctx, chan, num, op.h, op.x⟩, op.key p0, a + op.hold, op.prio⟩)
  | none => none
def execLamAdmission (ctx chan num : Nat) (s : State) : Out := comes s (tryLamAdmission ctx chan num s)

/-- LAM_DEADLINE (13 R341). -/
def tryLamDeadline (tower entry : Nat) (s : State) : Option State :=
  let e := (s.tower tower).lam.getD entry {}
  if e.state = .forming ∧ computePending (s.tower tower) = false then
    comeAbout s tower e.deadline fun s => s.modLam tower entry fun x => { x with state := .dispatched }
  else none
def execLamDeadline (tower entry : Nat) (s : State) : Out := comes s (tryLamDeadline tower entry s)

/-! ## Computing (13 R338) -/

/-- The bytes of a weight row that hold its K weights. -/
def weightBytes (wfmt k : Nat) : Nat :=
  if Ty.isBfp wfmt then k / 32 * Ty.bfpBytes wfmt else (k * Ty.width wfmt + 7) / 8

/-- The physical address of weight row `n` of an entry. -/
def LamKey.rowPa (k : LamKey) (n : Nat) : Nat :=
  let b := (bankList k.banks).length
  k.p0 + n % b * 2 ^ 27 + n / b * 2 ^ 13

/-- The banks of an entry's weight rows. -/
def LamKey.bankKeys (k : LamKey) : List Nat :=
  (bankList k.banks).map fun b => 1024 * bitsAt k.p0 37 3 + 16 * bitsAt k.p0 31 6 + b

/-- A weight row is mapped still: no remap since the admission has retired its bank or raised the floor above it. -/
def weightMapped (s : State) (k : LamKey) (n : Nat) : Bool :=
  match physHome s (k.rowPa n) with | .mem _ => true | _ => false

/-- The weight rows are read (13 R343): each is activated in the slot of its group, passed once and precharged, or, in a
bank that a stream holds, is an ordinary access. Row 0 is answered without its bank (01 R22), and a row that is not
mapped is refused (R18). -/
def readWeights (s : State) (k : LamKey) : State :=
  let now := (s.tower (bitsAt k.p0 37 3)).now
  ((List.range k.n).filter fun n => weightMapped s k n && !isRowZero (k.rowPa n)).foldl (fun s n =>
    let pa := k.rowPa n
    accept s (1024 * bitsAt pa 37 3 + 16 * bitsAt pa 31 6 + bitsAt pa 27 4) ⟨now, bitsAt pa 25 2, bitsAt pa 13 12, true⟩) s

/-- Count the line requests of an entry's weight rows, each read once for the batch (13 R340), where a member translated
the row through a counted entry (18 R401, log 40). -/
def countWeights (s : State) (e : LamEntry) : State :=
  let hit (n : Nat) : Bool := e.members.any fun m =>
    match findLam s m.ctx m.chan m.num with
    | some op => op.wcnt.contains n
    | none => false
  let bytes := weightBytes e.key.wfmt.toNat e.key.k
  countLines s (((List.range e.key.n).filter hit).flatMap fun n =>
    (List.range ((bytes + 63) / 64)).map fun i => e.key.rowPa n + 64 * i)

/-- LAM_COMPUTE_START (13 R341). -/
def tryLamComputeStart (tower entry : Nat) (s : State) : Option State :=
  let e := (s.tower tower).lam.getD entry {}
  if mayCompute (s.tower tower) entry then
    some ((readWeights (countWeights s e) e.key).modLam tower entry fun x => { x with state := .computing })
  else none
def execLamComputeStart (tower entry : Nat) (s : State) : Out := comes s (tryLamComputeStart tower entry s)

/-- The first weight row that fails, with the cause: one that cannot be corrected (13 R344), or one that a remap has
left unmapped, whose read R18 refuses. R344 names no such row in COMPUTING: the model faults every member, as for the
other (DESIGN CHOICE, log 51). -/
def badWeight (s : State) (k : LamKey) : Option (Nat × Nat) :=
  (List.range k.n).findSome? fun n =>
    if weightMapped s k n = false then some (n, cAccess)
    else if uncorrectable s (k.rowPa n) (weightBytes k.wfmt.toNat k.k) then some (n, cUncorrectable) else none

/-- The weights of row `n`. -/
def weightRow (s : State) (k : LamKey) (n : Nat) : List Val :=
  let t := k.wfmt.toNat
  let v := physRead s (k.rowPa n) (weightBytes t k.k)
  (List.range k.k).map fun i =>
    if Ty.isBfp t then
      let b := 8 * Ty.bfpBytes t
      bfpElem (Ty.bfpM t) (bitsAt v (b * (i / 32)) b) (i % 32)
    else decodeElem t (bitsAt v (Ty.width t * i) (Ty.width t))

/-- One output element (13 R338). -/
def lamElem (op : LamOp) (a : List Val) (w : List Val) : Nat :=
  let acc := (dotFrom .rne 0 (a.zip w)).1
  if op.ofmt = 9 then acc else (roundTo 8 .rne (decodeF 9 acc) 0).1

/-- The outputs of a member, row by row. -/
def lamOutputs (op : LamOp) (ws : List (List Val)) : List Nat :=
  (List.range op.h).flatMap fun h =>
    let a := ((op.acts.drop (op.k * h)).take op.k).map (decodeElem op.afmt)
    ws.map fun w => lamElem op a w

/-- LAM_COMPUTE_END (13 R341), once every row has been passed: every member's outputs are formed from one reading of the
weights. -/
def tryLamComputeEnd (tower entry : Nat) (s : State) : Option State :=
  let e := (s.tower tower).lam.getD entry {}
  let banks := e.key.bankKeys.map s.bank
  if e.state = .computing ∧ badWeight s e.key = none ∧ (banks.all fun x => x.waiting.isEmpty) = true then
    comeAbout s tower ((banks.map (·.readBy)).foldl max (s.tower tower).now) fun s =>
      let ws := (List.range e.key.n).map (weightRow s e.key)
      let s := e.members.foldl (fun s m => match findLam s m.ctx m.chan m.num with
        | some op => setLam s m.ctx m.chan { op with result := lamOutputs op ws, dropped := false }
        | none => s) s
      s.modLam tower entry fun x => { x with state := .splitting }
  else none
def execLamComputeEnd (tower entry : Nat) (s : State) : Out := comes s (tryLamComputeEnd tower entry s)

/-- The entry is FREE again, and an arrival that waits may take it. -/
def freeLam (s : State) (t e : Nat) : State :=
  takeWaiting (s.modTower t fun x => { x with lam := x.lam.erase e }) t

/-- LAM_WEIGHT_FAULT (13 R344). -/
def tryLamWeightFault (tower entry : Nat) (s : State) : Option State :=
  let e := (s.tower tower).lam.getD entry {}
  match if e.state = .computing ∧ computePending (s.tower tower) = false then badWeight s e.key else none with
  | some (n, cause) =>
    let s := e.members.foldl (fun s m => match findLam s m.ctx m.chan m.num with
      | some op => lamFault s m.ctx m.chan m.num cause true (op.rowVa n) e.height
      | none => s) s
    some (freeLam s tower entry)
  | none => none
def execLamWeightFault (tower entry : Nat) (s : State) : Out := comes s (tryLamWeightFault tower entry s)

/-- Members of a context leave the entries that still form (13 R341): the height falls, and at 0 the entry is FREE. A
closed entry keeps its rows, whose operations are abandoned; no arrival of the context waits. -/
def LamEntry.without (e : LamEntry) (c : Nat) : LamEntry :=
  match e.state with
  | .forming =>
    let ms := e.members.filter fun m => m.ctx != c
    let h := (ms.map (·.h)).foldl (· + ·) 0
    if h = 0 then {} else { e with members := ms, height := h }
  | _ => { e with members := e.members.map fun m => if m.ctx = c then { m with ctx := 2 ^ 16 + c } else m }

/-- A context's lamination operations are abandoned (14 R347). -/
def dropLams (s : State) (c : Nat) : State :=
  let leave (x : Tower) : Tower :=
    { x with
      lam := (x.lam.map fun p => (p.1, p.2.without c)).filter fun p => p.2 != {},
      lamWait := x.lamWait.filter fun m => m.ctx != c }
  (s.towers.map (·.1)).foldl takeWaiting { s with towers := s.towers.map fun p => (p.1, leave p.2) }

/-! ## Splitting (13 R340) -/

/-- Where an output byte goes: the page found at admission, or translated again. -/
def lamOutAddr (s : State) (who c : Nat) (op : LamOp) (va : Word) : Except XStop EngHome :=
  match op.outs.get? (va.toNat / 2 ^ 16) with
  | some (pa, slot, cnt) => engLeaf s who c op.group va ⟨pa + va.toNat % 2 ^ 16, if slot then 2 else 0, cnt, slot⟩ true
  | none => engAddr s who c op.group op.prv va .store

/-- Write output bytes from offset `o`, a line at a time (07 R179). The fuel bounds the lines. -/
def lamWrite (who c : Nat) (op : LamOp) : Nat → Nat → List Byte → State → Except (XStop × State) State
  | 0, _, _, s => .ok s
  | _, _, [], s => .ok s
  | f + 1, o, bs, s =>
    let va := op.outVa o
    let n := min bs.length (64 - va.toNat % 64)
    match lamOutAddr s who c op va with
    | .error e => .error (e, s)
    | .ok (.plain pa cnt) =>
      match engStore (if cnt then countFrame s pa else s) who va pa (bs.take n) with
      | .error e => .error (e, s)
      | .ok s => lamWrite who c op f (o + n) (bs.drop n) s
    | .ok _ => .error (.fault cAccess va, s)

/-- One member splits: its outputs, then its count, then its number; whether it is done. A peer is asked for the count
once the outputs are written (09 R249). -/
def lamSplit (s : State) (m : LamMember) (height : Nat) : State × Bool :=
  match findLam s m.ctx m.chan m.num with
  | none => (s, true)
  | some op =>
    let who := lamWho m.ctx m.chan m.num
    let bs := op.result.flatMap fun v => toBytes (Ty.width op.ofmt / 8) v
    match lamWrite who m.ctx op (bs.length / 64 + 2) 0 bs s with
    | .error (.fault cause va, s) => (lamFault s m.ctx m.chan m.num cause false va height, true)
    | .error (e, _) => ((engStop s who e).getD s, false)
    | .ok s =>
      let s := setLam s m.ctx m.chan { op with result := [] }
      match barCount s who m.ctx (0x1000 + m.chan) m.num op.bytes op.prv op.bar with
      | .ok s => (endLam s m.ctx m.chan m.num fun l => l.endNum m.num, true)
      | .error e => ((engStop s who e).getD s, false)

/-- Members split, each as far as it can, and those that have to wait are left: a PARKED group holds back its own
operation alone (13 R340). -/
def splitMembers (s : State) (height : Nat) (ms : List LamMember) : State × List LamMember :=
  ms.foldl (fun x m => let r := lamSplit x.1 m height
    (r.1, if r.2 then x.2 else x.2 ++ [m])) (s, [])

/-- LAM_SPLIT_COMPLETE (13 R340, R341): the entry is FREE once every member is done. -/
def tryLamSplitComplete (tower entry : Nat) (s : State) : Option State :=
  let e := (s.tower tower).lam.getD entry {}
  if e.state = .splitting ∧ computePending (s.tower tower) = false then
    let r := splitMembers s e.height e.members
    if r.2 = [] then some (freeLam r.1 tower entry)
    else if r.2 = e.members ∧ r.1.pod = s.pod then none
    else some (r.1.modLam tower entry fun x => { x with members := r.2 })
  else none
def execLamSplitComplete (tower entry : Nat) (s : State) : Out := comes s (tryLamSplitComplete tower entry s)

end Sys2Proof.Machine
end

