-- ==== Sys2Proof/Machine/Room.lean ====
section
/-! DEFINITION. The sequencers and plinth-buffer entries of bank kernels (11 R282, R296), and how those of PARKED streams
are given up to work that needs them (15 R371). -/
namespace Sys2Proof.Machine

/-- The streams of a bank kernel: tower, pseudo-channel and mask. -/
def Kernel.streamDecls (k : Kernel) : List (Nat × Nat × BitVec 16) :=
  (List.range (recField k 0x80 0 3)).map fun i =>
    let o := 0x98 + 8 * i
    (recField k o 0 3, recField k o 3 6, BitVec.ofNat 16 (recField k o 16 16))

/-- The banks of a declared stream. -/
def declBanks (d : Nat × Nat × BitVec 16) : List Nat := (bankList d.2.2).map fun b => 1024 * d.1 + 16 * d.2.1 + b

def Kernel.declared (k : Kernel) : List Nat := k.streamDecls.flatMap declBanks
def Kernel.codeLen (k : Kernel) : Nat := recField k 0x80 16 9
def Kernel.bufN (k : Kernel) : Nat := recField k 0x80 8 7
def Kernel.towers (k : Kernel) : List Nat := (k.streamDecls.map (·.1)).eraseDups

/-! ## Sequencers -/

/-- A sequencer with no stream, or whose stream has stopped. -/
def Stream.seqFree (x : Stream) : Bool := x.state == .idle || x.state == .ended || x.state == .faulted

/-- A sequencer that a stream may take: its bank record holds all of a PARKED one (14 R351), which does not keep it from
work of a higher priority (15 R371; DESIGN CHOICE, log 36). -/
def Stream.seqOpen (x : Stream) : Bool := x.seqFree || x.state == .parked

/-- The sequencers that the streams of a bank kernel take, in order: of each pseudo-channel the lowest free one, or else
the lowest whose stream is PARKED. -/
def takeSeqs (s : State) : List (Nat × Nat × BitVec 16) → List Nat → Option (List Nat)
  | [], acc => some acc
  | d :: t, acc =>
    let l := (List.range' (256 * d.1 + 4 * d.2.1) 4).filter fun j => !acc.contains j
    match (l.find? fun j => (s.stream j).seqFree).or (l.find? fun j => (s.stream j).seqOpen) with
    | some j => takeSeqs s t (acc ++ [j])
    | none => none

/-- The names of other streams in a stream. -/
def Stream.rename (x : Stream) (new : Nat → Nat) : Stream :=
  let kind (y : SplitKind) : SplitKind := match y with | .parallel m => .parallel (new m) | y => y
  { x with primary := x.primary.map new, split := x.split.map fun (e : Split) => { e with kind := kind e.kind } }

/-- A stream of a kernel takes another key, and so do its names in the other streams of the kernel. -/
def renameStream (s : State) (i j : Nat) : State :=
  let kid := (s.stream i).kernel
  let new (n : Nat) : Nat := if n = i then j else n
  let s := match s.kernels.get? kid with
    | some k => s.setKernel kid { k with streams := k.streams.map new }
    | none => s
  let s := { s with
    towers := s.towers.map fun (p : Nat × Tower) =>
      (p.1, { p.2 with crossing := p.2.crossing.map fun (c : Crossing) => { c with stream := new c.stream } }),
    streams := s.streams.map fun (p : Nat × Stream) => (p.1, if p.2.kernel = kid then p.2.rename new else p.2) }
  (s.setStream j (s.stream i)).setStream i {}

/-- The key to which a PARKED stream of a sequencer can go. -/
def awayKey (s : State) (i : Nat) : Nat :=
  (((List.range (s.streams.length + 1)).map fun n => i % 4096 + 4096 * (n + 1)).find? fun j => (s.stream j).seqFree).getD
    (i % 4096 + 4096 * (s.streams.length + 2))

/-- A PARKED stream gives up its sequencer. -/
def giveSeq (s : State) (i : Nat) : State :=
  if (s.stream i).state = .parked then renameStream s i (awayKey s i) else s

/-- A stream that has given up its sequencer takes it again: its handle names it (11 R282). -/
def takeSeq (s : State) (j : Nat) : State :=
  if j < 4096 then s else renameStream (giveSeq s (j % 4096)) j (j % 4096)

/-! ## Plinth-buffer entries -/

/-- A bank kernel all of whose streams that hold banks are PARKED. -/
def Kernel.resting (k : Kernel) (s : State) (kid : Nat) : Bool :=
  k.isBank && (k.streams.any fun i => (s.stream i).kernel == kid && (s.stream i).state == .parked) &&
    k.streams.all fun i => (s.stream i).kernel != kid || !(s.stream i).isLive || (s.stream i).state == .parked

/-- An entry of a tower's plinth buffer that a kernel may be granted: no kernel has it, or, with `any`, one that rests. -/
def bufOpen (s : State) (t e : Nat) (any : Bool) : Bool :=
  match (s.tower t).pgrant.get? e with
  | none => true
  | some kid => any && (s.kernels.get? kid).any fun k => k.resting s kid

/-- The first plinth-buffer entry of an open range of `n` in the towers of a kernel: of a range that no kernel has, where
there is one. -/
def bufRange (s : State) (towers : List Nat) (n : Nat) : Option Nat :=
  let find (any : Bool) : Option Nat := (List.range (65 - n)).find? fun b =>
    towers.all fun t => (List.range' b n).all fun e => bufOpen s t e any
  if n = 0 then some 0 else (find false).or (find true)

/-- Entries of a tower are granted to a kernel, with rows by entry number; the others read as zero (11 R296). -/
def Tower.grantBuf (x : Tower) (kid buf n : Nat) (rows : NatMap (BitVec 65536)) : Tower :=
  let kept := x.pbuf.filter fun p => !(decide (buf ≤ p.1) && decide (p.1 < buf + n))
  { x with pgrant := (List.range' buf n).foldl (fun m e => m.set e kid) x.pgrant,
           pbuf := rows.foldl (fun m p => m.set (buf + p.1) p.2) kept }

/-- A kernel that rests gives up its entries: what is crossing to them lands, and the device keeps their rows. -/
def giveBuf (s : State) (kid : Nat) : State :=
  match s.kernels.get? kid with
  | none => s
  | some k =>
    let rows (x : Tower) : NatMap (BitVec 65536) :=
      let mine (e : Nat) : Bool := x.pgrant.get? e == some kid
      let buf := (x.crossing.filter fun c => mine c.entry).foldl (fun m c => m.set c.entry c.bits) x.pbuf
      (buf.filter fun p => mine p.1).map fun p => (p.1 - k.bufBase, p.2)
    releaseBuf (s.setKernel kid { k with bufHeld := some (s.towers.map fun p => (p.1, rows p.2)) }) kid

/-- Kernels that rest give up what they have of a range. -/
def giveRange (s : State) (towers : List Nat) (buf n : Nat) : State :=
  ((towers.flatMap fun t => (List.range' buf n).filterMap fun e => (s.tower t).pgrant.get? e).eraseDups).foldl giveBuf s

/-- A kernel takes entries again for those that it has given up; its words count them from the start of the range. -/
def takeBuf (s : State) (kid : Nat) : State :=
  match s.kernels.get? kid with
  | none => s
  | some k => match k.bufHeld, bufRange s k.towers k.bufN with
    | some rows, some buf =>
      let s := giveRange s k.towers buf k.bufN
      let s := k.towers.foldl (fun s t => s.modTower t fun x => x.grantBuf kid buf k.bufN (rows.getD t [])) s
      s.setKernel kid { k with bufBase := buf, bufHeld := none }
    | _, _ => s

end Sys2Proof.Machine
end

