-- ==== Sys2Proof/Machine/Park.lean ====
section
/-! DEFINITION. Parking and resuming (14): the park region, park records, PREEMPT and YIELD, core and bank records,
resumption; and the ends of harts and groups: GEXIT (17 R389), double traps (04 R120). -/
namespace Sys2Proof.Machine

/-! ## The park region (14 R352) -/

def hartRecordSize : Nat := 0x4_0000
def coreRecordSize : Nat := 0x10_0000
def bankRecordSize : Nat := 0x2_0000

/-- A free place of `n` bytes in the park region: the lowest that meets no allocated record. -/
def parkPlace (cx : Context) (n : Nat) : Option Nat :=
  ((0 :: cx.park.map (fun p => p.1 + p.2)).filter fun o =>
    decide (o + n ≤ cx.parksize) && cx.park.all fun p => decide (p.1 + p.2 ≤ o) || decide (o + n ≤ p.1)).min?

/-- Allocate `n` bytes of a context's park region. -/
def parkAlloc (s : State) (c n : Nat) : Option (State × Nat) :=
  match s.ctxs.get? c with
  | none => none
  | some cx => (parkPlace cx n).map fun o => (s.setCtx c { cx with park := cx.park ++ [(o, n)] }, o)

/-- Allocate the hart records of the members of a group that have none. -/
def allocMembers (c gid : Nat) : List (Nat × Member) → State → Option State
  | [], s => some s
  | (n, m) :: t, s =>
    match m.at_, m.parkAt with
    | .place _, none => match parkAlloc s c hartRecordSize with
      | none => none
      | some (s, o) => allocMembers c gid t (setMember s gid n { m with parkAt := some o })
    | _, _ => allocMembers c gid t s

/-- Allocate the core records of the slots of a group that have none. -/
def allocCores (c gid : Nat) : List Nat → State → Option State
  | [], s => some s
  | i :: t, s =>
    match s.groups.get? gid with
    | none => none
    | some g =>
      if (g.records.get? i).isSome then allocCores c gid t s
      else match parkAlloc s c coreRecordSize with
        | none => none
        | some (s, o) => allocCores c gid t (s.setGroup gid { g with records := g.records.set i o })

/-- Allocate every record that parking a group needs (14 R352). -/
def reserveGroup (s : State) (gid : Nat) : Option State :=
  match s.groups.get? gid with
  | none => none
  | some g => match s.kernels.get? g.kernel with
    | none => none
    | some k => (allocMembers k.ctx gid g.members s).bind (allocCores k.ctx gid (List.range g.cores.length))

/-- The record that a stream has allocated holds its banks. -/
def recordHolds (s : State) (c : Nat) (st : Stream) (n : Nat) : Bool :=
  match st.record, s.ctxs.get? c with
  | some o, some cx => cx.park.any fun p => p.1 == o && decide (bankRecordSize * n ≤ p.2)
  | _, _ => false

/-- Allocate the bank records of the streams of a kernel (14 R352). One that is too small, from a time when its stream was
split, is given back for another. -/
def reserveStreams (c : Nat) : List Nat → State → Option State
  | [], s => some s
  | i :: t, s =>
    let st := s.stream i
    let n := (streamBanks s i).length
    if st.isLive = true ∧ st.state ≠ .parked ∧ recordHolds s c st n = false then
      match parkAlloc (parkFree s c st.record.toList) c (bankRecordSize * n) with
      | none => none
      | some (s, o) => reserveStreams c t (s.modStream i fun x => { x with record := some o })
    else reserveStreams c t s

/-- The groups of a kernel that park together with a group of it (17 R384); they bind again together too. -/
def parkedWith (s : State) (gid : Nat) : List Nat :=
  match s.groups.get? gid with
  | none => []
  | some g => match s.kernels.get? g.kernel with
    | some k => if k.coside then (s.groups.filter fun p => p.2.kernel == g.kernel && p.2.state == .running).map (·.1)
                else [gid]
    | none => []

/-- A pre-emption request reaches the hart or sequencer at a place (04 R117). One that may take it may have begun its next
turn, and then takes it inside a long instruction of that turn (05 R137). -/
def Hart.requested (h : Hart) : Hart :=
  { h with preempt := h.life != .retired,
           caught := (h.life == .ready || h.life == .issuing) && (h.owed || !h.tstat.prv || h.tstat.ie) }

/-- Send a pre-emption request to a group: it reaches every hart and sequencer together (14 R348). -/
def requestGroup (w : Option Want) (mig : Bool) (s : State) (gid : Nat) : State :=
  match s.groups.get? gid with
  | none => s
  | some g =>
    let s := g.members.foldl (fun s p => match p.2.at_ with
      | .place k => s.modHart k Hart.requested
      | _ => s) s
    s.setGroup gid { g with state := .parking, forWork := w, migrating := mig, written := [] }

/-- Send a pre-emption request to every stream of a bank kernel. -/
def requestStreams (w : Option Want) (s : State) (kid : Nat) : State :=
  match s.kernels.get? kid with
  | none => s
  | some k =>
    let s := k.streams.foldl (fun s i => s.modStream i fun x =>
      if x.isLive ∧ x.kernel = kid ∧ x.state ≠ .parked then { x with preempt := true } else x) s
    s.setKernel kid { k with forWork := w }

/-! ## Records (14 R353, R354) -/

/-- The bytes of a park record become zero, 256 at a time. -/
def zeroRange (s : State) (pa n : Nat) : State :=
  let keys := (List.range (n / 256)).filterMap fun i =>
    match physHome s (pa + 256 * i) with | .mem k => some k | _ => none
  let hit (a : Nat) : Bool := keys.any fun k => decide (k ≤ a) && decide (a < k + 256)
  let s := { s with mem := s.mem.filter fun c => !hit c.1, bad := s.bad.filter fun u => !hit u }
  markSeen s (keys.flatMap fun k => (List.range 4).map fun j => k / 64 + j) none

/-- Write 64-bit words from an address. -/
def physWords (s : State) (pa : Nat) : List Nat → State
  | [] => s
  | w :: t => physWords (physWrite s pa 8 w) (pa + 8) t

/-- A mask of the keys of a table. -/
def keyMask {α : Type} (m : NatMap α) : Nat := m.foldl (fun a p => a ||| 2 ^ p.1) 0

/-- The restart offsets of the operations suspended for a hart place (08 R225). -/
def restartOffsets (s : State) (k : Nat) : List Nat :=
  s.ctxs.flatMap fun p => p.2.xfer.flatMap fun q =>
    (q.2.ops.filter fun o => o.hart == some k && o.state == .suspended).map (·.landed)

/-- Write the park record of the hart or sequencer at a place: the device-held state (14 R351, R353). COMMIT is
written last. The four restart offsets are those of the lowest channels (log 34). -/
def writeRecord (s : State) (pa k : Nat) (emerg : Bool) : State :=
  let h := s.hart k
  match s.groupOf h with
  | none => s
  | some (g, kk) =>
    let empty := if emerg then ~~~h.full else h.emptyAt
    let failed := if emerg then h.failed else h.failedAt
    let vst := if emerg then h.vstate else h.vstateAt
    let w0 := (if isSeqPlace k then 2 else 1) + bit emerg 2 + kk.ctx * 2 ^ 16 + kk.handle * 2 ^ 32 +
      (if isSeqPlace k then 0 else h.index) * 2 ^ 48
    let s := zeroRange s pa hartRecordSize
    let s := physWords s pa [w0, g.tile, empty.toNat + keyMask failed * 2 ^ 32,
      h.vgrant + vst.code * 2 ^ 16 + bit h.released 18]
    let s := physWords s (pa + 0x40) (h.shadow.toList.map (·.toNat))
    let s := physWords s (pa + 0x400) (h.st.toList.map fun r =>
      r.state.code + r.handle.toNat * 2 ^ 16 + min r.avail (2 ^ 32 - 1) * 2 ^ 32)
    let s := physWords s (pa + 0x420) ((restartOffsets s k).take 4)
    let s := h.st.toList.zipIdx.foldl (fun s p =>
      if p.1.elems = [] then s
      else
        let w := strmWidth p.1.fmt.toNat
        let w := if Ty.isBfp p.1.fmt.toNat then 8 * Ty.bfpBytes p.1.fmt.toNat else w
        store s (pa + 0x2_0000 + 0x4000 * p.2) (toBytes ((w * p.1.elems.length + 7) / 8) (packElems w p.1.elems)) none) s
    physWrite s pa 8 (w0 + 8)

/-- Engine operations that name a hart by one name take another. -/
def renameOps (s : State) (a b : Nat) : State :=
  { s with ctxs := s.ctxs.map fun (c, cx) => (c, { cx with xfer := cx.xfer.map fun (i, ch) =>
      (i, { ch with ops := ch.ops.map fun o => if o.hart = some a then { o with hart := some b } else o }) }) }

/-- The hart or sequencer at a place parks (14 R350, R351): its record is written, and its place is FREE. -/
def parkHart (s : State) (k : Nat) : State :=
  let h := s.hart k
  match s.groupOf h with
  | none => s
  | some (g, kk) =>
    let n := memberNo g k h
    let m := g.members.getD n {}
    match m.parkAt, s.ctxs.get? kk.ctx with
    | some o, some cx =>
      let s := writeRecord s (cx.parkbase + o) k false
      let s := renameOps s k (parkKey h.group n)
      let s := setMember s h.group n
        { m with at_ := .parked, arrived := h.arrived, fin := h.finMark, stops := h.stops, st := h.st,
                 failed := h.failedAt, reads := h.reads }
      settleCtx (s.setHart k {}) kk.ctx
    | _, _ => s

/-! ## PREEMPT (04 R116, R117; 14 R349) -/

/-- The hart may take PREEMPT at its next boundary (04 R117; R131 for one that a YIELD found pending). -/
def Hart.preemptDue (h : Hart) : Bool :=
  h.preempt && !h.service && !h.exiting && (h.owed || !h.tstat.prv || h.tstat.ie) &&
    (h.life == .ready || h.life == .issuing || h.life == .stalled || h.life == .waiting)

/-- An access of the hart's present instruction has gone to a peer: the hart is at no boundary (19 R416). A waiting
instruction is at one (04 R114). -/
def State.asking (s : State) (k : Nat) (h : Hart) : Bool := h.latched.isNone && s.pod.any fun p => p.by_ == 4 * k

/-- PREEMPT comes before anything else of the hart but a synchronous trap (04 R117): not while it waits for a device
runtime that is being committed (20 R427). -/
def State.preemptFirst (s : State) (k : Nat) (h : Hart) : Bool :=
  h.preemptDue && !s.asking k h && !s.runtimePaused

/-- A boundary at which a hart or sequencer may take PREEMPT: a sequencer's word in progress completes before it
(14 R348). -/
def preemptReady (s : State) (k : Nat) (h : Hart) : Bool :=
  s.preemptFirst k h && !(isSeqPlace k && (s.core (k / 9)).job.isSome)

/-- PREEMPT entry: gathers complete first (14 R348), the SRD instructions in flight stop, the request is in service,
and every v register reads as full (R349). -/
def Hart.preemptEntry (h0 : Hart) : Hart :=
  let h := h0.deliverAll.stopReads
  { h.trapEntry cPreempt 0 0 h.pc true with
    service := true, emptyAt := ~~~h.undrained, failedAt := h.failed, vstateAt := h.vstate, readsHeld := true,
    full := BitVec.allOnes 32, failed := [] }

/-- PREEMPT is taken at a place. -/
def takePreempt (s : State) (k : Nat) : State :=
  (cutBound ((s.leavePods k).leaveOrders k) k).modHart k fun h => h.preemptEntry.leaveSlot k h.pc

/-- PREEMPT. That a synchronous trap of the next instruction comes first is the order of turns (04 R117,
Turn.lean). -/
def tryPreempt (hart : Nat) (s : State) : Option State :=
  if preemptReady s hart (s.hart hart) then some (takePreempt s hart)
  else none
def execPreempt (hart : Nat) (s : State) : Out := comes s (tryPreempt hart s)

/-- Put a hart last in the round-robin order of its level (04 R131): behind every hart that has not issued since. -/
def putLast (s : State) (k : Nat) : State :=
  let c := s.core (k / 9)
  s.setCore (k / 9) { c with yielded := c.yielded.set k [] }

/-- YIELD (04 R131). A park waits for the gathers in flight (06 R168), and a sequencer's for its word in progress
(12 R311). PREEMPT with the next instruction as its resume address is taken at the hart's next turn, before that
instruction unless a trap of it comes first (R117). -/
def execYield (v : Bool) (s : State) : Out :=
  match s.cur with
  | some (.hart k) =>
    let h := s.hart k
    if (v = true ∧ h.busyRegs = true) ∨ (h.service = true ∧ h.gathers ≠ []) then .next (s.setLife k .stalled)
    else if h.service = true ∧ isSeqPlace k = true ∧ (s.core (k / 9)).job.isSome = true then .next (s.setLife k .waiting)
    else
      let s := if v then (cutBound s k).modHart k fun h => { h with vdirty := 0, vstate := .off, released := true } else s
      if h.service then .next (parkHart s k)
      else
        let s := s.retire k (h.pc + 4)
        if h.preempt then .next (s.modHart k fun h => { h with owed := true }) else .next (putLast s k)
  | _ => .fault .noAgent

/-! ## Retirement (04 R100, 17 R383, R387, R389) -/

/-- A sequencer has no issued word left (17 R383). -/
def seqDone (s : State) (c : Nat) : Bool := (s.core c).job.isNone && (s.hart (9 * c + 8)).slots.isEmpty

/-- The group ends well once its vector harts are RETIRED and its sequencers' issued words have completed: its
tile is finished (16 R377, 17 R383). A PARKING group of which none is left to park ends so too (DESIGN CHOICE, log 60). -/
def settleGroup (s : State) (gid : Nat) : State :=
  match s.groups.get? gid with
  | none => s
  | some g =>
    if g.state ≠ .ended ∧ g.members ≠ [] ∧ (g.members.all fun p => decide (64 ≤ p.1) || p.2.at_ == .retired) = true ∧
        (g.cores.all (seqDone s)) = true then
      let s := endGroup s gid
      match s.kernels.get? g.kernel with
      | some k => settleCtx (s.setKernel g.kernel { k with finished := k.finished + 1 }) k.ctx
      | none => s
    else s

/-- A barrier whose count equals its participants completes (17 R389). -/
def completeBars (n : Nat → Nat) (m : NatMap GBar) : NatMap GBar :=
  m.map fun (i, b) => (i, if b.count ≠ 0 ∧ b.count = n i then { count := 0, phase := !b.phase } else b)

/-- The barriers that a hart's retirement completes, on its core, its group and its die. -/
def settleBars (s : State) (gid die : Nat) : State :=
  match s.groups.get? gid with
  | none => s
  | some g => match s.kernels.get? g.kernel with
    | none => s
    | some k =>
      let parties (i : Nat) : Nat := gbarParties s gid g k (i % 8192 / 32) (i / 8192) (i / 8192)
      let s := s.setGroup gid { g with bars := completeBars parties g.bars }
      s.setKernel g.kernel { k with bars := k.bars.map fun (i, b) =>
        if i % 8192 / 32 = 3 ∧ i / 8192 ≠ die then (i, b)
        else (i, if b.count ≠ 0 ∧ b.count = parties i then { count := 0, phase := !b.phase } else b) }

/-- The hart or sequencer at a place becomes RETIRED, and leaves the participants of every barrier. -/
def retireHart (s : State) (k : Nat) : State :=
  let h := s.hart k
  match s.groups.get? h.group with
  | none => s
  | some g =>
    let n := memberNo g k h
    let s := setMember s h.group n { g.members.getD n {} with at_ := .retired, fin := h.finMark }
    let s := s.modHart k fun h => { h with life := .retired, preempt := false, exiting := false, monitor := none }
    let s := settleGroup (settleBars s h.group (k / 9 / 64)) h.group
    match s.kernels.get? g.kernel with
    | some kk => settleCtx s kk.ctx
    | none => s

/-- A v register of the hart at a place is empty through a register-bound transfer in flight. -/
def boundInFlight (s : State) (k : Nat) : Bool :=
  s.ctxs.any fun p => p.2.xfer.any fun q => q.2.ops.any fun o =>
    o.hart == some k && (o.regs &&& ~~~(s.hart k).full) != 0

/-- GEXIT (17 R389). -/
def execGexit (s : State) : Out :=
  match s.cur with
  | some (.hart k) =>
    let h := s.hart k
    let wait (l : Life) : Out := .next (s.modHart k fun h => { h with life := l, exiting := true })
    if isSeqPlace k then (if (s.core (k / 9)).job.isSome then wait .waiting else .next (retireHart s k))
    else if h.busyRegs = true ∨ boundInFlight s k = true then wait .stalled
    else .next (retireHart s k)
  | _ => .fault .noAgent

/-- A double trap (04 R120, 14 R347, R360): the fetch of the first handler instruction at S.TVEC failed with a
cause. The context is FAULTED, and so is the kernel (16 R377). In a group that is being pre-empted that member is
RETIRED, and the rest park (14 R361). -/
def doubleTrap (s : State) (k fcause : Nat) : State :=
  let h := s.hart k
  match h.entering, s.groupOf h with
  | some (cause, resume), some (g, kk) =>
    let s := faultRecord s kk.ctx (record4 (1 + kk.ctx * 2 ^ 16 + hartId k * 2 ^ 32)
      (cause.toNat + fcause * 2 ^ 16) resume.toNat h.s.tvec.toNat)
    let s := match s.ctxs.get? kk.ctx with
      | some cx => if cx.state = .resident ∨ cx.state = .runnable then setCtxState s kk.ctx .faulted else s
      | none => s
    if g.state = .parking then
      kernelFaultBut (some h.group) (retireHart s k) g.kernel 4 g.tile (k / 9)
    else kernelFault s g.kernel 4 g.tile (k / 9)
  | _, _ => s

/-! ## Core records (14 R351, R354) -/

/-- An operation that has not ended, and can go on, has a destination in a scratchpad of these cores (08 R226). One that
waits for the resumption of a parked hart cannot, and waits with it (DESIGN CHOICE, log 38). -/
def xferInto (s : State) (c : Nat) (cores : List Nat) : Bool :=
  match s.ctxs.get? c with
  | none => false
  | some cx => cx.xfer.any fun q => q.2.ops.any fun o =>
      !xferStuck s c q.2.ops 32 o && o.fail.isNone && o.hart.isNone && (xferWrites s c o).any fun p =>
          cores.any fun x => decide (p.1 < coreBase x + 0x8_0000) && decide (coreBase x < p.1 + p.2)

/-- Copy a scratchpad to an address, as memory lists it. -/
def copyCells (s : State) (base n pa : Nat) : State :=
  (s.mem.filter fun c => decide (base ≤ c.1) && decide (c.1 < base + n)).foldl (fun s c =>
    putPhysByte s (pa + (c.1 - base)) c.2) s

/-- Write the core record of a slot of a group: the accumulators and the scratchpad. -/
def writeCore (s : State) (gid slot core pa : Nat) (emerg : Bool) : State :=
  match s.groups.get? gid with
  | none => s
  | some g => match s.kernels.get? g.kernel with
    | none => s
    | some k =>
      let w0 := 3 + bit emerg 2 + k.ctx * 2 ^ 16
      let s := zeroRange s pa coreRecordSize
      let s := physWords s pa [w0, core]
      let s := (s.core core).acc.toList.zipIdx.foldl (fun s p =>
        store s (pa + 0x1000 + 0x4000 * p.2) (toBytes 0x4000 p.1.toNat) none) s
      let s := copyCells s (coreBase core) 0x8_0000 (pa + 0x8_0000)
      let bad := (s.bad.filter fun u => decide (coreBase core ≤ u) && decide (u < coreBase core + 0x8_0000)).map
        (· - coreBase core)
      physWrite (s.setGroup gid { g with written := g.written ++ [slot], bad := g.bad.set slot bad }) pa 8 (w0 + 8)

/-- A core that its group has left: places FREE, tile registers EMPTY. -/
def freeCore (s : State) (gid c : Nat) : State :=
  let s := s.setCore c (s.core c).cleared
  (List.range 9).foldl (fun s i =>
    if (s.hart (9 * c + i)).group = gid then (s.leavePods (9 * c + i)).setHart (9 * c + i) {} else s) s

/-- Every member of a group is PARKED or RETIRED. -/
def Group.allParked (g : Group) : Bool := g.members.all fun p => p.2.at_ == .parked || p.2.at_ == .retired

/-- Room that a victim frees by parking is kept for the work that asked for it (15 R370). -/
def keepRoom (m : NatMap Want) (w : Option Want) (l : List Nat) : NatMap Want :=
  match w with
  | some w => l.foldl (fun m c => m.set c w) m
  | none => m

/-- CORE_RECORD_SAVE (14 R351): once the last has been written the group is PARKED and its cores are freed. A group
whose kernel has faulted meanwhile is abandoned (14 R361). -/
def tryCoreRecordSave (group core : Nat) (s : State) : Option State :=
  match s.groups.get? group with
  | none => none
  | some g => match s.kernels.get? g.kernel, g.cores.findIdx? (· == core) with
    | some k, some slot => match g.records.get? slot, s.ctxs.get? k.ctx with
      | some o, some cx =>
        if g.state ≠ .parking ∨ g.allParked = false ∨ g.written.contains slot = true ∨
            xferInto s k.ctx g.cores = true then none
        else
          let s := writeCore s group slot core (cx.parkbase + o) false
          match s.groups.get? group with
          | none => some s
          | some g' =>
            if g'.written.length = g.cores.length then
              let s := g.cores.foldl (fun s c => freeCore s group c) s
              let s := { s with keptCores := keepRoom s.keptCores g.forWork g.cores }
              let s := s.setGroup group { g' with state := .parked, cores := [], placing := [] }
              some (if k.state = .running then s else endGroup s group)
            else some s
      | _, _ => none
    | _, _ => none
def execCoreRecordSave (group core : Nat) (s : State) : Out := comes s (tryCoreRecordSave group core s)

/-! ## Where a group may go (17 R380, R381, 20 R422) -/

/-- The quad's column of a core is reported hot. -/
def hotCore (s : State) (c : Nat) : Bool := (s.svc.therm.getD (c / 64) {}).hot.getLsbD (c / 4 % 4)

/-- A core on which no group is placed, and which has not left service. -/
def coreFree (s : State) (c : Nat) : Bool :=
  decide (c < 64 * s.variant.towers) && !(s.core c).lost &&
    !(s.groups.any fun p => p.2.state != .ended && (p.2.cores.contains c || p.2.placing.any fun q => q.2 == c))

/-- Work still wants its room (15 R370): its kernel has not ended and its tile waits for a place. -/
def wantActive (s : State) (w : Want) : Bool :=
  match s.kernels.find? fun p => p.2.ctx == w.ctx && p.2.queue == w.queue && p.2.num == w.num with
  | some (kid, k) =>
    k.state == .running &&
      (decide (k.next ≤ w.tile) || (k.isBank && k.streams.any fun i => (s.stream i).kernel == kid && (s.stream i).state == .parked) ||
        s.groups.any fun p => p.2.kernel == kid && p.2.tile == w.tile &&
          (p.2.state == .waitingPlace || p.2.state == .parked || p.2.state == .parking))
  | none => match s.ctxs.get? w.ctx with
    | some cx => (match cx.queues.get? w.queue with
      | some q => q.state != .disabled && decide (q.base < w.num)
      | none => false)
    | none => false

/-- Room kept for other work than `w` (15 R370). -/
def keptFor (s : State) (m : NatMap Want) (w : Want) (c : Nat) : Bool :=
  match m.get? c with | some v => v != w && wantActive s v | none => false

def keptCore (s : State) (w : Want) (c : Nat) : Bool := keptFor s s.keptCores w c
def keptBank (s : State) (w : Want) (b : Nat) : Bool := keptFor s s.keptBanks w b

/-- Work has been placed: what was kept for it is kept no longer. -/
def unkeep (s : State) (w : Want) : State :=
  { s with keptCores := s.keptCores.filter fun p => p.2 != w, keptBanks := s.keptBanks.filter fun p => p.2 != w }

/-- A core on which work may place a group. -/
def coreOpen (s : State) (w : Want) (c : Nat) : Bool := coreFree s c && !hotCore s c && !keptCore s w c

/-- No placement: the scheduler's firmware is being committed (20 R427), or a power emergency has begun (14 R357,
log 37). -/
def schedulerPaused (s : State) : Bool := s.svc.emergency || (s.svc.fwbusy && s.svc.fwcmd == 1 && s.svc.fwcomp == 1)

/-! ## Resumption (14 R355) -/

/-- The H-element rising choices from a rising list. -/
def choose : Nat → List Nat → List (List Nat)
  | 0, _ => [[]]
  | _ + 1, [] => []
  | n + 1, c :: t => (choose n t).map (c :: ·) ++ choose (n + 1) t

/-- The cores on which a PARKED group can go in the quad of core `c`: the first rising choice of open cores of that quad
of which `ok` holds. -/
def resumeCores (s : State) (g : Group) (k : Kernel) (c : Nat) (ok : List Nat → Bool) : Option (List Nat) :=
  let w : Want := ⟨k.ctx, k.queue, k.num, g.tile⟩
  (choose k.hosting ((List.range' (c / 4 * 4) 4).filter (coreOpen s w))).find? ok

/-- A group's cores are reserved, and it binds (17 R383). -/
def reserveCores (s : State) (gid : Nat) (cores : List Nat) : State :=
  match s.groups.get? gid with
  | some g => s.setGroup gid { g with state := .binding, placing := cores.zipIdx.map fun p => (p.2, p.1) }
  | none => s

/-- The other PARKED groups of a COSIDE kernel bind again with one of them (17 R384): each in the first quad that has
room; none where one has none, or still parks. -/
def reserveSiblings (s : State) (gid : Nat) (g : Group) (k : Kernel) : Option State :=
  if k.coside then
    (s.groups.filter fun p => p.2.kernel == g.kernel && p.1 != gid).foldl (fun (r : Option State) p => r.bind fun s =>
      match p.2.state with
      | .parking => none
      | .parked => ((List.range (16 * s.variant.towers)).findSome? fun q =>
          resumeCores s p.2 k (4 * q) fun _ => true).map (reserveCores s p.1)
      | _ => some s) (some s)
  else some s

/-- Whether harts of these grants fit in the lane clusters of a core (04 R103, 17 R382): eight, each of four quarters. -/
def grantsFit (l : List Nat) : Bool :=
  let small := (l.filter fun g => decide (g ≤ 2048)).length
  decide ((small + 3) / 4 + (l.map fun g => if g ≤ 2048 then 0 else if g ≤ 8192 then 1 else 2).foldl (· + ·) 0 ≤ 8)

/-- Where member `n` of a group is bound again on core `c` of slot `j`, with its grant (14 R355, 17 R382): at its own
place, or, for one that released its vector state or was bound elsewhere before, at the first place of the core that
no other member needs, with the first of the grants that fits there. -/
def placeAgain (s : State) (g : Group) (k : Kernel) (n : Nat) (m : Member) (c j : Nat) (grants : List Nat) :
    Option (Nat × Nat) :=
  if 64 ≤ n then some (9 * c + 8, 0)
  else if m.slot = none ∧ j = n / k.perCore then grants.head?.map fun b => (9 * c + n % k.perCore, b)
  else
    let here (i : Nat) : Bool := match g.members.get? (j * k.perCore + i) with
      | some o => decide (i < k.perCore) && o.at_ != .retired && o.slot.isNone
      | none => false
    let others := ((List.range 8).filter fun i => here i || (s.hart (9 * c + i)).life != .free).map fun i =>
      if here i then k.vlen else (s.hart (9 * c + i)).vgrant
    match (List.range 8).find? fun i => !here i && (s.hart (9 * c + i)).life == .free with
    | some i => (grants.find? fun b => grantsFit (b :: others)).map fun b => (9 * c + i, b)
    | none => none

/-- The record of a member says that it released its vector state (14 R353 REL). -/
def recordRel (s : State) (pa : Nat) : Bool := bitsAt (physRead s (pa + 0x18) 8) 18 1 == 1

/-- The grants with which a member may come back (17 R382): with REL the largest up to V that fits, else its own. -/
def grantsAgain (s : State) (k : Kernel) (pa : Nat) : List Nat :=
  if recordRel s pa then [16384, 8192, 4096, 2048, 1024].filter (· ≤ k.vlen)
  else [bitsAt (physRead s (pa + 0x18) 8) 0 15]

/-- The hart that comes back from its record (14 R355). -/
def resumed (s : State) (pa : Nat) (seq : Bool) (cx : Context) (k : Kernel) (gid n : Nat) (m : Member) (grant : Nat) : Hart :=
  let masks := physRead s (pa + 0x10) 8
  let x := (Vector.replicate 32 (0 : Word)).set 1 (cx.parkva + BitVec.ofNat 64 (m.parkAt.getD 0))
  { life := .bound, group := gid, index := if seq then 0 else n,
    pc := cx.resume &&& ~~~3, x := x.set 2 (boolWord (bitsAt (physRead s pa 8) 2 1 == 1)),
    full := ~~~(BitVec.ofNat 32 (masks % 2 ^ 32)), failed := m.failed, st := m.st,
    s := { tvec := cx.stvec &&& ~~~3 }, tdeleg := BitVec.ofNat 32 (recField k 0xF8 0 32) &&& delegableMask,
    tstat := { prv := true, uie := true }, vgrant := grant, vstate := .off,
    released := recordRel s pa, shadow := Vector.ofFn fun i => shadowKept i.1 (BitVec.ofNat 64 (physRead s (pa + 0x40 + 8 * i.1) 8)),
    arrived := m.arrived, finMark := m.fin, stops := m.stops, reads := m.reads, readsHeld := true }

/-- Restore the accumulators and the scratchpad of a core from its record. -/
def restoreCore (s : State) (g : Group) (slot core pa : Nat) : State :=
  let s := s.setCore core { (s.core core).cleared with
    acc := Vector.ofFn fun i => BitVec.ofNat 131072 (physRead s (pa + 0x1000 + 0x4000 * i.1) 0x4000) }
  let s := zeroRange s (coreBase core) 0x8_0000
  let s := { s with mem := ((List.range 0x8_0000).foldl (fun m o =>
      let b := physByte s (pa + 0x8_0000 + o)
      if b = 0 then m else memWrite m (coreBase core + o) b) s.mem) }
  { s with bad := (g.bad.getD slot []).foldl (fun l u => insertNat l (coreBase core + u)) s.bad }

/-- A group whose members are all bound again runs (17 R383): its core records are restored, and its harts are
READY. -/
def runGroup (cx : Context) (k : Kernel) (s : State) (gid : Nat) : State :=
  match s.groups.get? gid with
  | none => s
  | some g =>
    let s := g.placing.foldl (fun s p => restoreCore s g p.1 p.2 (cx.parkbase + g.records.getD p.1 0)) s
    let s := g.members.foldl (fun s p => match p.2.at_ with
      | .place key => s.modHart key fun h => { h with life := .ready }
      | _ => s) s
    let s := unkeep s ⟨k.ctx, k.queue, k.num, g.tile⟩
    { s.setGroup gid { g with state := .running, cores := g.placing.map (·.2),
                              die := (g.placing.map (·.2)).headD 0 / 64, placing := [], forWork := none, migrating := false, written := [], bad := [], boundAt := s.fresh } with fresh := s.fresh + 1 }

/-- Once the last member of a group, and of the groups that bind with it, is bound again, they run. -/
def startResumed (s : State) (gid : Nat) (cx : Context) (k : Kernel) : State :=
  let gs := (s.groups.filter fun p => p.2.state == .binding &&
    (p.1 == gid || (k.coside && (match s.groups.get? gid with | some g => p.2.kernel == g.kernel | none => false))))
  if gs.any fun p => p.2.members.any fun q => q.2.at_ == .parked then s
  else (gs.map (·.1)).foldl (runGroup cx k) s

/-- HART_RESUME (14 R355): a PARKED member is bound on a core chosen for its slot, one that released its vector state on
any hosting core (17 R382). With the first of them the cores of the group are chosen, and of the groups that bind with
it (17 R384). -/
def tryHartResume (group member core : Nat) (s : State) : Option State :=
  match s.groups.get? group with
  | none => none
  | some g => match s.kernels.get? g.kernel, g.members.get? member with
    | some k, some m => match s.ctxs.get? k.ctx with
      | none => none
      | some cx =>
        let pa := cx.parkbase + m.parkAt.getD 0
        let rel := decide (member < 64) && recordRel s pa
        let own := m.slotOf member k.perCore
        let ok (l : List Nat) : Bool := if rel then l.contains core else l[own]? == some core
        let start : Option (State × List Nat) :=
          if g.state = .binding then some (s, g.placing.map (·.2))
          else if g.state = .parked then
            (resumeCores s g k core ok).bind fun l =>
              (reserveSiblings (reserveCores s group l) group g k).map fun s => (s, l)
          else none
        match start with
        | none => none
        | some (s, cores) =>
          let j := (cores.findIdx? (· == core)).getD own
          match if ok cores then placeAgain s g k member m core j (grantsAgain s k pa) else none, s.groups.get? group with
          | some (place, grant), some g =>
            if m.at_ ≠ .parked ∨ k.state ≠ .running ∨ schedulerPaused s = true ∨
                (cx.state ≠ .runnable ∧ cx.state ≠ .resident) then
              none
            else
              let s := s.setHart place (resumed s pa (decide (64 ≤ member)) cx k group member m grant)
              let s := renameOps s (parkKey group member) place
              let m' : Member :=
                { m with at_ := .place place, slot := if member < 64 ∧ (m.slot.isSome = true ∨ j ≠ member / k.perCore) then some j else none }
              let s := s.setGroup group { g with members := g.members.set member m' }
              let s := if cx.state = .runnable then setCtxState s k.ctx .resident else s
              some (startResumed s group cx k)
          | _, _ => none
    | _, _ => none
def execHartResume (group member core : Nat) (s : State) : Out := comes s (tryHartResume group member core s)

/-! ## Bank streams (14 R351, R354, 11 R286, R301) -/

/-- STREAM_PARK can be taken (11 R301): at a row boundary, after a deadline and a yield. -/
def streamParkReady (s : State) (i : Nat) (st : Stream) : Bool :=
  st.preempt && (st.state == .running || st.state == .waiting || st.state == .handler) && atBoundary s i st &&
    st.window.isNone && !deadlineReady s i st && !st.stopping &&
    (streamBanks s i).all fun b => !(s.bank b).forced && (s.bank b).reopen.isNone && (s.bank b).waiting.isEmpty

/-- The words of a stream's registers and split stack in its record (14 R351, R354; log 35). -/
def streamWords (st : Stream) : List Nat :=
  let code := match st.state with
    | .idle => 0 | .running => 1 | .waiting => 2 | .handler => 3 | .suspended => 4 | .parked => 5 | .faulted => 6 | .ended => 7
  [code, st.pos, st.swc.toNat, st.entry.toNat + bit st.en 15, st.btepc.toNat, st.btcause.toNat,
    st.bound.toNat + st.mask.toNat * 2 ^ 16, st.mark] ++
  st.split.flatMap fun e =>
    [e.preds.toNat + e.part.toNat * 2 ^ 16 + e.p1.toNat * 2 ^ 32 + e.p0.toNat * 2 ^ 48,
      e.target + 2 ^ 16 * (match e.kind with
        | .alone => 0 | .serialFirst => 1 | .serialSecond => 2 | .returns => 3 | .parallel j => 4 + 2 ^ 8 * j)]

/-- A bank's part of a bank record: its registers, predicates and accumulators, and each open slot's row, with the
contents of a dirty one (14 R351, R354; log 35). -/
def writeBank (s : State) (pa key : Nat) : State :=
  let x := s.bank key
  let s := physWords s (pa + 0x400) (x.b.toList.map (·.toNat) ++ [bit x.pred 0 + bit x.saved 1] ++
    (List.range 4).map fun n => if x.isOpen n then 2 ^ 16 + bit ((x.slotAt n).state == .openDirty) 17 + (x.slotAt n).row else 0)
  let s := store s (pa + 0x8000) (toBytes 0x4000 x.q[0].toNat ++ toBytes 0x4000 x.q[1].toNat) none
  (List.range 4).foldl (fun s n =>
    if x.isOpen n ∧ (x.slotAt n).state = .openDirty then
      store s (pa + 0x1_0000 + 0x2000 * n) (toBytes 0x2000 (x.slotAt n).bits.toNat) none
    else s) s

/-- The bank record of a stream (14 R354). Its layout but for KIND, EMERG, COMMIT and CTX is not stated; the device keeps
the banks for their return (log 35). -/
def writeBankRecord (s : State) (i pa : Nat) (c : Nat) (emerg : Bool) (bs : List Nat) : State :=
  let w0 := 4 + bit emerg 2 + c * 2 ^ 16
  let s := zeroRange s pa (bankRecordSize * bs.length)
  let s := physWords s pa ([w0, 0x3000 + i] ++ streamWords (s.stream i))
  let s := bs.zipIdx.foldl (fun s p => writeBank s (pa + bankRecordSize * p.2) p.1) s
  physWrite s pa 8 (w0 + 8)

/-- A stream parks: its banks are saved, every open slot is precharged without write-back, and the banks pass to
plinth refresh. -/
def parkStream (s : State) (i : Nat) (emerg : Bool) : State :=
  let st := s.stream i
  match s.kernels.get? st.kernel, st.record with
  | some k, some o => match s.ctxs.get? k.ctx with
    | none => s
    | some cx =>
      let bs := streamBanks s i
      let s := bs.foldl settleBank s
      let s := writeBankRecord s i (cx.parkbase + o) k.ctx emerg bs
      let saved := bs.map fun b => (b, s.bank b)
      let s := { bs.foldl freeBank s with keptBanks := keepRoom s.keptBanks k.forWork bs }
      settleCtx (s.modStream i fun x =>
        { x with state := .parked, kept := st.state, preempt := false, saved := saved, held := false }) k.ctx
  | _, _ => s

/-- STREAM_PARK. -/
def tryStreamPark (stream : Nat) (s : State) : Option State :=
  if streamParkReady s stream (s.stream stream) = true ∧ (s.stream stream).record.isSome = true then
    some (parkStream s stream s.svc.emergency)
  else none
def execStreamPark (stream : Nat) (s : State) : Out := comes s (tryStreamPark stream s)

/-- A saved bank comes back (11 R286): its open slots are activated again, a clean one with its row of the array,
a dirty one with its saved contents. -/
def restoreBank (i : Nat) (s : State) (p : Nat × Bank) : State :=
  let b := p.1
  let y := p.2
  let live := s.bank b
  let s := s.setBank b { y with debt := live.debt, acts := live.acts, spared := live.spared, waiting := [],
                                pass := none, rcopy := [], refb := none, yieldCopies := [], plan := [], owner := some i,
                                deadline := false, forced := false, reopen := none, servedBy := live.servedBy,
                                readBy := live.readBy,
                                refAt := lastInterval s b, slot := Vector.replicate 4 {} }
  (List.range 4).foldl (fun s n =>
    let z := y.slotAt n
    if y.isOpen n then
      let (s, a) := yieldAct s b (max (s.tower (b / 1024)).now live.servedBy)
      let r := rowRead s b n z.row
      let z := if z.state = .openClean then { z with bits := r.1, bad := r.2 } else z
      let s := s.modBank b fun x => x.putSlot n { z with actAt := a }
      s.modStream i fun x => { x with readyAt := max x.readyAt (a + tACU) }
    else s.modBank b fun x => x.putSlot n { row := z.row })
    (s.modStream i fun x => { x with readyAt := max x.readyAt live.servedBy })

/-- A PARKED stream goes on in the state it left, with its banks (11 R286). -/
def resumeStream (s : State) (i : Nat) : State :=
  let s := (s.stream i).saved.foldl (restoreBank i) s
  s.modStream i fun x => { x with state := x.kept, saved := [] }

/-- The PARKED streams of a kernel may all come back: their banks are free, and so are the sequencers and the buffer
entries that they have given up. -/
def streamsReady (s : State) (k : Kernel) : Bool :=
  let w : Want := ⟨k.ctx, k.queue, k.num, 0⟩
  (k.streams.all fun j => let st := s.stream j
    !st.preempt && (st.state != .parked || st.saved.all fun p => bankReady s p.1 && !keptBank s w p.1) &&
      (decide (j < 4096) || (s.stream (j % 4096)).seqOpen)) &&
    (k.bufHeld.isNone || (bufRange s k.towers k.bufN).isSome)

/-- STREAM_RESUME (11 R286): once every stream of its kernel has parked and the banks of all are free, all of them come
back, and none issues before (14 R355). -/
def tryStreamResume (stream : Nat) (s : State) : Option State :=
  let st := s.stream stream
  match s.kernels.get? st.kernel with
  | none => none
  | some k => match s.ctxs.get? k.ctx with
    | none => none
    | some cx =>
      if st.state ≠ .parked ∨ schedulerPaused s = true ∨ (cx.state ≠ .runnable ∧ cx.state ≠ .resident) ∨
          streamsReady s k = false then none
      else
        let s := takeBuf (k.streams.foldl takeSeq s) st.kernel
        let k := (s.kernels.get? st.kernel).getD k
        let s := (k.streams.filter fun j => (s.stream j).state == .parked).foldl resumeStream s
        let s := unkeep s ⟨k.ctx, k.queue, k.num, 0⟩
        let s := s.setKernel st.kernel { k with boundAt := s.fresh, forWork := none }
        let s := if cx.state = .runnable then setCtxState s k.ctx .resident else s
        some { s with fresh := s.fresh + 1 }
def execStreamResume (stream : Nat) (s : State) : Out := comes s (tryStreamResume stream s)

end Sys2Proof.Machine
end

