-- ==== Sys2Proof/Machine/Vmem.lean ====
section
/-! DEFINITION. VMEM: vector loads and stores (06 R158 to R174). Every element is one access (R162); what hardware
does beside the accesses changes no result (R173). -/
namespace Sys2Proof.Machine

/-! ## Spans of bytes -/

/-- A trap of a unit names the unit's address (06 R161), also where a later part of it fails. -/
def retag (va : Word) (e : Stop) : Stop :=
  match e with
  | .trap t => .trap { t with v1 := va }
  | x => x

/-- The address checks of the `n` bytes at `va` by parts of lines, from byte `o`: each part's translation and its
bytes. `req` is what a peer is asked of a part, by its first byte and length. The fuel bounds the parts. Steps 2 to 4 are
made on the first part before any of them on the next: of a unit that fails on both its pages the first page's failure
is reported, whatever its step (DEDUCED, log 26). -/
def spanGo (s : State) (h : Hart) (k : Acc) (idx : Nat) (va0 : Word) (req : Nat → Nat → PodOp) :
    Nat → Nat → Nat → Except Stop (List (Leaf × Nat))
  | 0, _, _ => .ok []
  | f + 1, o, n =>
    if n = 0 then .ok []
    else
      let va := va0 + BitVec.ofNat 64 o
      let m := min n (64 - va.toNat % 64)
      match hartAddr s h va m k idx (req o m) with
      | .error e => .error (retag va0 e)
      | .ok l => (spanGo s h k idx va0 req f (o + m) (n - m)).map ((l, m) :: ·)

/-- The checks of R161, steps 2 to 4, on the `n` bytes of one unit. -/
def span (s : State) (h : Hart) (k : Acc) (idx : Nat) (va : Word) (n : Nat)
    (req : Nat → Nat → PodOp := fun _ m => .read m) : Except Stop (List (Leaf × Nat)) :=
  spanGo s h k idx va req (n / 64 + 2) 0 n

def spanBad (s : State) (ps : List (Leaf × Nat)) : Bool := ps.any fun p => uncorrectable s p.1.pa p.2

/-- The bytes of a span. -/
def spanBytes (s : State) (ps : List (Leaf × Nat)) : List Byte := ps.flatMap fun p => physBytes s p.1.pa p.2

/-- The addresses of a span at a peer. -/
def spanPods (ps : List (Leaf × Nat)) : List Nat := (ps.filter fun p => 2 ^ 50 ≤ p.1.pa).map fun p => p.1.pa

/-- The access counters of a span (18 R401). -/
def spanCount (s : State) (ps : List (Leaf × Nat)) : State := ps.foldl (fun s p => countHart s p.1) s

/-- Write the bytes of a span. The hart's own monitor is marked too (06 R165). -/
def spanStore (s : State) (ps : List (Leaf × Nat)) (bs : List Byte) : State :=
  (ps.foldl (fun (a : State × List Byte) p =>
    (store (countHart a.1 p.1) p.1.pa (a.2.take p.2) none, a.2.drop p.2)) (s, bs)).1

/-- The answers of peers that an instruction has used. -/
def podsUsed (s : State) (pas : List Nat) : State := pas.foldl podUsed s

/-- A load of one unit: the bytes and the lines at peers. -/
def spanLoad (s : State) (h : Hart) (idx : Nat) (va : Word) (n : Nat) : Except Stop (List (Leaf × Nat) × List Byte) :=
  match span s h .load idx va n with
  | .error e => .error e
  | .ok ps =>
    if spanBad s ps then raise cUncorrectable va (BitVec.ofNat 64 idx) else .ok (ps, spanBytes s ps)

/-! ## Units and addresses (06 R160, R163, R166) -/

/-- eoff of a VMEM word (03 R83). -/
def eoff (w : VWord) : Int :=
  if Ty.isSub w.ty.toNat then signedOf 8 (bitsAt w.imm.toNat 8 8) else signedOf 12 (bitsAt w.imm.toNat 4 12)

/-- Elements per unit of masking and of stopping: 32 for a BFP block (06 R163). -/
def perUnit (t : Nat) : Nat := if Ty.isBfp t then 32 else 1

/-- The first bit of unit j, from bit 0 of byte 0, under a stride in bytes (06 R160, R166). -/
def unitBit (h : Hart) (w : VWord) (stride : Option Word) (j : Nat) : Int :=
  let t := w.ty.toNat
  let base : Int := (h.rd w.vs1).toNat
  let n : Int := unitBits t
  if Ty.isSub t then 8 * base + bitsAt w.imm.toNat 4 4 + n * eoff w + n * j
  else if Ty.isBfp t then 8 * base + (eoff w / 32 + j) * n
  else
    match stride with
    | some x => 8 * base + eoff w * n + 8 * ((j : Int) * x.toInt)
    | none => 8 * base + (eoff w + j) * n

/-- The bytes that hold unit j: the address of the first, how many, and the unit's first bit within them. -/
def unitSpan (h : Hart) (w : VWord) (stride : Option Word) (j : Nat) : Word × Nat × Nat :=
  let b := unitBit h w stride j
  let o := (b % 8).toNat
  (BitVec.ofInt 64 (b / 8), (o + unitBits w.ty.toNat + 7) / 8, o)

/-- An address that is not a multiple of the element's bytes (06 R161 step 1). -/
def misaligned (t : Nat) (va : Word) : Bool := Ty.isWhole t && va.toNat % (Ty.width t / 8) != 0

/-! ## Unit-stride and strided access (06 R164) -/

/-- What an instruction has done so far: state, registers and FFI in `hart`, and the lines at peers. -/
structure MemRun where
  s    : State
  hart : Hart
  pods : List Nat

/-- An element of a register in progress. -/
def Hart.setV (h : Hart) (r : Reg) (v : BitVec 16384) : Hart := { h with v := h.v.set r.toNat v }

/-- Load unit j into vd: the run after it, or the stop. -/
def loadUnit (w : VWord) (stride : Option Word) (align : Bool) (r : MemRun) (j : Nat) : Except Stop MemRun :=
  let t := w.ty.toNat
  let n := unitBits t
  let i := perUnit t * j
  if activeAt w r.hart i then
    let (va, m, o) := unitSpan r.hart w stride j
    if align && misaligned t va then raise cMisaligned va (BitVec.ofNat 64 i)
    else
      match spanLoad r.s r.hart i va m with
      | .error e => .error e
      | .ok (ps, bs) =>
        .ok { s := spanCount r.s ps,
              hart := r.hart.setV w.vd (putField (r.hart.vreg w.vd) (n * j) n (ofBytes bs / 2 ^ o)),
              pods := spanPods ps ++ r.pods }
  else if w.pol then
    .ok { r with hart := r.hart.setV w.vd (putField (r.hart.vreg w.vd) (n * j) n 0) }
  else .ok r

/-- Store unit j of vd. A partly covered byte of a sub-byte strip keeps its other bits (06 R166). -/
def storeUnit (w : VWord) (stride : Option Word) (r : MemRun) (j : Nat) : Except Stop MemRun :=
  let t := w.ty.toNat
  let n := unitBits t
  let i := perUnit t * j
  if activeAt w r.hart i then
    let (va, m, o) := unitSpan r.hart w stride j
    if misaligned t va then raise cMisaligned va (BitVec.ofNat 64 i)
    else
      let e := elemAt (r.hart.vreg w.vd) n j
      let bs := toBytes m (e * 2 ^ o)
      let req (b c : Nat) : PodOp :=
        if Ty.isSub t then .merge ((bs.drop b).take c) (((toBytes m ((2 ^ n - 1) * 2 ^ o)).drop b).take c)
        else .write ((bs.drop b).take c)
      match span r.s r.hart .store i va m req with
      | .error e => .error e
      | .ok ps =>
        let old := if Ty.isSub t then ofBytes (spanBytes r.s ps) else 0
        let new := putBits old o n e
        .ok { r with s := spanStore r.s ps (toBytes m new), pods := spanPods ps ++ r.pods }
  else .ok r

/-- Units one after another: the run, and the unit at which it stopped with the stop. -/
def runUnits (f : MemRun → Nat → Except Stop MemRun) : List Nat → MemRun → MemRun × Option (Nat × Stop)
  | [], r => (r, none)
  | j :: js, r =>
    match f r j with
    | .ok r' => runUnits f js r'
    | .error e => (r, some (j, e))

/-- The state after what has come about: a load's registers, with VSTART.ELEM at `i`. -/
def MemRun.upTo (r : MemRun) (k : Nat) (load : Bool) (i : Nat) : State :=
  let h := if load then r.hart else r.s.hart k
  podsUsed (r.s.setHart k { h with elem := BitVec.ofNat 32 i }) r.pods

/-- A stop of a run at element i: what came about stays, with VSTART.ELEM at i (06 R164), but that a wait for a
peer's line begins the run again. `vd` is a load's destination, written where an element was. -/
def MemRun.stopAt (r : MemRun) (k : Nat) (vd : Option Reg) (i : Nat) (e : Stop) : Except Stop State :=
  match e with
  | .trap t =>
    let r := match vd with
      | some d => if r.hart.elem.toNat < i then { r with hart := r.hart.putV d (r.hart.vreg d) } else r
      | none => r
    .error (.trapIn (r.upTo k vd.isSome i) t)
  | x => .error x

/-- A load that ends: the destination is written, with the bytes after the last block zero (02 R46). -/
def MemRun.loaded (r : MemRun) (w : VWord) : MemRun :=
  let v := r.hart.vreg w.vd
  let t := w.ty.toNat
  { r with hart := r.hart.putV w.vd (if Ty.isBfp t then bfpTrim r.hart.vgrant t v else v) }

/-- VLD, VLDS, VST and VSTS. -/
def strideOp (mk : VWord → Instr) (w : VWord) (stride load : Bool) (s : State) : Out :=
  slotOp mk w false s fun k h w =>
    let t := w.ty.toNat
    match vecCheck s k h w (vlmax h.vgrant t (tyBits w)) [] (some w.vd) with
    | .error e => .error e
    | .ok vl =>
      let st := if stride then some (h.rd w.vs3) else none
      let f := if load then loadUnit w st true else storeUnit w st
      let lo := unitsOf t h.elem.toNat
      let hi := longEnd h t vl
      if vl = 0 then .ok s
      else
        match runUnits f (List.range' lo (unitsOf t hi - lo)) ⟨s, h, []⟩ with
        | (r, none) => endLong k hi vl ((if load then r.loaded w else r).upTo k load h.elem.toNat)
        | (r, some (j, e)) => r.stopAt k (if load then some w.vd else none) (perUnit t * j) e

/-- VLD (06 R164). -/
def execVld (w : VWord) (s : State) : Out := strideOp .vld w false true s
/-- VLDS (06 R164). -/
def execVlds (w : VWord) (s : State) : Out := strideOp .vlds w true true s
/-- VST (06 R164). -/
def execVst (w : VWord) (s : State) : Out := strideOp .vst w false false s
/-- VSTS (06 R164). -/
def execVsts (w : VWord) (s : State) : Out := strideOp .vsts w true false s

/-- VLDFF (06 R167): a later active element that fails ends it without a trap, at FFI.INDEX. -/
def execVldff (w : VWord) (s : State) : Out :=
  slotOp .vldff w false s fun k h w =>
    let t := w.ty.toNat
    match vecCheck s k h w (vlmax h.vgrant t (tyBits w)) [] (some w.vd) with
    | .error e => .error e
    | .ok vl =>
      let lo := unitsOf t h.elem.toNat
      let first := ((List.range (unitsOf t vl)).find? fun j => activeAt w h (perUnit t * j)).getD 0
      let ended (r : MemRun) (i : Nat) : State :=
        let r := if vl = 0 then r else r.loaded w
        { r with hart := { r.hart.hushReads with ffi := BitVec.ofNat 32 i, vstate := .dirty } }.upTo k true h.elem.toNat
      let hi := longEnd h t vl
      match runUnits (fun r j => loadUnit w none (j == first) r j) (List.range' lo (unitsOf t hi - lo)) ⟨s, h, []⟩ with
      | (r, none) => if hi < vl then endLong k hi vl ((r.loaded w).upTo k true h.elem.toNat) else .ok (ended r vl)
      | (r, some (j, .trap t')) =>
        if j = first then r.stopAt k (some w.vd) (perUnit t * j) (.trap t') else .ok (ended r (perUnit t * j))
      | (_, some (_, e)) => .error e

/-! ## Gathers and scatters (06 R168 to R172) -/

/-- The address of element i of an indexed access (06 R160). -/
def indexedAddr (h : Hart) (w : VWord) (i : Nat) : Word :=
  let n := tyBits w
  BitVec.ofInt 64 ((h.rd w.vs1).toNat + eoff w * (n / 8 : Nat) +
    (elemAt (h.vreg w.vs2) (if n = 64 then 64 else 32) i * (n / 8) : Nat))

/-- The fault of a failed translation of an address, where that is its first failing check (06 R161). -/
def translationFails (s : State) (h : Hart) (w : VWord) (k : Acc) (i : Nat) : Bool :=
  let va := indexedAddr h w i
  !misaligned w.ty.toNat va && va.toNat / 2 ^ 57 == 0 &&
    (match walk s (s.ctxOf h) va.toNat k h.tstat.prv with
     | .error c => c == k.pageFault
     | .ok _ => false)

/-- Blocks of 4 MiB with their missing pages, in order of their lowest failing element (06 R171). -/
def missingBlocks (vas : List Nat) : List (Nat × Nat) :=
  vas.foldl (fun (bs : List (Nat × Nat)) va =>
    let b := va - va % 2 ^ 22
    let bit := 2 ^ bitsAt va 16 6
    if bs.any fun p => p.1 == b then bs.map fun p => if p.1 = b then (b, p.2 ||| bit) else p
    else bs ++ [(b, bit)]) []

/-- Merge blocks into the gather fault records not yet consumed, from unit `u` of the queue on (06 R172): the state
and the blocks that remain. The fuel bounds the units. -/
def mergeBlocks (base size : Nat) : Nat → Nat → Nat → State → List (Nat × Nat) → State × List (Nat × Nat)
  | 0, _, _, s, bs => (s, bs)
  | f + 1, u, left, s, bs =>
    if left = 0 then (s, bs)
    else
      let at_ (i : Nat) : Nat := base + 32 * ((u + i / 4) % size) + 8 * (i % 4)
      let h := physRead s (at_ 0) 8
      let kind := bitsAt h 0 16
      if kind = 2 ∨ kind = 3 then
        let (s, bs) := (List.range (bitsAt h 45 3)).foldl (fun (a : State × List (Nat × Nat)) j =>
          let blk := physRead a.1 (at_ (3 + 2 * j)) 8
          match a.2.find? fun p => p.1 == blk with
          | some p =>
            (physWrite a.1 (at_ (4 + 2 * j)) 8 (physRead a.1 (at_ (4 + 2 * j)) 8 ||| p.2),
              a.2.filter fun p => p.1 != blk)
          | none => a) (s, bs)
        mergeBlocks base size f (u + 3) (left - 3) s bs
      else mergeBlocks base size f (u + 1) (left - 1) s bs

/-- Write or merge the gather fault record of an instruction (06 R171, R172). Every missing block merges where it can,
and of those that remain the first four are listed (DESIGN CHOICE, log 60). -/
def gatherRecord (s : State) (k : Nat) (h : Hart) (kind first : Nat) (vas : List Nat) : State :=
  let c := s.ctxOf h
  match s.ctxs.get? c with
  | none => s
  | some cx =>
    let rd := physRead s (cx.desc + 0x30) 4
    let wr := physRead s (cx.desc + 0x34) 4
    let (s, bs) := mergeBlocks (fqBase cx) cx.fqsize cx.fqsize rd ((wr + cx.fqsize - rd) % cx.fqsize) s
      (missingBlocks vas)
    if bs = [] then s
    else
      let e := bs.take 4
      let pairs := e.flatMap fun p => [p.1, p.2]
      let words := [kind + c * 2 ^ 16 + (k % 9) * 2 ^ 32 + (k / 9) * 2 ^ 36 + e.length * 2 ^ 45, h.pc.toNat,
        first + vas.length * 2 ^ 32] ++ pairs ++ List.replicate (9 - pairs.length) 0
      faultRecord s c (words.flatMap (toBytes 8))

/-- The checks of R161, steps 1 to 4, of an indexed element. -/
def indexedCheck (s : State) (h : Hart) (w : VWord) (k : Acc) (i : Nat) : Except Stop (Leaf × Word) :=
  let va := indexedAddr h w i
  let n := tyBits w / 8
  if misaligned w.ty.toNat va then raise cMisaligned va (BitVec.ofNat 64 i)
  else
    (hartAddr s h va n k i).map fun l => (l, va)

/-- The elements of a list up to the first that fails. -/
def passing (s : State) (h : Hart) (w : VWord) (k : Acc) :
    List Nat → List (Nat × Leaf × Word) × Option (Nat × Stop)
  | [] => ([], none)
  | i :: t =>
    match indexedCheck s h w k i with
    | .error e => ([], some (i, e))
    | .ok p => let r := passing s h w k t; ((i, p) :: r.1, r.2)

/-- The destination of a gather is empty from issue until it delivers (06 R168). -/
def Hart.gathering (h : Hart) (r : Reg) (v : BitVec 16384) : Hart := (h.putV r v).emptied r.toNat

/-- The elements of a gather, read as it issues (06 R162, R168): those below the lowest that cannot be corrected,
which it names with its address (R169). -/
def gatherOf (s : State) (w : VWord) (ps : List (Nat × Leaf × Word)) : Gather :=
  let n := tyBits w / 8
  let bad := ps.find? fun (p : Nat × Leaf × Word) => uncorrectable s p.2.1.pa n
  let good := match bad with
    | some b => ps.filter fun (p : Nat × Leaf × Word) => decide (p.1 < b.1)
    | none => ps
  { vd := w.vd.toNat, width := tyBits w, elems := good.map fun p => ⟨p.1, physRead s p.2.1.pa n⟩,
    bad := bad.map fun p => (p.1, p.2.2) }

/-- Zero the inactive elements of a load below `hi`, with POL 1. -/
def zeroInactive (w : VWord) (h : Hart) (lo hi : Nat) : BitVec 16384 :=
  (fillElems (h.vreg w.vd) (tyBits w) lo hi (fun i => !w.pol || activeAt w h i) true
    (fun i => (elemAt (h.vreg w.vd) (tyBits w) i, 0))).1

/-- Every page fault at or above element f, by address. -/
def failingPages (s : State) (h : Hart) (w : VWord) (k : Acc) (act : List Nat) : List Nat :=
  (act.filter fun i => translationFails s h w k i).map fun i => (indexedAddr h w i).toNat

/-- The trap of element f of a gather or scatter, in the state that its lower elements leave (06 R168, R171). -/
def indexedTrap (s0 s : State) (k : Nat) (h : Hart) (w : VWord) (a : Acc) (kind f : Nat) (act : List Nat)
    (t : Trap) : Except Stop State :=
  let s := s.modHart k fun h => { h with elem := BitVec.ofNat 32 f }
  let s := if t.code = a.pageFault ∧ s.trapWaits k t.code = false then
      gatherRecord s k h kind f (failingPages s0 h w a (act.filter fun i => decide (f ≤ i)))
    else s
  .error (.trapIn s t)

/-- VLDX (06 R168). Its elements are read as it issues, in no order that another agent can tell (R162), so that no
later access of the hart is performed before them (07 R183); the register takes them when the gather delivers. -/
def execVldx (w : VWord) (s : State) : Out :=
  slotOp .vldx w false s fun k h w =>
    match vecCheck s k h w (vlmax h.vgrant w.ty.toNat (max (tyBits w) 32)) [src2 w] (some w.vd) with
    | .error e => .error e
    | .ok vl =>
      if vl = 0 then .ok s
      else
        let lo := h.elem.toNat
        let act := (List.range' lo (vl - lo)).filter (activeAt w h)
        match passing s h w .load act with
        | (_, some (_, .pod a op va m)) => .error (.pod a op va m)
        | (ps, some (f, .trap t)) =>
          let h1 := if f ≤ lo then h else (h.gathering w.vd (zeroInactive w h lo f)).deliver (gatherOf s w ps)
          let s1 := podsUsed ((ps.foldl (fun s p => countHart s p.2.1) s).setHart k h1) (ps.map fun p => p.2.1.pa)
          indexedTrap s s1 k h w .load 2 f act t
        | (ps, _) =>
          let h1 := h.gathering w.vd (zeroInactive w h lo vl)
          let far := ps.filter fun p => decide (2 ^ 50 ≤ p.2.1.pa)
          .ok (podsUsed ((ps.foldl (fun s p => countHart s p.2.1) s).setHart k
            { h1 with gathers := h1.gathers ++ [gatherOf s w ps] }) (far.map fun p => p.2.1.pa))

/-- VSTX (06 R168). A peer is first asked whether it maps each element, and then to write those that no later element
overwrites. -/
def execVstx (w : VWord) (s : State) : Out :=
  slotOp .vstx w false s fun k h w =>
    match vecCheck s k h w (vlmax h.vgrant w.ty.toNat (max (tyBits w) 32)) [src2 w] (some w.vd) with
    | .error e => .error e
    | .ok vl =>
      let n := tyBits w
      let lo := h.elem.toNat
      let act := (List.range' lo (vl - lo)).filter (activeAt w h)
      let asks (ps : List (Nat × Leaf × Word)) : Option Stop :=
        (ps.filter fun p => decide (2 ^ 50 ≤ p.2.1.pa) && ps.all fun q => q.2.2 != p.2.2 || q.1 ≤ p.1).findSome? fun p =>
          let op : PodOp := .write (toBytes (n / 8) (elemAt (h.vreg w.vd) n p.1))
          if (s.asked p.2.2 op).any (·.answer.isSome) then none else some (.pod p.2.1.pa op p.2.2 p.2.1.mode)
      let write (ps : List (Nat × Leaf × Word)) : State :=
        podsUsed (ps.foldl (fun s p =>
          store (countHart s p.2.1) p.2.1.pa (toBytes (n / 8) (elemAt (h.vreg w.vd) n p.1)) none) s)
          ((ps.filter fun p => decide (2 ^ 50 ≤ p.2.1.pa)).map fun p => p.2.1.pa)
      match passing s h w .store act with
      | (_, some (_, .pod a op va m)) => .error (.pod a op va m)
      | (ps, e) =>
        match asks ps, e with
        | some x, _ => .error x
        | none, some (f, .trap t) => indexedTrap s (write ps) k h w .store 3 f act t
        | none, _ => .ok (write ps)

end Sys2Proof.Machine
end

