-- ==== Sys2Proof/Machine/Sched.lean ====
section
/-! DEFINITION. The scheduler (15 to 17): admission of kernel records, placement of tiles, aging, pre-emption
requests, the ends of kernels, hardware faults of tiles; and the steps that make a stalled or waiting hart go on
(04 R100, 12 R311 to R314). -/
namespace Sys2Proof.Machine

/-! ## Binding a bank kernel (11 R282, R284, R285, R307, R435) -/

/-- Whether a remap step runs on a tower that a bank kernel names (18 R404). -/
def remapHolds (s : State) (k : Kernel) : Bool :=
  s.host.remapBusy && k.streamDecls.any fun d => d.1 == s.host.remap.toNat % 8

/-- What a bank kernel needs is free: sequencers, and its first buffer entry; none where it waits for room. -/
def bankRoom (s : State) (k : Kernel) : Option (List Nat × Nat) :=
  if k.declared.all (fun b => bankReady s b && !keptBank s ⟨k.ctx, k.queue, k.num, 0⟩ b) then
    match takeSeqs s k.streamDecls [], bufRange s k.towers k.bufN with
    | some l, some b => some (l, b)
    | _, _ => none
  else none

/-- A bank as binding makes it (11 R284): what has happened to its refresh stays, and so do the accesses that it still
serves. -/
def bindBank (i : Nat) (s : State) (b : Nat) : State :=
  let x := s.bank b
  s.setBank b { debt := x.debt, acts := x.acts, spared := x.spared, owner := some i, refAt := lastInterval s b,
                servedBy := x.servedBy, readBy := x.readBy }

/-- The cycle from which a stream may issue in its banks: each is done with the accesses that it served before. -/
def readyFrom (s : State) (t : Nat) (banks : List Nat) : Nat :=
  banks.foldl (fun m b => max m (s.bank b).servedBy) (s.tower t).now

/-- Bind the streams of a bank kernel, all before any of them issues. -/
def bindStreams (s : State) (kid : Nat) (k : Kernel) (seqs : List Nat) (buf : Nat) : State :=
  let s := giveRange (seqs.foldl giveSeq s) k.towers buf k.bufN
  let s := (k.streamDecls.zip seqs).foldl (fun s p =>
    let s := (declBanks p.1).foldl (bindBank p.2) s
    s.setStream p.2 { state := .running, kernel := kid, bound := p.1.2.2, mask := p.1.2.2,
                      bpc := BitVec.ofNat 9 (recField k 0x90 0 9), entry := BitVec.ofNat 9 (recField k 0x90 16 9),
                      en := recField k 0x90 31 1 == 1, code := k.code, readyAt := readyFrom s p.1.1 (declBanks p.1) }) s
  let s := k.towers.foldl (fun s t => s.modTower t fun x => x.grantBuf kid buf k.bufN []) s
  let s := unkeep s ⟨k.ctx, k.queue, k.num, 0⟩
  let s := s.setKernel kid { k with streams := seqs, bufBase := buf, boundAt := s.fresh, next := 1 }
  let s := match s.ctxs.get? k.ctx with
    | some cx => if cx.state = CtxState.runnable then setCtxState s k.ctx .resident else s
    | none => s
  { s with fresh := s.fresh + 1 }

/-! ## Queues and tiles (15 R368, R369; 16 R375) -/

/-- The effective priority of a queue (15 R369). -/
def Queue.eff (q : Queue) : Nat := if q.aged then min (q.prio + 1) 7 else q.prio

def effPrio (s : State) (c q : Nat) : Nat :=
  match s.ctxs.get? c with
  | some cx => (cx.queues.getD q {}).eff
  | none => 0

/-- The context and queue allow no placement (15 R364, 14 R347). -/
def placeable (cx : Context) (q : Queue) : Bool :=
  (cx.state == .runnable || cx.state == .resident) && q.state != .halted

/-- A tile waiting for a place: its kernel, the tile, and the group where it is placed again after a fault. -/
structure TileRef where
  kid  : Nat
  tile : Nat
  gid  : Option Nat
  deriving DecidableEq, Repr

/-- Kernels of a queue that run, lowest number first. -/
def queueKernels (s : State) (c q : Nat) : List (Nat × Kernel) :=
  s.kernels.filter fun p => p.2.ctx == c && p.2.queue == q && p.2.state == .running

/-- The next tile of a queue: of its lowest kernel, one to be placed again first (15 R368, log 36). -/
def nextTile (s : State) (c q : Nat) : Option TileRef :=
  ((queueKernels s c q).filterMap fun p =>
    match s.groups.find? fun g => g.2.kernel == p.1 && g.2.state == .waitingPlace with
    | some g => some (p.2.num, (⟨p.1, g.2.tile, some g.1⟩ : TileRef))
    | none => if p.2.next < p.2.tiles then some (p.2.num, ⟨p.1, p.2.next, none⟩) else none).foldl
    (fun (b : Option (Nat × TileRef)) x => match b with
      | none => some x
      | some y => if x.1 < y.1 then some x else b) none |>.map (·.2)

/-- How many groups of `h` open cores fit in the quads of the package. -/
def groupsFit (s : State) (w : Want) (h : Nat) (avoid : List Nat) : Nat :=
  ((List.range (16 * s.variant.towers)).map fun q =>
    ((List.range' (4 * q) 4).filter fun c => coreOpen s w c && !avoid.contains c).length / h).foldl (· + ·) 0

/-- Groups that a tile places together: all of a COSIDE kernel (17 R384). -/
def TileRef.count (t : TileRef) (k : Kernel) : Nat := if k.coside && t.gid.isNone then k.tiles else 1

def TileRef.want (t : TileRef) (k : Kernel) : Want := ⟨k.ctx, k.queue, k.num, t.tile⟩

def TileRef.avoid (t : TileRef) (s : State) : List Nat :=
  match t.gid with
  | some g => (match s.groups.get? g with | some x => x.avoid | none => [])
  | none => []

/-- The next tile of a queue, where it has a place now. -/
def tileFits (s : State) (c q : Nat) : Option (TileRef × Kernel) :=
  match nextTile s c q with
  | none => none
  | some t => match s.kernels.get? t.kid with
    | none => none
    | some k =>
      if (if k.isBank then !remapHolds s k && (bankRoom s k).isSome
          else decide (t.count k ≤ groupsFit s (t.want k) k.hosting (t.avoid s))) then some (t, k) else none

/-- The queues that hold a tile with a place, in rotation order, with their effective priority. -/
def candidates (s : State) : List (Nat × Nat) :=
  s.rotation.filter fun p => (match s.ctxs.get? p.1 with
    | some cx => placeable cx (cx.queues.getD p.2 {}) && (tileFits s p.1 p.2).isSome
    | none => false)

/-- The queue whose tile is placed next (15 R368): the first of the rotation at the highest effective priority. -/
def nextQueue (s : State) : Option (Nat × Nat) :=
  let l := candidates s
  let top := l.foldl (fun m p => max m (effPrio s p.1 p.2)) 0
  l.find? fun p => effPrio s p.1 p.2 == top

/-- The indices of a tile (16 R375). -/
def tileIndices (k : Kernel) (t : Nat) : List Nat :=
  let n := k.levels
  let order := if k.order = 1 then (List.range n).reverse else List.range n
  let ix := (order.foldl (fun (a : Nat × NatMap Nat) j =>
    (a.1 / k.count j, a.2.set j (a.1 % k.count j))) (t, [])).2
  (List.range n).map fun j =>
    let i := ix.getD j 0
    if k.order = 2 ∧ 2 ≤ n ∧ j = 0 ∧ ix.getD 1 0 % 2 = 1 then k.count 0 - 1 - i else i

/-! ## Binding (04 R100, 16 R376, 17 R380 to R382) -/

/-- The x registers that binding preloads. -/
def preload (k : Kernel) (tile index : Nat) : Vector Word 32 :=
  let ix := tileIndices k tile
  Vector.ofFn fun r =>
    if 10 ≤ r.1 ∧ r.1 < 14 ∧ r.1 - 10 < k.levels then BitVec.ofNat 64 (ix.getD (r.1 - 10) 0 * k.step (r.1 - 10))
    else if r.1 = 14 then BitVec.ofNat 64 index
    else if r.1 = 15 then BitVec.ofNat 64 k.gsize
    else if r.1 = 16 then BitVec.ofNat 64 k.arg
    else 0

/-- A hart, or a sequencer, as binding makes it; the group starts in the same step, so that it is READY
(04 R100). -/
def boundHart (cx : Context) (k : Kernel) (gid tile index : Nat) (seq : Bool) : Hart :=
  { life := .ready, group := gid, index := index, pc := BitVec.ofNat 64 (if seq then k.seqEntry else k.entry) &&& ~~~3,
    x := preload k tile index, s := { tvec := cx.stvec &&& ~~~3 },
    tdeleg := BitVec.ofNat 32 (recField k 0xF8 0 32) &&& delegableMask, vgrant := if seq then 0 else k.vlen }

/-- A core as a new group finds it (17 R381): scratchpad offsets below SPAD zero, accumulators +0, tile registers
EMPTY. -/
def openCore (s : State) (k : Kernel) (c : Nat) : State :=
  let x := s.core c
  let b := coreBase c
  let s := s.setCore c { x.cleared with acc := Vector.replicate 4 0, last := 7, yielded := [] }
  { s with mem := s.mem.filter (fun p => decide (p.1 < b) || decide (b + k.spad ≤ p.1)),
           bad := s.bad.filter fun u => decide (u + 8 ≤ b) || decide (b + k.spad < u + 8) }

/-- Bind a group on its hosting cores and start it (17 R383). -/
def bindGroup (s : State) (gid kid : Nat) (g : Group) (cores : List Nat) : State :=
  match s.kernels.get? kid with
  | none => s
  | some k => match s.ctxs.get? k.ctx with
    | none => s
    | some cx =>
      let s := cores.foldl (fun s c => openCore s k c) s
      let harts := (List.range k.gsize).map fun i =>
        (i, 9 * cores.getD (i / k.perCore) 0 + i % k.perCore, boundHart cx k gid g.tile i false)
      let seqs := if k.seqEntry = 0 then [] else cores.zipIdx.map fun p =>
        (64 + p.2, 9 * p.1 + 8, boundHart cx k gid g.tile 0 true)
      let s := (harts ++ seqs).foldl (fun s p => s.setHart p.2.1 p.2.2) s
      let s := unkeep s ⟨k.ctx, k.queue, k.num, g.tile⟩
      let s := s.setGroup gid { g with kernel := kid, state := .running, cores := cores, die := cores.headD 0 / 64,
                                       boundAt := s.fresh,
                                       members := (harts ++ seqs).map fun p => (p.1, { at_ := .place p.2.1 }) }
      let s := if cx.state = CtxState.runnable then setCtxState s k.ctx .resident else s
      { s with fresh := s.fresh + 1 }

/-- Rising cores of one quad, open to work. -/
def coresOk (s : State) (w : Want) (h : Nat) (avoid : List Nat) (l : List Nat) : Bool :=
  l.length == h && l.all (fun c => coreOpen s w c && !avoid.contains c && c / 4 == l.headD 0 / 4) &&
    (l.zip (l.drop 1)).all fun p => decide (p.1 < p.2)

/-- A list cut into pieces of `h`. -/
def chunks (h : Nat) : Nat → List Nat → List (List Nat)
  | 0, _ => []
  | n + 1, l => l.take h :: chunks h n (l.drop h)

/-- A queue with no tile left passes its turn (15 R368): its count of placed tiles begins again, and it stands last. -/
def passTurn (s : State) (p : Nat × Nat) : State :=
  match s.ctxs.get? p.1 with
  | none => s
  | some cx =>
    { s.setCtx p.1 { cx with queues := cx.queues.set p.2 { cx.queues.getD p.2 {} with turn := 0 } } with
      rotation := s.rotation.filter (· != p) ++ [p] }

/-- A queue has placed `n` tiles (15 R368, R369): its aging ends, and after WEIGHT tiles, or when it runs out, it passes
its turn. The queues of its level that stood before it and have run out have passed theirs; one whose tile has no room
now keeps its place. -/
def turnTaken (s : State) (c q n : Nat) : State :=
  match s.ctxs.get? c with
  | none => s
  | some cx =>
    let qu := cx.queues.getD q {}
    let out (p : Nat × Nat) : Bool := (nextTile s p.1 p.2).isNone
    let before := (s.rotation.takeWhile (· != (c, q))).filter fun p => effPrio s p.1 p.2 == qu.eff && out p
    let s := before.foldl passTurn (s.setCtx c { cx with queues := cx.queues.set q { qu with aged := false, turn := qu.turn + n } })
    if qu.weight ≤ qu.turn + n ∨ out (c, q) then passTurn s (c, q) else s

/-- TILE_PLACEMENT (15 R368): the next tile of the queue whose turn it is, on cores that the scheduler chose; a
COSIDE kernel's groups together (17 R384), tile by tile; a bank kernel whose streams have waited for room is bound
(log 33). -/
def tryTilePlacement (ctx queue : Nat) (cores : List Nat) (s : State) : Option State :=
  if nextQueue s ≠ some (ctx, queue) ∨ schedulerPaused s = true then none
  else
    match tileFits s ctx queue with
    | none => none
    | some (t, k) =>
      if k.isBank then
        match if cores = [] then bankRoom s k else none with
        | some (seqs, buf) => some (turnTaken (bindStreams s t.kid k seqs buf) ctx queue 1)
        | none => none
      else
      let n := t.count k
      let parts := chunks k.hosting n cores
      if cores.length ≠ n * k.hosting ∨ cores.eraseDups.length ≠ cores.length ∨
          parts.all (coresOk s (t.want k) k.hosting (t.avoid s)) = false then none
      else
        match t.gid with
        | some gid => match s.groups.get? gid with
          | some g => some (turnTaken (bindGroup s gid t.kid { g with avoid := [] } cores) ctx queue 1)
          | none => none
        | none =>
          let s := parts.zipIdx.foldl (fun s p =>
            let gid := s.fresh
            bindGroup { s with fresh := s.fresh + 1 } gid t.kid { kernel := t.kid, tile := t.tile + p.2 } p.1) s
          match s.kernels.get? t.kid with
          | some k => some (turnTaken (s.setKernel t.kid { k with next := k.next + n }) ctx queue n)
          | none => none
def execTilePlacement (ctx queue : Nat) (cores : List Nat) (s : State) : Out := comes s (tryTilePlacement ctx queue cores s)

/-- QUEUE_AGING (15 R369): STARVE scheduler cycles have passed. A tile that waits for room ages too (log 36). -/
def tryQueueAging (ctx queue : Nat) (s : State) : Option State :=
  match s.ctxs.get? ctx with
  | none => none
  | some cx => match cx.queues.get? queue with
    | none => none
    | some q =>
      if q.starve = 0 ∨ q.aged = true ∨ placeable cx q = false ∨ nextTile s ctx queue = none then none
      else some (s.setCtx ctx { cx with queues := cx.queues.set queue { q with aged := true } })
def execQueueAging (ctx queue : Nat) (s : State) : Out := comes s (tryQueueAging ctx queue s)

/-! ## The checks of a record (16 R373, R374) -/

/-- The checks of every record. -/
def recordOk (k : Kernel) : Bool :=
  recField k 0 17 15 == 0 && recField k 0 52 12 == 0 && k.order != 3 && decide (k.levels ≤ 4) &&
    (List.range 4).all (fun j => if j < k.levels then k.step j != 0 else k.bound j == 0) &&
    (List.range 4).all (fun w => recField k (0x40 + 16 * w) 16 48 == 0) && recField k 0xFC 0 32 == 0 &&
    decide (k.queue < 4096)

/-- Cores that a package could ever offer a group of `h`, quad by quad (17 R384). -/
def groupsPresent (s : State) (h : Nat) : Nat :=
  ((List.range (16 * s.variant.towers)).map fun q =>
    ((List.range' (4 * q) 4).filter fun c => !(s.core c).lost).length / h).foldl (· + ·) 0

/-- The checks of a hart kernel. -/
def hartRecordOk (s : State) (k : Kernel) : Bool :=
  recField k 0x80 0 960 == 0 && decide (1 ≤ k.gsize) && decide (k.gsize ≤ 32) && decide (recField k 0 14 3 ≤ 4) &&
    decide (k.spad ≤ 524288) && decide (k.hosting ≤ 4) && decide (k.tiles < 2 ^ 32) &&
    (!k.coside || decide (k.tiles ≤ groupsPresent s k.hosting))

/-- A held range of a bank kernel stays in the row-linear map. -/
def heldOk (s : State) (k : Kernel) (r : Nat) : Bool :=
  let o := 0xB8 + 8 * r
  let t := recField k o 0 3
  let first := recField k o 12 12
  let n := recField k o 24 12
  recField k o 0 64 == 0 ||
    (recField k o 52 12 == 0 && decide (1 ≤ n) && decide ((s.tower t).floor ≤ first) && decide (first + n ≤ 3072) &&
      (List.range 16).all fun b => !(recField k o 36 16).testBit b || bankLive s (1024 * t + 16 * recField k o 3 6 + b))

/-- The checks of a bank kernel but for its code. -/
def bankRecordOk (s : State) (k : Kernel) : Bool :=
  let ns := recField k 0x80 0 3
  k.levels == 0 && k.gsize == 0 && recField k 0 14 3 == 0 && k.spad == 0 && k.entry == 0 && k.seqEntry == 0 &&
    recField k 0xF8 0 32 == 0 && decide (1 ≤ ns) && decide (ns ≤ 4) && decide (k.bufN ≤ 64) &&
    decide (1 ≤ k.codeLen) && recField k 0x80 25 39 == 0 && recField k 0x88 0 3 == 0 &&
    recField k 0x90 32 32 == 0 && decide (recField k 0x90 0 9 < k.codeLen) && decide (recField k 0x90 16 9 < k.codeLen) &&
    (List.range ns).all (fun i => recField k (0x98 + 8 * i) 32 32 == 0 && recField k (0x98 + 8 * i) 9 7 == 0) &&
    k.streamDecls.all (fun d => decide (d.1 < s.variant.towers)) &&
    k.declared.all (bankLive s) && k.declared.eraseDups.length == k.declared.length && (List.range 8).all (heldOk s k)

/-- Copy the code words of a bank kernel (18 R473), for the admission that reads them: the words and the physical
addresses of counted lines, or why not. -/
def copyCode (s : State) (who c : Nat) (prv : Bool) (va : Word) : Nat → Except XStop (List (BitVec 64) × List Nat)
  | 0 => .ok ([], [])
  | n + 1 =>
    match engAddr s who c 0 prv va .load with
    | .error e => .error e
    | .ok (.plain pa cnt) =>
      if (List.range 8).any fun i => engBad s who (pa + i) then .error (.fault cUncorrectable va)
      else
        match copyCode s who c prv (va + 8) n with
        | .error e => .error e
        | .ok (ws, ps) =>
          .ok (BitVec.ofNat 64 (ofBytes ((List.range 8).map fun i => engByte s who (pa + i))) :: ws, if cnt then pa :: ps else ps)
    | .ok _ => .error (.fault cAccess va)

/-! ## Admission (15 R365, R366; 16 R374, R377) -/

/-- The dependence waits in use: index, handle and number. -/
def Kernel.waits (k : Kernel) : List (Nat × Nat × Nat) :=
  ((List.range 4).map fun w => (w, recField k (0x40 + 16 * w) 0 16, recField k (0x48 + 16 * w) 0 64)).filter fun p => p.2.2 != 0

/-- The bindings that the waits on kind-3 handles keep from when they issue, at the record's first look (11 R307). -/
def Kernel.issueWaits (k : Kernel) (s : State) (m : NatMap (Option (Nat × Nat))) : NatMap (Option (Nat × Nat)) :=
  k.waits.foldl (fun m w =>
    if w.2.1 / 4096 = 3 ∧ (m.get? w.1).isNone = true then m.set w.1 (waitBinding s k.ctx w.2.1) else m) m

/-- What a wait sees (15 R366); none where TLWAIT refuses its handle. -/
def Kernel.waitSees (k : Kernel) (s : State) (m : NatMap (Option (Nat × Nat))) (w : Nat × Nat × Nat) : Option TlView :=
  (tlView s k.ctx none w.2.1).map fun v =>
    match m.get? w.1 with
    | some (some b) => bindingView s b
    | some none => ⟨2 ^ 64 - 1, []⟩
    | none => v

/-- The waits that name a handle TLWAIT refuses. -/
def Kernel.badWait (k : Kernel) (s : State) : Bool := k.waits.any fun w => (tlView s k.ctx none w.2.1).isNone

/-- A wait that has faulted. -/
def Kernel.faultedWait (k : Kernel) (s : State) (m : NatMap (Option (Nat × Nat))) : Option (Nat × Nat) :=
  (k.waits.find? fun w => match k.waitSees s m w with | some v => v.faulted.any (· ≤ w.2.2) | none => false).map (·.2)

/-- A wait still unmet. -/
def Kernel.unmet (k : Kernel) (s : State) (m : NatMap (Option (Nat × Nat))) : Bool :=
  k.waits.any fun w => match k.waitSees s m w with | some v => decide (v.mark < w.2.2) | none => false

/-- The record at RD leaves the ring with the next kernel number, and becomes a kernel; `admitted` says whether it
counts in ADMITTED (15 R363, R365). -/
def takeRecord (s : State) (c qn : Nat) (admitted : Bool) (k : Kernel) : State × Nat :=
  match s.ctxs.get? c with
  | none => (s, 0)
  | some cx =>
    let q := cx.queues.getD qn {}
    let rd := (q.rd + 1) % q.size
    let adm := if admitted then q.admitted + 1 else q.admitted
    let q' := { q with rd := rd, base := q.base + 1, admitted := adm, levels := q.levels.erase q.rd, waits := [],
                       line := { q.line with last := max q.line.last (q.base + 1) } }
    let s := s.setCtx c { cx with queues := cx.queues.set qn q' }
    let s := physWrite s (q.desc + 0x20) 4 rd
    let s := physWrite s (q.desc + 0x28) 8 adm.toNat
    let kid := s.fresh
    ({ s.setKernel kid k with fresh := kid + 1 }, kid)

/-- A kernel is COMPLETE (16 R377): its watermark may pass its number. -/
def completeKernel (s : State) (kid : Nat) (k : Kernel) : State :=
  let s := (releaseBuf s kid).setKernel kid { k with state := .complete }
  settleCtx (modQueueLine s k.ctx k.queue fun l => l.endNum k.num) k.ctx

/-- The record at RD of a queue as a kernel: nothing where its slot cannot be read (15 R365). -/
def headKernel (s : State) (c qn : Nat) (q : Queue) : Kernel × Bool :=
  let pa := q.ring + 256 * q.rd
  let ok := ((List.range 4).all fun i => physHome s (pa + 64 * i) != .none) && !uncorrectable s pa 256
  ({ ctx := c, queue := qn, num := q.base + 1, prv := q.levels.getD q.rd false,
     record := if ok then BitVec.ofNat 2048 (physRead s pa 256) else 0 }, ok)

/-- A bank kernel is admitted once its code has been copied (16 R374, R377): its streams are bound at once where there
is room, else by TILE_PLACEMENT (log 33). -/
def admitBank (s : State) (c qn : Nat) (k : Kernel) (fail : State → State) : Option State :=
  let who := codeWho c qn
  match copyCode s who c k.prv (BitVec.ofNat 64 (recField k 0x88 0 64)) k.codeLen with
  | .error (.ask a op) => if (s.askPod who a op).pod = s.pod then none else some (s.askPod who a op)
  | .error _ => some (fail s)
  | .ok (code, pas) =>
    let k := { k with code := code }
    let r := takeRecord (countLines (s.leaveAsks who) pas) c qn true k
    match bankRoom r.1 k with
    | none => some r.1
    | some (seqs, buf) => some (bindStreams r.1 r.2 k seqs buf)

/-- What admission makes of the record at RD (15 R365, R366): none where it waits, as a bank kernel does while a remap
step runs on a tower that it names (18 R404). -/
def admitRecord (s : State) (c qn : Nat) (q : Queue) : Option State :=
  let (k, readable) := headKernel s c qn q
  let fail (s : State) : State :=
    let r := takeRecord (s.leaveAsks (codeWho c qn)) c qn false k
    kernelFault r.1 r.2 0 0 0
  if !readable then some (fail s)
  else
    match k.faultedWait s q.waits with
    | some (h, n) =>
      let r := takeRecord (s.leaveAsks (codeWho c qn)) c qn true k
      let s := faultRecord r.1 c (record4 (9 + c * 2 ^ 16 + qn % 2 ^ 16 * 2 ^ 32 + k.handle * 2 ^ 48) h n 0)
      some (kernelFault s r.2 1 0 0)
    | none =>
      if k.unmet s q.waits then none
      else if k.badWait s ∨ recordOk k = false then some (fail s)
      else if k.isBank then
        if remapHolds s k then none
        else if bankRecordOk s k then admitBank s c qn k fail else some (fail s)
      else if hartRecordOk s k = false then some (fail s)
      else
        let r := takeRecord s c qn true k
        some (if k.tiles = 0 then completeKernel r.1 r.2 k else r.1)

/-- The queue as its admission finds it: WR read again where the ring of a host-fed queue is empty (15 R363), and the
waits of the record at RD issued (R366). -/
def lookAgain (s : State) (c qn : Nat) (q : Queue) : Queue :=
  let q := if q.rd = q.wr ∧ q.feed = false then { q with wr := physRead s (q.desc + 0x24) 4 % q.size } else q
  if q.rd = q.wr then q
  else { q with waits := (headKernel s c qn q).1.issueWaits s q.waits }

/-- KERNEL_ADMISSION (15 R365): the record at RD is admitted, or what the look at it has read is kept. -/
def tryKernelAdmission (ctx queue : Nat) (s : State) : Option State :=
  match s.ctxs.get? ctx with
  | none => none
  | some cx => match cx.queues.get? queue with
    | none => none
    | some q =>
      let q' := lookAgain s ctx queue q
      if q.state ≠ .active ∨ schedulerPaused s = true ∨ q'.rd = q'.wr then none
      else
        let s := s.setCtx ctx { cx with queues := cx.queues.set queue q' }
        let s := if q.turn ≠ 0 ∧ nextTile s ctx queue = none then passTurn s (ctx, queue) else s
        match admitRecord s ctx queue q' with
        | some s' => some s'
        | none => if q'.wr = q.wr ∧ q'.waits = q.waits then none else some s
def execKernelAdmission (ctx queue : Nat) (s : State) : Out := comes s (tryKernelAdmission ctx queue s)

/-! ## The ends of kernels (16 R377, R378) -/

/-- Every member of a running kernel has ended well. -/
def kernelDone (s : State) (kid : Nat) (k : Kernel) : Bool :=
  if k.isBank then decide (0 < k.next) && k.streams.all fun i => (s.stream i).kernel != kid || !(s.stream i).isLive
  else decide (k.tiles ≤ k.finished)

/-- KERNEL_COMPLETE: COMPLETING and COMPLETE at once, since every access performs at its step (log 1). -/
def tryKernelComplete (kernel : Nat) (s : State) : Option State :=
  match s.kernels.get? kernel with
  | some k => if k.state = .running ∧ kernelDone s kernel k = true then some (completeKernel s kernel k)
    else none
  | none => none
def execKernelComplete (kernel : Nat) (s : State) : Out := comes s (tryKernelComplete kernel s)

/-- The runtime has consumed the KIND 10 record of a kernel: FQRD has passed it. -/
def consumed (s : State) (k : Kernel) : Bool :=
  match k.recordAt, s.ctxs.get? k.ctx with
  | some n, some cx =>
    let rd := physRead s (cx.desc + 0x30) 4
    let wr := physRead s (cx.desc + 0x34) 4
    decide (n + (wr + 2 * cx.fqsize - rd % cx.fqsize) % cx.fqsize ≤ cx.fqTotal)
  | _, _ => false

/-- KERNEL_SKIPPED. -/
def tryKernelSkipped (kernel : Nat) (s : State) : Option State :=
  match s.kernels.get? kernel with
  | some k =>
    if k.state = .faulted ∧ consumed s k = true then
      some (modQueueLine (s.setKernel kernel { k with state := .skipped }) k.ctx k.queue fun l => l.endNum k.num)
    else none
  | none => none
def execKernelSkipped (kernel : Nat) (s : State) : Out := comes s (tryKernelSkipped kernel s)

/-- The KIND 11 record of a core that leaves service (16 R378). -/
def kind11 (k : Kernel) (tile core : Nat) : List Byte :=
  record4 (11 + k.ctx * 2 ^ 16 + k.handle * 2 ^ 32) k.num (tile + core * 2 ^ 32) 0

/-- TILE_HARDWARE_FAULT (16 R378): the group's members are RETIRED, and the tile is placed again, at most twice,
where its kernel is replayable. A core that leaves service may host no group. -/
def tryTileHardwareFault (group core : Nat) (coreLost : Bool) (s : State) : Option State :=
  let lose (s : State) : State := if coreLost then s.setCore core { s.core core with lost := true } else s
  match s.groups.get? group with
  | none => if coreLost = true ∧ core < 64 * s.variant.towers ∧ coreFree s core = true then some (lose s)
    else none
  | some g => match s.kernels.get? g.kernel with
    | none => none
    | some k =>
      if g.state = .ended ∨ !(g.cores.contains core || g.placing.any fun p => p.2 == core) then none
      else
        let s := lose s
        let s := if coreLost then faultRecord s k.ctx (kind11 k g.tile core) else s
        if k.replay = true ∧ g.replays < 2 then
          some (settleCtx ((endGroup s group).setGroup group
            { kernel := g.kernel, tile := g.tile, replays := g.replays + 1, avoid := [core] }) k.ctx)
        else some (kernelFault s g.kernel 3 g.tile core)
def execTileHardwareFault (group core : Nat) (coreLost : Bool) (s : State) : Out := comes s (tryTileHardwareFault group core coreLost s)

/-! ## Pre-emption requests (14 R348, R352; 15 R370; 17 R390) -/

/-- The tiles that wait for room, with their effective priority, hosting cores and quantity: new tiles, and
PARKED groups. -/
def roomWanted (s : State) : List (Want × Nat × Nat × Nat) :=
  (s.rotation.filterMap fun p => match s.ctxs.get? p.1 with
    | none => none
    | some cx =>
      if placeable cx (cx.queues.getD p.2 {}) && (tileFits s p.1 p.2).isNone then
        match nextTile s p.1 p.2 with
        | none => none
        | some t => match s.kernels.get? t.kid with
          | some k => if k.isBank then none else some (t.want k, effPrio s p.1 p.2, k.hosting, t.count k)
          | none => none
      else none) ++
  (s.groups.filterMap fun p => match p.2.state, s.kernels.get? p.2.kernel with
    | .parked, some k =>
      let w : Want := ⟨k.ctx, k.queue, k.num, p.2.tile⟩
      (match s.ctxs.get? k.ctx with
       | some cx => if placeable cx (cx.queues.getD k.queue {}) && groupsFit s w k.hosting [] == 0 then
           some (w, effPrio s k.ctx k.queue, k.hosting, 1) else none
       | none => none)
    | _, _ => none)

/-- A group's quad. -/
def Group.quad (g : Group) : Nat := g.cores.headD 0 / 4

def groupPrio (s : State) (g : Group) : Nat :=
  match s.kernels.get? g.kernel with
  | some k => effPrio s k.ctx k.queue
  | none => 0

/-- Cores of a quad that work will have once the victims already asked have parked. -/
def comingCores (s : State) (w : Want) (quad : Nat) : Nat :=
  ((List.range' (4 * quad) 4).filter fun c => coreOpen s w c ||
    s.groups.any fun p => p.2.state == .parking && p.2.forWork == some w && p.2.cores.contains c).length

/-- The park region has room for the records of a group and of those that park with it (14 R352). -/
def reserveParking (s : State) (gid : Nat) : Option State :=
  (parkedWith s gid).foldl (fun (r : Option State) g => r.bind fun s => reserveGroup s g) (some s)

/-- The work, if any, for which a group is the victim to ask next (15 R370): of strictly lower effective priority,
the lowest of its quad that has park room, then the most recently bound. -/
def victimOf (s : State) (gid : Nat) (g : Group) : Option Want :=
  let p := groupPrio s g
  let first := s.groups.all fun x => x.1 == gid || x.2.state != .running || x.2.quad != g.quad ||
    decide (p < groupPrio s x.2) || (groupPrio s x.2 == p && decide (x.2.boundAt < g.boundAt)) ||
    (reserveParking s x.1).isNone
  if first then
    ((roomWanted s).find? fun w => decide (p < w.2.1) &&
      (decide (1 < w.2.2.2) || decide (comingCores s w.1 g.quad < w.2.2.1))).map (·.1)
  else none

/-- The bank kernels that wait for room, to be bound or to be resumed, with their effective priority. -/
def banksWanted (s : State) : List (Want × Nat × Kernel) :=
  (s.rotation.filterMap fun p => match s.ctxs.get? p.1 with
    | none => none
    | some cx =>
      let q := cx.queues.getD p.2 {}
      match if placeable cx q then nextTile s p.1 p.2 else none with
      | none => none
      | some t => match s.kernels.get? t.kid with
        | some k => if k.isBank && (bankRoom s k).isNone then some (t.want k, q.eff, k) else none
        | none => none) ++
  (s.kernels.filterMap fun p => match s.ctxs.get? p.2.ctx with
    | none => none
    | some cx =>
      let q := cx.queues.getD p.2.queue {}
      if p.2.state == .running && p.2.isBank && placeable cx q &&
          (p.2.streams.any fun j => (s.stream j).kernel == p.1 && (s.stream j).state == .parked) &&
          (p.2.streams.all fun j => !(s.stream j).preempt) && !streamsReady s p.2 then
        some (⟨p.2.ctx, p.2.queue, p.2.num, 0⟩, q.eff, p.2)
      else none)

/-- A bank kernel with banks bound in a tower. -/
def Kernel.holds (k : Kernel) (s : State) (kid t : Nat) : Bool :=
  k.state == .running && k.isBank && k.streams.any fun i =>
    (s.stream i).isLive && (s.stream i).kernel == kid && (s.stream i).state != .parked && i / 256 == t

/-- The work for which a bank kernel is the victim to ask next (15 R370), on the tower concerned. -/
def bankVictimOf (s : State) (kid : Nat) (k : Kernel) : Option Want :=
  let p := effPrio s k.ctx k.queue
  ((banksWanted s).find? fun w => decide (p < w.2.1) && w.2.2.streamDecls.any fun d =>
    k.holds s kid d.1 &&
      !(s.kernels.any fun x => x.2.forWork == some w.1 && x.2.streams.any fun i => (s.stream i).preempt) &&
      s.kernels.all fun x => x.1 == kid || !x.2.holds s x.1 d.1 ||
        decide (p < effPrio s x.2.ctx x.2.queue) ||
        (effPrio s x.2.ctx x.2.queue == p && decide (x.2.boundAt < k.boundAt)) ||
        (reserveStreams x.2.ctx x.2.streams s).isNone).map (·.1)

/-- Ask a group and those that park with it, once the park region has room for all (14 R352). -/
def askGroups (s : State) (gid : Nat) (w : Option Want) (mig : Bool) : Option State :=
  match reserveParking s gid with
  | some s' => some ((parkedWith s gid).foldl (requestGroup w mig) s')
  | none => none

/-- Whether a context is FAULTED: its members keep running to their next park point and then park (14 R347). -/
def ctxFaulted (s : State) (c : Nat) : Bool :=
  match s.ctxs.get? c with | some cx => cx.state == .faulted | none => false

/-- PREEMPTION_REQUEST, for a group or a bank kernel (14 R348): work of higher priority needs the place, the
group migrates off a hot column, or its context is FAULTED. -/
def tryPreemptionRequest (group : Nat) (s : State) : Option State :=
  match s.groups.get? group, s.kernels.get? group with
  | some g, _ => match s.kernels.get? g.kernel with
    | none => none
    | some k =>
      if g.state ≠ .running then none
      else if ctxFaulted s k.ctx = true then askGroups s group none false
      else if g.cores.any (hotCore s) then askGroups s group none true
      else match victimOf s group g with
        | some w => askGroups s group (some w) false
        | none => none
  | none, some k =>
    let ask (w : Option Want) : Option State := match reserveStreams k.ctx k.streams s with
      | some s' => some (requestStreams w s' group)
      | none => none
    if k.isBank = false ∨ k.state ≠ .running ∨ (k.streams.any fun i => (s.stream i).preempt) = true ∨
        (k.streams.any fun i => (s.stream i).isLive && (s.stream i).kernel == group && (s.stream i).state != .parked) = false then
      none
    else if ctxFaulted s k.ctx = true then ask none
    else match bankVictimOf s group k with
      | some w => ask (some w)
      | none => none
  | none, none => none
def execPreemptionRequest (group : Nat) (s : State) : Out := comes s (tryPreemptionRequest group s)

/-! ## Going on (04 R100; 06 R168; 12 R311 to R314) -/

/-- HART_UNSTALL: STALLED to READY. Whether its event has come is what its turn tests (`wouldGo`, Turn.lean): the
instruction would go on. -/
def tryHartUnstall (hart : Nat) (s : State) : Option State :=
  if (s.hart hart).life = .stalled then some (s.setLife hart .ready) else none
def execHartUnstall (hart : Nat) (s : State) : Out := comes s (tryHartUnstall hart s)

/-- The waiting instruction at a place, again. -/
def rewait (s : State) (k : Nat) : Option (Option State) :=
  let t := { s with cur := some (.hart k) }
  match (s.hart k).latched with
  | some (.tlwait a b sc) => some (nextOf (execTlwait a b sc t))
  | some (.bwait a sc) => some (nextOf (execBwait a sc t))
  | some (.gsync id sc) => some (nextOf (execGsync id sc t))
  | some (.waite d a) => some (nextOf (execWaite d a t))
  | _ => none

/-- The address of the object on which a waiting BWAIT waits (09 R241). -/
def Hart.waitVa (h : Hart) : Word :=
  match h.latched with | some (.bwait a _) => tokenVa (h.rd a) | _ => 0

def Hart.pollsBarrier (h : Hart) : Bool := match h.latched with | some (.bwait _ _) => h.waitObj.isSome | _ => false

/-- A waiting BWAIT is woken by a completion, BINIT or BINVAL of its object, and by nothing else (09 R246). An object at
a peer is looked at again and again. -/
def pollBarrier (s : State) (k : Nat) (h : Hart) : Option (Option State) :=
  let pa := h.waitObj.getD 0
  let s' := { s with cur := some (.hart k) }
  let changed : Bool := match h.latched with
    | some (.bwait a _) => let o := barRead s' pa; o.staleFor (h.rd a) || o.doneFor (h.rd a)
    | _ => false
  if pa < 2 ^ 50 then (if changed then rewait s k else some none)
  else match s.podReply (4 * k) pa with
    | some (.line _) => if changed then rewait s k else some (some (podDone s (4 * k) pa))
    | some _ => some (some (podDone s (4 * k) pa))
    | none => if podReach s pa then some (some (s.askPod (4 * k) pa (.read 32) (h.waitVa) 3)) else some none

/-- A waiting instruction that PREEMPT comes before (04 R114, R117): any but GSYNC, whose phase may end first (17
R391). -/
def Hart.preemptible (h : Hart) : Bool :=
  match h.latched with | none => false | some (.gsync _ _) => false | some _ => true

/-- HART_WAKE (04 R100): the waiting instruction completes, or traps. A hart that waited for a peer's answer, and
a sequencer that waited for the array, issue their instruction again. -/
def tryHartWake (hart : Nat) (s : State) : Option State :=
  let h := s.hart hart
  if h.life ≠ .waiting ∨ (h.preemptible = true ∧ s.preemptFirst hart h = true) then none
  else
    match if h.pollsBarrier then pollBarrier s hart h else rewait s hart with
    | some (some t) =>
      if (t.hart hart).life = .waiting ∧ t.pod = s.pod then none else some { t with cur := s.cur }
    | some r => r
    | none =>
      if (isSeqPlace hart && (s.core (hart / 9)).job.isNone) || s.pod.any (fun p => p.by_ == 4 * hart && p.answer.isSome) then
        some (s.setLife hart .ready)
      else none
def execHartWake (hart : Nat) (s : State) : Out := comes s (tryHartWake hart s)

/-- MATRIX_WORD_COMPLETE (12 R311, R312): the accumulator takes its value, a FIN word counts, and a word that
waited for the array may issue. -/
def tryMatrixWordComplete (core : Nat) (s : State) : Option State :=
  let c := s.core core
  match c.job with
  | none => none
  | some j =>
    let c := match j.acc with
      | some (n, v) => c.putAcc n v
      | none => c
    let s := s.setCore core { c with job := none }
    let s := s.modHart (9 * core + 8) fun h =>
      { h with finMark := if j.fin then h.finMark + 1 else h.finMark,
               life := if h.life = .waiting ∧ h.latched = none then .ready else h.life }
    some (match s.hostedGroup core with
      | some g => settleGroup s g
      | none => s)
def execMatrixWordComplete (core : Nat) (s : State) : Out := comes s (tryMatrixWordComplete core s)

/-- ACC_HANDOFF (12 R314): the oldest waiting member of an accumulator's order proceeds. -/
def tryAccHandoff (core acc : Nat) (s : State) : Option State :=
  let c := s.core core
  match (c.queue acc).head? with
  | some k =>
    if acc < 4 ∧ c.accBusy acc = false ∧ (s.hart k).life = .stalled then some (s.setLife k .ready)
    else none
  | none => none
def execAccHandoff (core acc : Nat) (s : State) : Out := comes s (tryAccHandoff core acc s)

/-- GATHER_DELIVERED (06 R168, R169). -/
def tryGatherDelivered (hart vd : Nat) (s : State) : Option State :=
  let h := s.hart hart
  match h.gathers.find? fun g => g.vd == vd with
  | some g =>
    some (s.setHart hart { h.deliver g with gathers := h.gathers.filter fun g => g.vd != vd })
  | none => none
def execGatherDelivered (hart vd : Nat) (s : State) : Out := comes s (tryGatherDelivered hart vd s)

end Sys2Proof.Machine
end

