-- ==== Sys2Proof/Machine/Host.lean ====
section
/-! DEFINITION. What the host does (15 R362 to R364, R471; 18 R400 to R405; 19 R406 to R409): commands, registers,
BAR2, and the remap step. -/
namespace Sys2Proof.Machine

/-! ## HQCMD (15 R362, R471) -/

/-- A command ends: HQCMD holds it with its ERR bit, and vector 0 is raised. -/
def finishCmd (cmd : Nat) (addr : BitVec 58) (r : Option State) (s : State) : Out :=
  let t := r.getD s
  .next (raiseVector { t with host := { t.host with
    hqcmd := BitVec.ofNat 64 (cmd + bit r.isNone 3 + addr.toNat * 2 ^ 6) } } 0)

/-- The descriptor that a command names. -/
def cmdAddr (addr : BitVec 58) : Nat := addr.toNat * 64

/-- The context, not DESTROYED, with a descriptor. -/
def ctxAt (s : State) (pa : Nat) : Option (Nat × Context) := s.ctxs.find? fun p => p.2.desc == pa && p.2.state != .destroyed

/-- The ACTIVE or HALTED queue with a descriptor. -/
def queueAt (s : State) (pa : Nat) : Option (Nat × Nat × Queue) :=
  s.ctxs.findSome? fun p => if p.2.state = .destroyed then none else
    (p.2.queues.find? fun q => q.2.desc == pa && q.2.state != .disabled).map fun q => (p.1, q.1, q.2)

/-- The RW fields of a context descriptor (14 R346), over a context. -/
def readDescriptor (s : State) (pa : Nat) (cx : Context) : Context :=
  { cx with ptroot := physRead s (pa + 0x08) 8, parkbase := physRead s (pa + 0x10) 8,
            parksize := physRead s (pa + 0x18) 8, parkva := BitVec.ofNat 64 (physRead s (pa + 0x20) 8),
            fqsize := physRead s (pa + 0x28) 4, resume := BitVec.ofNat 64 (physRead s (pa + 0x38) 8),
            stvec := BitVec.ofNat 64 (physRead s (pa + 0x40) 8 / 4 * 4) }

/-- FQSIZE is a power of two from 8 to 2^20. -/
def fqSizeOk (n : Nat) : Bool := (List.range 18).any fun i => n == 2 ^ (i + 3)

/-- The reserved fields of a context descriptor are zero. -/
def descriptorOk (s : State) (pa : Nat) : Bool :=
  physRead s pa 8 / 2 ^ 19 == 0 && physRead s (pa + 0x40) 1 % 4 == 0 && physRead s (pa + 0x48) 0x38 == 0

/-- CREATE_CONTEXT. -/
def execCreateContext (addr : BitVec 58) (s : State) : Out :=
  let pa := cmdAddr addr
  let n := physRead s pa 2
  let cx := readDescriptor s pa { desc := pa }
  let taken := match s.ctxs.get? n with | some c => c.state != .destroyed | none => false
  finishCmd 0 addr (if taken = true ∨ descriptorOk s pa = false ∨ cx.ptroot % 2 ^ 18 ≠ 0 ∨ cx.parkbase % 2 ^ 20 ≠ 0 ∨
      cx.parksize = 0 ∨ cx.parksize % 2 ^ 20 ≠ 0 ∨ fqSizeOk cx.fqsize = false then none
    else
      let s := setCtxState (s.setCtx n cx) n .created
      some (physWrite (physWrite s (pa + 0x2C) 4 0) (pa + 0x34) 4 0)) s

/-- The checks of an enable (15 R364). -/
def enableOk (cx : Context) (old : Option Queue) (size weight ring : Nat) : Bool :=
  (cx.state == .created || cx.state == .runnable || cx.state == .resident) &&
    (match old with | some q => q.state == .disabled | none => true) &&
    (List.range 16).any (fun i => size == 2 ^ (i + 1)) && weight != 0 && ring % 4096 == 0

/-- ENABLE_QUEUE (15 R364): kernel numbers and the watermark continue. -/
def execEnableQueue (addr : BitVec 58) (s : State) : Out :=
  let pa := cmdAddr addr
  let w0 := physRead s pa 8
  let w2 := physRead s (pa + 0x10) 8
  let qn := bitsAt w0 0 16
  let c := bitsAt w0 16 16
  let ring := physRead s (pa + 8) 8
  finishCmd 1 addr (match s.ctxs.get? c with
    | none => none
    | some cx =>
      let old := cx.queues.get? qn
      if enableOk cx old (bitsAt w2 0 32) (bitsAt w2 32 16) ring = false then none
      else
        let o := old.getD {}
        let q : Queue := { desc := pa, prio := bitsAt w0 32 3, feed := bitsAt w0 35 1 == 1, ring := ring,
                           size := bitsAt w2 0 32, weight := bitsAt w2 32 16, starve := physRead s (pa + 0x18) 4,
                           base := o.base, line := o.line }
        let s := s.setCtx c { cx with queues := cx.queues.set qn q }
        let s := setQueueState s c qn .active
        let s := physWrite (physWrite s (pa + 0x20) 8 0) (pa + 0x28) 8 0
        let s := { s with rotation := s.rotation.filter (· != (c, qn)) ++ [(c, qn)] }
        some (if cx.state = .created then setCtxState s c .runnable else s)) s

/-- Every number from one to another is SKIPPED (16 R377). -/
def Timeline.skipTo (l : Timeline) (a n : Nat) : Timeline :=
  (List.range n).foldl (fun l i => l.endNum (a + 1 + i)) { l with last := max l.last (a + n) }

/-- DISABLE_QUEUE (15 R364): the records still in the ring are discarded, their numbers SKIPPED. -/
def execDisableQueue (addr : BitVec 58) (s : State) : Out :=
  finishCmd 2 addr ((queueAt s (cmdAddr addr)).map fun (c, qn, q) =>
    let s := setQueueState s c qn .disabled
    match s.ctxs.get? c with
    | none => s
    | some cx =>
      let s := s.leaveAsks (codeWho c qn)
      let q' := { q with state := .disabled, rd := q.wr, base := q.base + q.held, levels := [], waits := [],
                         line := q.line.skipTo q.base q.held }
      s.setCtx c { cx with queues := cx.queues.set qn q' }) s

/-- Members of a PARKED group that had begun to bind again are PARKED still. -/
def unbindGroup (s : State) (gid : Nat) : State :=
  match s.groups.get? gid with
  | none => s
  | some g =>
    if g.state ≠ .binding then s
    else
      let s := g.members.foldl (fun s p => match p.2.at_ with
        | .place k => renameOps ((s.leavePods k).setHart k {}) k (parkKey gid p.1)
        | _ => s) s
      s.setGroup gid { g with state := .parked, placing := [], members := g.members.map fun (i, m) =>
        (i, (match m.at_ with | .place _ => { m with at_ := .parked } | _ => m)) }

/-- The groups, and the bank kernels, of a context. -/
def ctxGroups (s : State) (c : Nat) : List Nat :=
  (s.groups.filter fun p => match s.kernels.get? p.2.kernel with | some k => k.ctx == c | none => false).map (·.1)
def ctxKernels (s : State) (c : Nat) : List Nat := (s.kernels.filter fun p => p.2.ctx == c).map (·.1)

def groupIn (s : State) (gid : Nat) (st : GroupState) : Bool :=
  match s.groups.get? gid with | some g => g.state == st | none => false

/-- Room for the records of every bound member of a context (14 R347, R352). -/
def reserveCtx (s : State) (c : Nat) : Option State :=
  let gs := (ctxGroups s c).filter fun g => groupIn s g .running || groupIn s g .parking
  (gs.foldl (fun (r : Option State) g => r.bind fun s => reserveGroup s g) (some s)).bind fun s =>
    (ctxKernels s c).foldl (fun (r : Option State) k => r.bind fun s =>
      match s.kernels.get? k with
      | some x => if x.state = .running then reserveStreams c x.streams s else some s
      | none => some s) (some s)

/-- SUSPEND_CONTEXT (14 R347): room is reserved before any request is sent, and every member parks. -/
def execSuspendContext (addr : BitVec 58) (s : State) : Out :=
  finishCmd 3 addr (match ctxAt s (cmdAddr addr) with
    | none => none
    | some (c, cx) =>
      if cx.state ≠ .runnable ∧ cx.state ≠ .resident then none
      else
        (reserveCtx ((ctxGroups s c).foldl unbindGroup s) c).map fun s =>
          let s := ((ctxGroups s c).filter fun g => groupIn s g .running).foldl (requestGroup none false) s
          let s := ((ctxKernels s c).filter fun k => match s.kernels.get? k with
            | some x => x.isBank && x.state == .running | none => false).foldl (fun s k => requestStreams none s k) s
          setCtxState s c .suspended) s

/-- RESUME_CONTEXT (14 R347): the RW fields are read again (R346). -/
def execResumeContext (addr : BitVec 58) (s : State) : Out :=
  finishCmd 4 addr (match ctxAt s (cmdAddr addr) with
    | none => none
    | some (c, cx) =>
      if cx.state ≠ .suspended then none
      else some (setCtxState (s.setCtx c (readDescriptor s cx.desc cx)) c .runnable)) s

/-- CLEAR_CONTEXT_FAULT (14 R347): RESIDENT while a member is still bound. -/
def execClearContextFault (addr : BitVec 58) (s : State) : Out :=
  finishCmd 5 addr (match ctxAt s (cmdAddr addr) with
    | none => none
    | some (c, cx) => if cx.state ≠ .faulted then none else some (settleCtx (setCtxState s c .resident) c)) s

/-- A context's members leave: its groups end, its streams stop with no record at their next row
boundary (14 R347), its kernels are forgotten. -/
def dropMembers (s : State) (c : Nat) : State :=
  let s := (ctxGroups s c).foldl endGroup s
  let ks := ctxKernels s c
  let s := ks.foldl (fun s kid => match s.kernels.get? kid with
    | some k => k.streams.foldl (fun s i =>
        if (s.stream i).isLive ∧ (s.stream i).kernel = kid then haltStream s i else s) (releaseBuf s kid)
    | none => s) s
  { s with kernels := s.kernels.filter (fun p => !ks.contains p.1),
           groups := s.groups.filter fun p => !ks.contains p.2.kernel }

/-- The context of an agent that asks peers (log 59); an orphan's is not known. -/
def askerCtx (s : State) (who : Nat) : Option Nat :=
  if who = orphan then none
  else match who % 4 with
    | 0 => some (s.ctxOf (s.hart (who / 4)))
    | 3 => some (who / 4 / 2 ^ 16)
    | _ => some (who / 4 / 2 ^ 64 / 64)

/-- What a context's agents have asked peers is left. -/
def leaveCtxAsks (s : State) (c : Nat) : State :=
  ((s.pod.filter fun p => askerCtx s p.by_ == some c).map (·.by_)).foldl State.leaveAsks s

/-- DESTROY_CONTEXT (14 R347). -/
def execDestroyContext (addr : BitVec 58) (s : State) : Out :=
  finishCmd 6 addr ((ctxAt s (cmdAddr addr)).map fun (c, _) =>
    let s := setCtxState (dropLams (dropMembers (leaveCtxAsks s c) c) c) c .destroyed
    let s := { s with rotation := s.rotation.filter fun p => p.1 != c }
    match s.ctxs.get? c with
    | some cx => s.setCtx c { cx with xfer := [], lam := [], park := [] }
    | none => s) s

/-- RING_NOTIFY (15 R363). -/
def execRingNotify (addr : BitVec 58) (s : State) : Out :=
  finishCmd 7 addr (match queueAt s (cmdAddr addr) with
    | none => none
    | some (c, qn, q) =>
      if q.feed then none
      else match s.ctxs.get? c with
        | none => none
        | some cx =>
          let q' := { q with wr := physRead s (q.desc + 0x24) 4 % q.size }
          some (s.setCtx c { cx with queues := cx.queues.set qn q' })) s

/-! ## TLBINV (18 R399, R400) -/

/-- The translations that a context's operations keep are dropped: an operation that has not used one translates
again. Output pages of laminations are dropped whole, as R399 lets any entry be. Those of weights that are still to be
read stand in the key of a batch: DONE waits for it (DESIGN CHOICE, log 51). -/
def dropTranslations (cx : Context) (hit : Word → Bool) : Context :=
  let again (b : Option BarCapture) : Option BarCapture := b.map fun b => if hit b.va then { b with again := true } else b
  { cx with xfer := cx.xfer.map (fun (i, ch) => (i, { ch with ops := ch.ops.map fun o => { o with bar := again o.bar } })),
            lam := cx.lam.map fun (i, ch) => (i, { ch with ops := ch.ops.map fun o =>
              { o with bar := again o.bar, outs := [], dropped := o.dropped || (o.admitted && o.result.isEmpty) } }) }

/-- TLBINV is written: ignored while a command runs; ERR where CTX names no context. -/
def tlbinv (c : BitVec 16) (all : Bool) (s : State) : Out :=
  if s.host.tlbdone = false then .next s
  else
    match s.ctxs.get? c.toNat with
    | some cx =>
      if cx.state = .destroyed then
        .next (raiseVector { s with host := { s.host with tlbctx := c, tlball := all, tlberr := true } } 0)
      else
        let page (w : Word) : Nat := w.toNat / 2 ^ 16 % 2 ^ 41
        let hit (w : Word) : Bool := all || page w == page s.host.tlbva
        let mark (p : PodLine) : PodLine :=
          if p.answer.isNone && (askerCtx s p.by_).all (· == c.toNat) then { p with dropped := true } else p
        .next ({ s with
          host := { s.host with tlbctx := c, tlball := all, tlberr := false, tlbdone := false },
          pod := s.pod.map mark }.setCtx c.toNat (dropTranslations cx hit))
    | none => .next (raiseVector { s with host := { s.host with tlbctx := c, tlball := all, tlberr := true } } 0)

def execTlbinvVa (ctx : BitVec 16) (s : State) : Out := tlbinv ctx false s
def execTlbinvAll (ctx : BitVec 16) (s : State) : Out := tlbinv ctx true s

/-- An access by a translation that a TLBINV has dropped is still to be performed: a request to a peer, or a batch that
has to read its weights. Every other is performed at the step that translates it. -/
def droppedWaits (s : State) : Bool :=
  (s.pod.any fun p => p.dropped && p.answer.isNone) ||
    s.ctxs.any fun c => c.2.lam.any fun ch => ch.2.ops.any fun o => o.dropped

/-- TLBINV_DONE (18 R400). -/
def tryTlbinvDone (s : State) : Option State :=
  if s.host.tlbdone = true ∨ droppedWaits s = true then none
  else some (raiseVector { s with host := { s.host with tlbdone := true } } 0)
def execTlbinvDone (s : State) : Out := comes s (tryTlbinvDone s)

/-! ## Access counters (18 R402) -/

def execAcctrSelect (s : State) : Out :=
  .next { s with host := { s.host with acclear := false, account := s.counters.getD s.host.acfrm.toNat 0 } }

def execAcctrClear (s : State) : Out :=
  .next { s with counters := s.counters.erase s.host.acfrm.toNat, host := { s.host with acclear := true, account := 0 } }

/-! ## The remap step (18 R404, R405) -/

/-- Whether a running bank kernel holds a row of a tower below a floor. -/
def heldBelow (s : State) (t floor : Nat) : Bool :=
  s.kernels.any fun p => p.2.state == .running && p.2.isBank && (List.range 8).any fun r =>
    let o := 0xB8 + 8 * r
    recField p.2 o 0 64 != 0 && recField p.2 o 0 3 == t && decide (recField p.2 o 12 12 < floor)

/-- A REMAP write: ignored while a step runs, refused with ERR, or the step starts with MOVING set. Fields that the
step does not use stay. -/
def startRemap (s : State) (mask word : BitVec 26) (tower : Nat) (ok : Bool) : Out :=
  if s.host.remapBusy then .next s
  else
    let h := { s.host with remap := (s.host.remap &&& ~~~mask) ||| word }
    if ok then .next ({ s with host := { h with remapErr := false, remapBusy := true } }.modTower tower fun x =>
      { x with moving := true })
    else .next (raiseVector { s with host := { h with remapErr := true } } 0)

/-- REMAP_RETIRE_BANK. -/
def execRemapRetireBank (tower : BitVec 3) (pc : BitVec 6) (bank : BitVec 4) (s : State) : Out :=
  let x := s.tower tower.toNat
  startRemap s 0x3FFF (BitVec.ofNat 26 (tower.toNat + pc.toNat * 2 ^ 4 + bank.toNat * 2 ^ 10)) tower.toNat
    (decide (tower.toNat < s.variant.towers) && x.isLive pc.toNat bank.toNat && decide (1 < x.live))

/-- REMAP_SET_FLOOR. -/
def execRemapSetFloor (tower : BitVec 3) (floor : BitVec 12) (s : State) : Out :=
  startRemap s 0x3FFC00F (BitVec.ofNat 26 (tower.toNat + 2 ^ 3 + floor.toNat * 2 ^ 14)) tower.toNat
    (decide (tower.toNat < s.variant.towers) && decide (1 ≤ floor.toNat) && decide (floor.toNat ≤ 3072) &&
      !heldBelow s tower.toNat floor.toNat)

/-- Where the byte of a spread row of tower `t` goes when the list of live banks changes (18 R405): unchanged
outside the spread rows; none above the new C_t and in a retired bank. -/
def moveKey (t : Nat) (x y : Tower) (a : Nat) : Option Nat :=
  let row := bitsAt a 13 12
  if a < 2 ^ 47 ∨ 2 ^ 47 + 2 ^ 40 ≤ a ∨ bitsAt a 37 3 ≠ t ∨ row = 0 ∨ x.floor ≤ row then some a
  else
    let l := 64 * bitsAt a 27 4 + bitsAt a 31 6
    if x.retired.contains l then none
    else
      let i := l - (x.retired.filter (· < l)).length
      let j := 32 * (4 * (row - 1) + bitsAt a 25 2) + bitsAt a 8 5
      let off := 256 * (j * x.live + i) + a % 256
      if off < y.spread then some (spreadKey y t off) else none

/-- Move the data of a tower's spread region: bytes, uncorrectable units, monitors, and what transfers keep. -/
def moveSpread (s : State) (t : Nat) (x y : Tower) : State :=
  let mv := moveKey t x y
  let watch (m : Monitor) : Option Monitor := (mv (64 * m.line)).map fun l => { m with line := l / 64 }
  let kept (o : XferOp) : XferOp := { o with old := o.old.filterMap fun p => (mv p.1).map fun k => (k, p.2) }
  let chan (ch : Channel) : Channel := { ch with ops := ch.ops.map kept }
  { s with
    mem := s.mem.foldl (fun m c => match mv c.1 with | some k => memWrite m k c.2 | none => m) [],
    bad := s.bad.foldl (fun l u => match mv u with | some k => insertNat l k | none => l) [],
    harts := s.harts.map (fun (k, h) => (k, { h with monitor := h.monitor.bind watch })),
    ctxs := s.ctxs.map (fun (c, cx) => (c, { cx with xfer := cx.xfer.map (fun (i, ch) => (i, chan ch)) })) }

/-- REMAP_DONE (18 R405): a retirement waits until no stream holds the bank. -/
def tryRemapDone (s : State) : Option State :=
  let w := s.host.remap.toNat
  let t := w % 8
  let x := s.tower t
  let fin (s : State) : Option State := some (raiseVector { s with host := { s.host with remapBusy := false } } 0)
  if s.host.remapBusy = false then none
  else if bitsAt w 3 1 = 0 then
    let pc := bitsAt w 4 6
    let b := bitsAt w 10 4
    if (s.bank (1024 * t + 16 * pc + b)).owner.isSome then none
    else
      let y := { x with retired := insertNat x.retired (64 * b + pc), moving := false }
      fin ((moveSpread s t x y).setTower t y)
  else fin (s.setTower t { x with floor := bitsAt w 14 12, moving := false })
def execRemapDone (s : State) : Out := comes s (tryRemapDone s)

/-! ## HOSTERR, PODID (19 R408) -/

def execHosterrClear (s : State) : Out := .next { s with host := { s.host with unmapped := false } }

/-- PODID_WRITE: ignored while any Uapoash port is ACTIVE or DEGRADED. -/
def execPodidWrite (v : Word) (s : State) : Out :=
  if s.ulports.any fun p => p.2.state == .active || p.2.state == .degraded then .next s
  else .next { s with host := { s.host with podid := v.extractLsb' 0 12 } }

/-! ## BAR2 (19 R406, R407) -/

/-- The bytes that an outside reader gets: all ones where nothing is mapped; open where the data cannot be
corrected (07 R201). -/
def outsideRead (s : State) (pa n : Nat) : List Byte :=
  (List.range n).map fun i =>
    if physHome s (pa + i) = .none then 0xFF
    else if uncorrectable s (pa + i) 1 then Config.freeHostByte s.free i
    else physByte s (pa + i)

def anyUnmapped (s : State) (pa n : Nat) : Bool := (List.range n).any fun i => physHome s (pa + i) == .none

/-- HOST_BAR2_READ: the bytes read are in hostData. -/
def tryHostBar2Read (addr len : Nat) (s : State) : Option State :=
  if 2 ^ 40 < addr + len then none
  else some { s with hostData := outsideRead s addr len, free := s.free + 1,
                      host := { s.host with unmapped := s.host.unmapped || anyUnmapped s addr len } }
def execHostBar2Read (addr len : Nat) (s : State) : Out := comes s (tryHostBar2Read addr len s)

/-- HOST_BAR2_WRITE. -/
def tryHostBar2Write (addr : Nat) (data : List Byte) (s : State) : Option State :=
  if 2 ^ 40 < addr + data.length then none
  else
    let t := store s addr data none
    some { t with host := { t.host with unmapped := s.host.unmapped || anyUnmapped s addr data.length } }
def execHostBar2Write (addr : Nat) (data : List Byte) (s : State) : Out := comes s (tryHostBar2Write addr data s)

end Sys2Proof.Machine
end

