-- ==== Sys2Proof/Machine/Link.lean ====
section
/-! DEFINITION. The ports (19 R410 to R417), and writes to the registers of the host command block and of the
management interface (19 R408, 20 R424). -/
namespace Sys2Proof.Machine

/-! ## Pool ports (19 R412) -/

/-- Link-training firmware is being committed: port states are frozen (20 R427). -/
def portsFrozen (s : State) : Bool := s.svc.fwbusy && s.svc.fwcmd == 1 && s.svc.fwcomp == 2

/-- POOL_PORT_UP: a device of `size` units of 64 KiB, up to 2 TiB, trained on `width` lanes. -/
def tryPoolPortUp (port width size : Nat) (s : State) : Option State :=
  if 2 ≤ port ∨ s.variant.hasPool = false ∨ (s.poolports.getD port {}).up = true ∨ portsFrozen s = true ∨ 2 ^ 25 < size ∨ 16 < width then
    none
  else some (raiseVector { s with poolports := s.poolports.set port ⟨true, BitVec.ofNat 8 width, BitVec.ofNat 48 size⟩ } 3)
def execPoolPortUp (port width size : Nat) (s : State) : Out := comes s (tryPoolPortUp port width size s)

/-- POOL_PORT_DOWN: its addresses are unmapped (R411); its lines stay as they are. -/
def tryPoolPortDown (port : Nat) (s : State) : Option State :=
  let p := s.poolports.getD port {}
  if p.up && !portsFrozen s then some (raiseVector { s with poolports := s.poolports.set port { p with up := false } } 3)
  else none
def execPoolPortDown (port : Nat) (s : State) : Out := comes s (tryPoolPortDown port s)

/-! ## Uapoash ports (19 R413 to R415) -/

def State.ulport (s : State) (n : Nat) : UlPort := s.ulports.getD n {}

/-- A port takes a new value; vector 3 where its STATE changes. -/
def setPort (s : State) (n : Nat) (p : UlPort) : State :=
  let t := { s with ulports := s.ulports.set n p }
  if (s.ulport n).state = p.state then t else raiseVector t 3

def UlPort.linked (p : UlPort) : Bool := p.state == .active || p.state == .degraded

/-- The unanswered requests that a port carried are sent again by another path to their peer, or fail where none remains
(19 R417). -/
def rerouted (s : State) (n : Nat) : State :=
  let lost (p : PodLine) : Bool := p.answer.isNone && p.port == n
  let path (p : PodLine) : Option Nat := portTo s (podPeer p.addr)
  let ports := (s.pod.filter lost).filterMap path
  let pod := s.pod.filterMap fun p =>
    if lost p then
      match path p with
      | some m => some { p with port := m }
      | none => if p.by_ = orphan then none else some { p with answer := some .unmapped }
    else some p
  ports.foldl sendFlit { s with pod := pod }

/-- A port goes DOWN, with nothing left to acknowledge. -/
def portDown (s : State) (n : Nat) (p : UlPort) : State :=
  rerouted (setPort s n { p with state := .down, lanes := 0, replay := [] }) n

/-- The flits in flight are sent again on the lanes that are left (19 R414). -/
def UlPort.resent (p : UlPort) : UlPort :=
  { p with replays := BitVec.ofNat 16 (min (p.replays.toNat + p.replay.length) 0xFFFF) }

/-- ULPORT_ENABLE: CMD 1, ignored outside DOWN and QUIESCED. -/
def tryUlportEnable (port : Nat) (s : State) : Option State :=
  let p := { s.ulport port with cmd := 1 }
  if 36 ≤ port then none
  else if (p.state = .down ∨ p.state = .quiesced) ∧ portsFrozen s = false then some (setPort s port { p with state := .training })
  else some (setPort s port p)
def execUlportEnable (port : Nat) (s : State) : Out := comes s (tryUlportEnable port s)

/-- ULPORT_DRAIN: CMD 2, ignored outside ACTIVE and DEGRADED. -/
def tryUlportDrain (port : Nat) (s : State) : Option State :=
  let p := { s.ulport port with cmd := 2 }
  if 36 ≤ port then none
  else if p.linked = true ∧ portsFrozen s = false then some (setPort s port { p with state := .draining })
  else some (setPort s port p)
def execUlportDrain (port : Nat) (s : State) : Out := comes s (tryUlportDrain port s)

/-- A live lane of a linked port is retired; the last one takes the port DOWN (19 R414). -/
def retireLane (s : State) (n : Nat) (p : UlPort) (lane : BitVec 2) : State :=
  let lanes := p.lanes &&& ~~~((1 : BitVec 4) <<< lane.toNat)
  if lanes = 0 then portDown s n p else setPort s n { p.resent with lanes := lanes, state := .degraded }

/-- ULPORT_RETIRE_LANE: CMD 3, ignored on the last live lane and outside ACTIVE and DEGRADED. -/
def tryUlportRetireLane (port : Nat) (lane : BitVec 2) (s : State) : Option State :=
  let p := { s.ulport port with cmd := 3, lane := lane }
  if 36 ≤ port then none
  else if p.linked = true ∧ portsFrozen s = false ∧ p.lanes.getLsbD lane.toNat = true ∧
      p.lanes ≠ (1 : BitVec 4) <<< lane.toNat then some (retireLane s port p lane)
  else some (setPort s port p)
def execUlportRetireLane (port : Nat) (lane : BitVec 2) (s : State) : Out := comes s (tryUlportRetireLane port lane s)

/-- LANE_TRAINING_DONE: ACTIVE with four lanes, DEGRADED with fewer, DOWN with none. -/
def tryLaneTrainingDone (port : Nat) (lanes : BitVec 4) (peer : BitVec 11) (peerPort : BitVec 6) (s : State) : Option State :=
  let p := s.ulport port
  if p.state ≠ .training ∨ portsFrozen s = true then none
  else if lanes = 0 then some (setPort s port { p with state := .down, lanes := 0 })
  else some (setPort s port
    { p with state := if lanes = 15 then .active else .degraded, lanes := lanes, peer := peer, peerPort := peerPort })
def execLaneTrainingDone (port : Nat) (lanes : BitVec 4) (peer : BitVec 11) (peerPort : BitVec 6) (s : State) : Out := comes s (tryLaneTrainingDone port lanes peer peerPort s)

/-- LANE_ERROR_THRESHOLD. -/
def tryLaneErrorThreshold (port : Nat) (lane : BitVec 2) (s : State) : Option State :=
  let p := s.ulport port
  if p.linked = true ∧ portsFrozen s = false ∧ p.lanes.getLsbD lane.toNat = true then some (retireLane s port p lane)
  else none
def execLaneErrorThreshold (port : Nat) (lane : BitVec 2) (s : State) : Out := comes s (tryLaneErrorThreshold port lane s)

/-- PARTNER_LOST (19 R414, R417). -/
def tryPartnerLost (port : Nat) (s : State) : Option State :=
  let p := s.ulport port
  if p.linked = true ∧ portsFrozen s = false then some (portDown s port p) else none
def execPartnerLost (port : Nat) (s : State) : Out := comes s (tryPartnerLost port s)

/-- PORT_DRAINED: no request is outstanding on the port. -/
def tryPortDrained (port : Nat) (s : State) : Option State :=
  let p := s.ulport port
  if p.state ≠ .draining ∨ portsFrozen s = true ∨ (s.pod.any fun x => x.answer.isNone && x.port == port) = true then none
  else some (setPort s port { p with state := .quiesced })
def execPortDrained (port : Nat) (s : State) : Out := comes s (tryPortDrained port s)

/-- The flits of a replay buffer that an acknowledgement leaves: those after it, of the 2,047 numbers that follow. -/
def acknowledged (ack : BitVec 12) (l : List Flit) : List Flit :=
  l.filter fun f => decide (2048 ≤ (ack - f.seq).toNat)

/-- FLIT_RECEIVED (19 R413): the next flit in sequence is accepted, and what it acknowledges leaves the replay buffer;
one with a bad CRC is sent again, and those after it wait for it. -/
def tryFlitReceived (port : Nat) (flit : Flit) (s : State) : Option State :=
  let p := s.ulport port
  if p.linked = false ∧ p.state ≠ .draining then none
  else if flit.crc ≠ Config.crc64 flit.covered then
    some (setPort s port { p with replays := if p.replays = 0xFFFF then p.replays else p.replays + 1 })
  else if flit.seq = p.seq + 1 then
    some (setPort s port { p with seq := flit.seq, replay := acknowledged flit.ack p.replay })
  else some s
def execFlitReceived (port : Nat) (flit : Flit) (s : State) : Out := comes s (tryFlitReceived port flit s)

/-! ## Pod traffic (19 R416, R417) -/

/-- An operation of a peer on the bytes at an address of this package, as one step at their home (07 R197; 09 R237). -/
def podPerform (s : State) (addr : Nat) : PodOp → State
  | .read _ => s
  | .write d => store s addr d none
  | .merge d m =>
    store s addr ((List.range d.length).map fun i =>
      (physByte s (addr + i) &&& ~~~(m.getD i 0)) ||| (d.getD i 0 &&& m.getD i 0)) none
  | .amo op w b c =>
    let n := if w then 4 else 8
    match amoResult op w (physRead s addr n) b c with
    | some v => store s addr (toBytes n v) none
    | none => s
  | op =>
    match (barRead s addr).podStep op with
    | some o => store s addr o.bytes none
    | none => s

/-- The answer to a peer goes out on a path to it, if there is one. -/
def answerPeer (s : State) (peer : Nat) (r : PodReply) : State :=
  let s := { s with podOut := some r }
  match portTo s peer with
  | some n => sendFlit s n
  | none => s

/-- A peer's request counts here, where its frame is (18 R401): whether it was counted there is open. -/
def countPeer (s : State) (pa : Nat) : State :=
  if s.host.acen then
    let s' := { s with free := s.free + 1 }
    if Config.peerCounted s.free (pa / 64) then countFrame s' pa else s'
  else s

/-- POD_REQUEST_RECEIVED: package `peer`'s request to a spread address of this package is performed at its home, or
refused; a read of a unit that cannot be corrected is answered as such, and has no effect (07 R201). -/
def tryPodRequestReceived (peer addr : Nat) (op : PodOp) (s : State) : Option State :=
  let n := op.bytes
  if 1151 < peer ∨ peer = s.host.podid.toNat % 2 ^ 11 ∨ 64 < addr % 64 + n ∨ 2 ^ 40 < addr + n ∨ s.host.podid.getLsbD 11 = false then none
  else if anyUnmapped s addr n then some (answerPeer s peer .unmapped)
  else if (match op with | .write _ => false | _ => true) = true ∧ uncorrectable s addr n = true then
    some (answerPeer (countPeer s addr) peer .bad)
  else some (answerPeer (countPeer (podPerform s addr op) addr) peer (.line (physBytes s (addr / 64 * 64) 64)))
def execPodRequestReceived (peer addr : Nat) (op : PodOp) (s : State) : Out := comes s (tryPodRequestReceived peer addr op s)

/-- POD_RESPONSE_RECEIVED: package `peer` answers a request made to it, if its agent waits for it still. -/
def tryPodResponseReceived (peer req : Nat) (reply : PodReply) (s : State) : Option State :=
  match s.pod[req]? with
  | some p =>
    if p.answer.isNone ∧ podPeer p.addr = peer then
      some { s with pod := if p.by_ = orphan then s.pod.eraseIdx req else s.pod.set req { p with answer := some reply } }
    else none
  | none => none
def execPodResponseReceived (peer req : Nat) (reply : PodReply) (s : State) : Out := comes s (tryPodResponseReceived peer req reply s)

end Sys2Proof.Machine
end

