-- ==== Sys2Proof/Machine/Crypto.lean ====
section
/-! DEFINITION. The cryptography that 20 R426 and R428 name: SHA-256 (FIPS 180-4) and RSASSA-PSS with SHA-256, MGF1
and a salt of 32 bytes under a modulus of 3,072 bits (PKCS #1 v2.2). -/
namespace Sys2Proof.Machine

/-- Octets of a number, most significant first: the order of FIPS 180-4 and PKCS #1. -/
def octets (n v : Nat) : List Byte := (toBytes n v).reverse

/-- The number whose octets are given. -/
def ofOctets (l : List Byte) : Nat := ofBytes l.reverse

/-! ## SHA-256 (FIPS 180-4, 4.1.2, 4.2.2, 5.1.1, 6.2) -/

def shaK : List (BitVec 32) :=
  ([0x428a2f98, 0x71374491, 0xb5c0fbcf, 0xe9b5dba5, 0x3956c25b, 0x59f111f1, 0x923f82a4, 0xab1c5ed5,
    0xd807aa98, 0x12835b01, 0x243185be, 0x550c7dc3, 0x72be5d74, 0x80deb1fe, 0x9bdc06a7, 0xc19bf174] : List (BitVec 32)) ++
  [0xe49b69c1, 0xefbe4786, 0x0fc19dc6, 0x240ca1cc, 0x2de92c6f, 0x4a7484aa, 0x5cb0a9dc, 0x76f988da,
    0x983e5152, 0xa831c66d, 0xb00327c8, 0xbf597fc7, 0xc6e00bf3, 0xd5a79147, 0x06ca6351, 0x14292967] ++
  [0x27b70a85, 0x2e1b2138, 0x4d2c6dfc, 0x53380d13, 0x650a7354, 0x766a0abb, 0x81c2c92e, 0x92722c85,
    0xa2bfe8a1, 0xa81a664b, 0xc24b8b70, 0xc76c51a3, 0xd192e819, 0xd6990624, 0xf40e3585, 0x106aa070] ++
  [0x19a4c116, 0x1e376c08, 0x2748774c, 0x34b0bcb5, 0x391c0cb3, 0x4ed8aa4a, 0x5b9cca4f, 0x682e6ff3,
    0x748f82ee, 0x78a5636f, 0x84c87814, 0x8cc70208, 0x90befffa, 0xa4506ceb, 0xbef9a3f7, 0xc67178f2]

/-- The eight words of a hash value, a to h. -/
structure Sha where
  a : BitVec 32
  b : BitVec 32
  c : BitVec 32
  d : BitVec 32
  e : BitVec 32
  f : BitVec 32
  g : BitVec 32
  h : BitVec 32
  deriving DecidableEq, Repr

def Sha.start : Sha :=
  ⟨0x6a09e667, 0xbb67ae85, 0x3c6ef372, 0xa54ff53a, 0x510e527f, 0x9b05688c, 0x1f83d9ab, 0x5be0cd19⟩

/-- One round, with a constant and a word of the schedule. -/
def Sha.round (s : Sha) (kw : BitVec 32 × BitVec 32) : Sha :=
  let s1 := s.e.rotateRight 6 ^^^ s.e.rotateRight 11 ^^^ s.e.rotateRight 25
  let ch := (s.e &&& s.f) ^^^ (~~~s.e &&& s.g)
  let t1 := s.h + s1 + ch + kw.1 + kw.2
  let s0 := s.a.rotateRight 2 ^^^ s.a.rotateRight 13 ^^^ s.a.rotateRight 22
  let maj := (s.a &&& s.b) ^^^ (s.a &&& s.c) ^^^ (s.b &&& s.c)
  ⟨t1 + (s0 + maj), s.a, s.b, s.c, s.d + t1, s.e, s.f, s.g⟩

def Sha.add (s t : Sha) : Sha := ⟨s.a + t.a, s.b + t.b, s.c + t.c, s.d + t.d, s.e + t.e, s.f + t.f, s.g + t.g, s.h + t.h⟩

/-- The words of the schedule from the sixteen of a block: `w` holds the last sixteen, oldest first. -/
def shaWords : Nat → List (BitVec 32) → List (BitVec 32)
  | 0, _ => []
  | n + 1, w =>
    let x := w.getD 1 0
    let y := w.getD 14 0
    let s0 := x.rotateRight 7 ^^^ x.rotateRight 18 ^^^ (x >>> 3)
    let s1 := y.rotateRight 17 ^^^ y.rotateRight 19 ^^^ (y >>> 10)
    w.getD 0 0 :: shaWords n (w.drop 1 ++ [s1 + w.getD 9 0 + s0 + w.getD 0 0])

def Sha.block (s : Sha) (l : List Byte) : Sha :=
  let w := (List.range 16).map fun i => BitVec.ofNat 32 (ofOctets ((l.drop (4 * i)).take 4))
  s.add ((shaK.zip (shaWords 64 w)).foldl Sha.round s)

/-- The blocks of a padded message; the first argument counts them. -/
def Sha.blocks : Nat → Sha → List Byte → Sha
  | 0, s, _ => s
  | n + 1, s, l => Sha.blocks n (s.block (l.take 64)) (l.drop 64)

def sha256 (m : List Byte) : BitVec 256 :=
  let padded := m ++ [(0x80 : Byte)] ++ List.replicate ((119 - m.length % 64) % 64) (0 : Byte) ++ octets 8 (8 * m.length)
  let s := Sha.blocks (padded.length / 64) Sha.start padded
  s.a ++ s.b ++ s.c ++ s.d ++ s.e ++ s.f ++ s.g ++ s.h

def shaOctets (m : List Byte) : List Byte := octets 32 (sha256 m).toNat

/-! ## RSASSA-PSS (PKCS #1 v2.2, 8.1, 9.1, B.2.1) -/

/-- base ^ exponent mod n, for an exponent below 2 ^ fuel. -/
def powMod (n : Nat) : Nat → Nat → Nat → Nat
  | 0, _, _ => 1 % n
  | f + 1, b, e =>
    let h := powMod n f (b * b % n) (e / 2)
    if e % 2 = 1 then h * b % n else h

def mgf1 (seed : List Byte) (len : Nat) : List Byte :=
  ((List.range ((len + 31) / 32)).flatMap fun c => shaOctets (seed ++ octets 4 c)).take len

/-- The 351 octets of a data block and its mask, combined, the highest bit cleared. -/
def pssMask (db h : List Byte) : List Byte :=
  ((db.zip (mgf1 h 351)).zipIdx).map fun p => (p.1.1 ^^^ p.1.2) &&& (if p.2 = 0 then 0x7F else 0xFF)

/-- The hash over a message's hash and a salt. -/
def pssHash (m salt : List Byte) : List Byte := shaOctets (List.replicate 8 (0 : Byte) ++ shaOctets m ++ salt)

/-- RSASSA-PSS-SIGN with a private exponent. -/
def pssSign (n d : Nat) (m salt : List Byte) : BitVec 3072 :=
  let h := pssHash m salt
  let db := List.replicate 318 (0 : Byte) ++ [(1 : Byte)] ++ salt
  BitVec.ofNat 3072 (powMod n 3072 (ofOctets (pssMask db h ++ h ++ [(0xBC : Byte)])) d)

/-- RSASSA-PSS-VERIFY with a public exponent. -/
def pssVerify (n e : Nat) (m : List Byte) (sig : BitVec 3072) : Bool :=
  let em := octets 384 (powMod n 3072 sig.toNat e)
  let h := (em.drop 351).take 32
  let db := pssMask (em.take 351) h
  decide (sig.toNat < n) && decide ((em.getD 0 0).toNat < 0x80) && em.getD 383 0 == 0xBC &&
    db.take 318 == List.replicate 318 (0 : Byte) && db.getD 318 0 == 1 && pssHash m (db.drop 319) == h

end Sys2Proof.Machine
end

