-- ==== Sys2Proof/Machine/Power.lean ====
section
/-! DEFINITION. Power, heat and service (20), the emergency save (14 R357, R358), device reset, and REGISTER_WRITE. -/
namespace Sys2Proof.Machine

/-! ## Operating points (20 R418 to R420) -/

/-- The column of a core's quad, and its die (20, Heat). -/
def coresOf (die col : Nat) : List Nat := ((List.range 64).filter fun c => c / 4 % 4 == col).map (64 * die + ·)

def State.thermOf (s : State) (die : Nat) : Therm := s.svc.therm.getD die {}
def State.setTherm (s : State) (die : Nat) (t : Therm) : State := { s with svc := { s.svc with therm := s.svc.therm.set die t } }

/-- The caps of a core at their floors, or at their most (20 R419). -/
def Core.floorCaps (x : Core) : Core := { x with requests := 32, gatherCap := 2 }
def Core.fullCaps (x : Core) : Core := { x with requests := 256, gatherCap := 16 }

/-- The column of a core is throttled (20 R422). -/
def throttled (s : State) (core : Nat) : Bool := (s.thermOf (core / 64)).throt.getLsbD (core / 4 % 4)

def State.allCores (s : State) (f : Nat → Core → Core) : State :=
  (List.range (64 * s.variant.towers)).foldl (fun s c => s.setCore c (f c (s.core c))) s

/-- The power controller runs again: caps stay at their floors in throttled columns alone (20 R419, R422, R423). -/
def controllerRuns (s : State) : State :=
  let s := s.allCores fun c x => if throttled s c then x.floorCaps else x.fullCaps
  { s with svc := { s.svc with safe := false, ctrl := 0 } }

/-- LANE_RATE_CHANGE (20 R418): by the power controller; a throttled column stays at half rate. The first one after a
restart shows that the controller runs again (DESIGN CHOICE, log 48). -/
def tryLaneRateChange (core : Nat) (half : Bool) (s : State) : Option State :=
  if 64 * s.variant.towers ≤ core ∨ s.svc.ctrl = 2 ∨ (half = false ∧ throttled s core = true) then none
  else
    let s := if s.svc.ctrl = 1 then controllerRuns s else s
    some (s.setCore core { s.core core with halfRate := half })
def execLaneRateChange (core : Nat) (half : Bool) (s : State) : Out := comes s (tryLaneRateChange core half s)

/-- VOLTAGE_DROOP (20 R419) stretches clocks only. -/
def tryVoltageDroop (core : Nat) (s : State) : Option State :=
  if core < 64 * s.variant.towers then some s else none
def execVoltageDroop (core : Nat) (s : State) : Out := comes s (tryVoltageDroop core s)

/-- WAY_GATE (20 R420): at least 4 ways stay live. -/
def tryWayGate (tower : Nat) (s : State) : Option State :=
  let x := s.tower tower
  if tower < s.variant.towers ∧ 4 < x.ways then some (s.setTower tower { x with ways := x.ways - 1 }) else none
def execWayGate (tower : Nat) (s : State) : Out := comes s (tryWayGate tower s)

def tryWayEnable (tower : Nat) (s : State) : Option State :=
  let x := s.tower tower
  if tower < s.variant.towers ∧ x.ways < 16 then some (s.setTower tower { x with ways := x.ways + 1 }) else none
def execWayEnable (tower : Nat) (s : State) : Out := comes s (tryWayEnable tower s)

/-! ## Heat (20 R422) -/

def colBit (col : Nat) : BitVec 4 := (1 : BitVec 4) <<< col

/-- TMAX: the hottest column. -/
def Therm.tmax (t : Therm) : Nat := t.temp.toList.foldl (fun m x => max m x.toNat) 0

/-- The sensors of a column read anew: from `least` to below `below`, and otherwise open. -/
def State.senseAt (s : State) (die col least below : Nat) : State :=
  let t := s.thermOf die
  let v := BitVec.ofNat 8 (min (below - 1) (max least (Config.temperature s.free (4 * die + col)).toNat))
  { s.setTherm die { t with temp := t.temp.setIfInBounds col v } with free := s.free + 1 }

def dieCol (s : State) (die col : Nat) : Bool := decide (die < s.variant.towers) && decide (col < 4)

/-- HOT_TRIP: the column is reported hot; PREEMPTION_REQUEST then moves its groups (17 R390). -/
def tryHotTrip (die col : Nat) (s : State) : Option State :=
  let t := s.thermOf die
  if dieCol s die col = true ∧ t.hot.getLsbD col = false then
    some ((s.setTherm die { t with hot := t.hot ||| colBit col }).senseAt die col s.svc.hotAt 256)
  else none
def execHotTrip (die col : Nat) (s : State) : Out := comes s (tryHotTrip die col s)

/-- HOT_CLEAR: the column shows less than the threshold less 5. -/
def tryHotClear (die col : Nat) (s : State) : Option State :=
  let t := s.thermOf die
  if dieCol s die col = true ∧ t.hot.getLsbD col = true then
    some ((s.setTherm die { t with hot := t.hot &&& ~~~colBit col }).senseAt die col 0 (s.svc.hotAt - 5))
  else none
def execHotClear (die col : Nat) (s : State) : Out := comes s (tryHotClear die col s)

/-- THROTTLE_TRIP: half rate, and the caps at their floors. -/
def tryThrottleTrip (die col : Nat) (s : State) : Option State :=
  let t := s.thermOf die
  if dieCol s die col = true ∧ t.throt.getLsbD col = false then
    let s := (coresOf die col).foldl (fun s c => s.setCore c { (s.core c).floorCaps with halfRate := true }) s
    some ((s.setTherm die { t with throt := t.throt ||| colBit col }).senseAt die col 105 256)
  else none
def execThrottleTrip (die col : Nat) (s : State) : Out := comes s (tryThrottleTrip die col s)

/-- THROTTLE_CLEAR: the column shows less than 100; the caps rise where the power controller runs. -/
def tryThrottleClear (die col : Nat) (s : State) : Option State :=
  let t := s.thermOf die
  if dieCol s die col = true ∧ t.throt.getLsbD col = true then
    let s := (coresOf die col).foldl (fun s c =>
      s.setCore c { (if s.svc.ctrl = 0 then (s.core c).fullCaps else s.core c) with halfRate := s.svc.safe }) s
    some ((s.setTherm die { t with throt := t.throt &&& ~~~colBit col }).senseAt die col 0 100)
  else none
def execThrottleClear (die col : Nat) (s : State) : Out := comes s (tryThrottleClear die col s)

/-! ## The emergency save (14 R357, R358) -/

/-- The CSRs held per hart or sequencer, in ascending number (04 R108, 14 R353). -/
def savedCsrs (seq : Bool) : List Nat :=
  ([0, 1, 2, 3, 0x010, 0x011, 0x012, 0x013, 0x014, 0x015, 0x016, 0x017, 0x018, 0x019, 0x01A, 0x01B, 0x01C, 0x01D,
    0x020, 0x021, 0x022, 0x023, 0x024, 0x025, 0x026, 0x030, 0x031, 0x032, 0x033, 0x040, 0x041, 0x042, 0x061,
    0x070]).filter fun n => (csrAccess seq n).isSome

/-- The hart at a place at its stop: gathers delivered, register-bound operations cut back, its service ended. -/
def stopHart (s : State) (k : Nat) : State :=
  let s := s.modHart k fun h => h.deliverAll.stopReads
  let s := if isSeqPlace k then (tryMatrixWordComplete (k / 9) s).getD s else s
  (cutBound (s.leaveOrders k) k).modHart k fun h =>
    ({ { h with full := h.undrained, draining := none }.endService with
       slots := [], monitor := none, life := .ready, latched := none, owed := false } : Hart).leaveSlot k h.pc

/-- The emergency fields of the record of a hart or sequencer (14 R353): the CSRs as S reads them. -/
def writeEmergency (s : State) (pa k : Nat) : State :=
  let h := s.hart k
  let asS := { h with tstat := { h.tstat with prv := true } }
  let s := physWords s (pa + 0x100) ((List.range 31).map fun i => (h.rd (BitVec.ofNat 5 (i + 1))).toNat)
  let s := physWrite s (pa + 0x1F8) 8 h.pc.toNat
  let s := physWords s (pa + 0x200) (((savedCsrs (isSeqPlace k)).map fun n =>
    if n = 0x016 then h.tstat.word else (csrRead s k asS n).toNat).take 31)
  if isSeqPlace k then s
  else
    let s := h.p.toList.zipIdx.foldl (fun s p =>
      store s (pa + 0x1000 + h.vgrant / 32 * p.2) (toBytes (h.vgrant / 32) p.1.toNat) none) s
    h.v.toList.zipIdx.foldl (fun s p =>
      if h.vdirty.getLsbD p.2 then
        store s (pa + 0x2000 + h.vgrant / 8 * p.2) (toBytes (h.vgrant / 8) (p.1.toNat % 2 ^ h.vgrant)) none
      else s) s

/-- Save one bound member of a group by itself. -/
def saveMember (s : State) (gid parkbase : Nat) (n : Nat) (m : Member) (k : Nat) : State :=
  let s := stopHart s k
  let h := s.hart k
  match m.parkAt with
  | none => s
  | some o =>
    let s := writeRecord s (parkbase + o) k true
    let s := writeEmergency s (parkbase + o) k
    let s := renameOps s k (parkKey gid n)
    let s := setMember s gid n { m with at_ := .parked, arrived := h.arrived, fin := h.finMark, stops := h.stops, st := h.st,
                                        failed := h.failed, reads := h.reads }
    (s.leavePods k).setHart k {}

/-- The tile store of core `c`, and its register-state map, whose layout is not stated (12 R320, 14 R354): free
values. -/
def writeTileStore (s : State) (c pa : Nat) : State :=
  let map := (List.range 0x200).map fun i => Config.freeTileByte s.free (2 ^ 28 + 0x4_0000 * c + i)
  let bytes := (List.range 0x4_0000).map (tileByte s c)
  let s := store (store s (pa + 0x800) map none) (pa + 0x2_0000) bytes none
  { s with free := s.free + 1 }

/-- Save a group: its members, then each core. One whose kernel has faulted is abandoned (14 R361). -/
def saveGroup (s : State) (gid parkbase : Nat) : State :=
  match s.groups.get? gid with
  | none => s
  | some g =>
    let s := g.members.foldl (fun s p => match p.2.at_ with
      | .place k => if (s.hart k).life = .retired then s else saveMember s gid parkbase p.1 p.2 k
      | _ => s) s
    let s := g.cores.zipIdx.foldl (fun s p =>
      let o := parkbase + g.records.getD p.2 0
      writeTileStore (writeCore s gid p.2 p.1 o true) p.1 o) s
    let s := g.cores.foldl (fun s c => freeCore s gid c) s
    match s.groups.get? gid, s.kernels.get? g.kernel with
    | some g', some k =>
      let s := s.setGroup gid { g' with state := .parked, cores := [], placing := [] }
      if k.state = .running then s else endGroup s gid
    | _, _ => s

/-- The on-chip state of a context is discarded, its operations with it: it is LOST (14 R347, R358). -/
def loseCtx (s : State) (c : Nat) : State :=
  let s := dropLams (dropMembers (leaveCtxAsks s c) c) c
  setCtxState (match s.ctxs.get? c with
    | some cx => s.setCtx c { cx with xfer := cx.xfer.map fun (i, h) => (i, { h with ops := [] }),
                                      lam := cx.lam.map fun (i, h) => (i, { h with ops := [] }) }
    | none => s) c .lost

/-- Save every member of a context (14 R357, R358): its groups at once, and its bank streams, which follow, each once it
stands at its boundary. It is SUSPENDED once all have been (R347). A context whose records the park region does not hold
is LOST. -/
def saveCtx (s : State) (c : Nat) : State :=
  match reserveCtx s c, s.ctxs.get? c with
  | some s, some cx =>
    let s := ((ctxGroups s c).filter fun g => groupIn s g .running || groupIn s g .parking).foldl
      (fun s g => saveGroup s g cx.parkbase) s
    let s := (ctxKernels s c).foldl (fun s kid => match s.kernels.get? kid with
      | some k => k.streams.foldl (fun s i =>
          if streamParkReady s i (s.stream i) ∧ (s.stream i).kernel = kid then parkStream s i true else s) (requestStreams none s kid)
      | none => s) s
    settleCtx s c
  | _, _ => loseCtx s c

/-- A member of a context is on the chip still, its record not committed. -/
def uncommitted (s : State) (c : Nat) : Bool :=
  (ctxGroups s c).any (fun g => groupIn s g .running || groupIn s g .parking) ||
    (ctxKernels s c).any fun kid => match s.kernels.get? kid with
      | some k => k.streams.any fun i => (s.stream i).isLive && (s.stream i).kernel == kid && (s.stream i).state != .parked
      | none => false

/-- Groups that had begun to bind again, whose records are whole still, are PARKED. -/
def unbindAll (s : State) : State := (s.groups.map (·.1)).foldl unbindGroup s

/-- A power emergency: every context with members bound is saved (14 R357). -/
def emergency (s : State) : State :=
  let s := unbindAll { s with svc := { s.svc with emergency := true } }
  (s.ctxs.filter fun p => uncommitted s p.1).foldl (fun s p => saveCtx s p.1) s

/-- CRIT_TRIP. -/
def tryCritTrip (die col : Nat) (s : State) : Option State :=
  if dieCol s die col then
    some (emergency ((s.setTherm die { s.thermOf die with crit := true }).senseAt die col 115 256))
  else none
def execCritTrip (die col : Nat) (s : State) : Out := comes s (tryCritTrip die col s)

/-- SUPPLY_LOSS. -/
def execSupplyLoss (s : State) : Out := .next (emergency s)

/-- Contexts whose records have not all committed are LOST (14 R347, R358). -/
def loseContexts (s : State) : State :=
  let s := unbindAll s
  (s.ctxs.filter fun p => uncommitted s p.1).foldl (fun s p => loseCtx s p.1) s

/-- HARD_POWER_OFF: a context whose records have all committed is SUSPENDED, or stays FAULTED (14 R358). -/
def tryHardPowerOff (s : State) : Option State :=
  if s.svc.powered then
    let s := loseContexts s
    let s := (s.ctxs.filter fun p => (p.2.state == .runnable || p.2.state == .resident) && p.2.park != []).foldl
      (fun s p => setCtxState s p.1 .suspended) s
    some { s with svc := { s.svc with powered := false } }
  else none
def execHardPowerOff (s : State) : Out := comes s (tryHardPowerOff s)

/-- The record of a LOST context (14 R360, KIND 8). -/
def kind8 (c : Nat) : List Byte := record4 (8 + c * 2 ^ 16) 0 0 0

/-- The chip at reset: registers, counters and debts take their reset values; contexts, their records, memory, and
what service has replaced stay. -/
def resetChip (s : State) : State :=
  { s with
    harts := [],
    cores := (s.cores.filter fun (p : Nat × Core) => p.2.lost).map fun p => (p.1, { lost := true }),
    banks := (s.banks.filter fun (p : Nat × Bank) => p.2.spared).map fun p => (p.1, { spared := true }),
    streams := (s.streams.filter fun (p : Nat × Stream) => p.2.state == .parked).map fun p =>
      (p.1, { p.2 with readyAt := 0 }),
    towers := s.towers.map fun (p : Nat × Tower) => (p.1,
      { retired := p.2.retired, pbuf := p.2.pbuf, pgrant := p.2.pgrant, lam := p.2.lam, lamWait := p.2.lamWait }),
    lostAt := ((s.cores.filter fun (p : Nat × Core) => p.2.lost).map (·.1)),
    poolAt := 2 ^ 16 * ((s.poolports.filter fun (p : Nat × PoolPort) => p.2.up).map fun p => p.2.size.toNat).foldl (· + ·) 0,
    host := {}, ulports := [], poolports := [], raised := [], counters := [], pod := [], podOut := none, hostData := [],
    svc := { version := s.svc.version, floor := s.svc.floor, digest := s.svc.digest, spares := s.svc.spares },
    cur := none }

/-- DEVICE_RESET (10 R260; 14 R358): contexts still on the chip are LOST first, and each LOST context gets its
record. -/
def execDeviceReset (s : State) : Out :=
  let t := resetChip (loseContexts s)
  .next ((t.ctxs.filter fun p => p.2.state == .lost).foldl (fun s p => faultRecord s p.1 (kind8 p.1)) t)

/-- WATCHDOG_EXPIRY (20 R423): the power controller has hung and is restarted: the caps stand at their floors, and
operating points stay as they are until it runs again. One that is being updated stays so. -/
def execWatchdogExpiry (s : State) : Out :=
  let s := s.allCores fun _ x => x.floorCaps
  .next { s with svc := { s.svc with
    ctrl := if s.svc.ctrl = 2 then 2 else 1,
    restarts := if s.svc.restarts = 0xFFFF then 0xFFFF else s.svc.restarts + 1 } }

/-! ## Run-time test of a bank (20 R425) -/

/-- BIST_GO: ignored while a test runs; RESULT 3 where it is refused. -/
def execBistGo (tower : BitVec 3) (pc : BitVec 6) (bank : BitVec 4) (s : State) : Out :=
  if s.svc.bistBusy then .next s
  else
    let b := 1024 * tower.toNat + 16 * pc.toNat + bank.toNat
    let c := 64 * tower.toNat + pc.toNat
    let used := s.svc.spares.getD c 0
    let svc := { s.svc with bist := (1 : BitVec 1) ++ bank ++ pc ++ tower }
    if bankLive s b = false ∨ (s.bank b).owner.isSome = true ∨ Config.spareBanks ≤ used then
      .next { s with svc := { svc with bistResult := 3 } }
    else .next { s with svc := { svc with bistBusy := true, spares := s.svc.spares.set c (used + 1) } }

/-- BIST_DONE: on a pass the rows return and the spare is released; on a failure it stays in place. One that does not
hold either leaves the bank with no spare, RESULT 2 (DESIGN CHOICE, log 48). -/
def tryBistDone (pass : Bool) (s : State) : Option State :=
  if s.svc.bistBusy = false then none
  else
    let v := s.svc.bist.toNat
    let c := 64 * (v % 8) + bitsAt v 3 6
    let b := 1024 * (v % 8) + 16 * bitsAt v 3 6 + bitsAt v 9 4
    let fin (s : State) (r : BitVec 2) : State := { s with svc := { s.svc with bistBusy := false, bistResult := r } }
    if pass then
      some (fin { s with svc := { s.svc with spares := s.svc.spares.set c (s.svc.spares.getD c 1 - 1) } } 0)
    else
      let t := { s with free := s.free + 1 }
      some (if Config.spareHolds s.free then fin (t.modBank b fun x => { x with spared := true }) 1 else fin t 2)
def execBistDone (pass : Bool) (s : State) : Out := comes s (tryBistDone pass s)

/-! ## Firmware (20 R426, R427, R428) -/

/-- A firmware command ends with a result. -/
def fwEnd (s : State) (r : BitVec 3) : State := { s with svc := { s.svc with fwbusy := false, fwresult := r, image := none } }

/-- The digest of an image (20 R426). -/
def imageDigest (image : List Byte) : BitVec 256 := sha256 image

/-- An image's signature verifies under the release key (20 R426). -/
def imageSigned (image : List Byte) : Bool :=
  pssVerify Config.releaseModulus Config.releaseExponent (Config.imageSigned image) (Config.imageSignature image)

/-- Why an image is not committed for a component: its RESULT (20 R426). -/
def imageRefused (s : State) (c : Nat) (image : List Byte) : Option (BitVec 3) :=
  if 5 ≤ c ∨ Config.imageComponent image ≠ c then some 3
  else if imageSigned image = false then some 1
  else if (Config.imageVersion image).toNat < (s.svc.floor.getD c 0).toNat then some 2
  else none

/-- A component's image is written in place, and the component restarts. A power controller takes over from the safe
operating point, with the HOT threshold of its firmware (20 R422, R423). -/
def fwInstall (s : State) (c : Nat) (image : List Byte) : State :=
  let s := { s with svc := { s.svc with version := s.svc.version.set c (Config.imageVersion image),
                                        digest := s.svc.digest.set c (imageDigest image) } }
  if c = 0 then
    controllerRuns { s with svc := { s.svc with hotAt := (Config.hotThreshold image).toNat } }
  else s

/-- The power controller holds the safe operating point, with every cap at its floor, until its new firmware takes
over (20 R423). -/
def holdSafe (s : State) : State :=
  let s := s.allCores fun _ x => { x.floorCaps with halfRate := true }
  { s with svc := { s.svc with safe := true, ctrl := 2 } }

/-- FW_COMMIT (20 R426): the image at FWSRC, for the component in COMP, is verified and the component pauses; the next
step of the commit writes it, and the component restarts. A write that fails in place leaves the component paused until
the boot ROM restores it. -/
def execFwCommit (s : State) : Out :=
  let c := s.svc.fwcomp.toNat
  if s.svc.fwbusy then
    match s.svc.image with
    | some image => .next (fwEnd (fwInstall s c image) 0)
    | none => .next s
  else
    let s := { s with svc := { s.svc with fwcmd := 1 } }
    let src := s.svc.fwsrc.toNat
    let image := physBytes s src (Config.imageLength src)
    match imageRefused s c image with
    | some r => .next (fwEnd s r)
    | none =>
      let s := if c = 0 then holdSafe s else s
      .next { s with svc := { s.svc with fwbusy := true, image := if Config.commitFails s.free then none else some image },
                     free := s.free + 1 }

/-- FW_BOOTROM_RESTORE (20 R426): the boot ROM fetches an image from the host, and commits it where it verifies. -/
def tryFwBootromRestore (s : State) : Option State :=
  if s.svc.fwbusy = false ∨ s.svc.fwcmd ≠ 1 ∨ s.svc.image.isSome = true then none
  else
    let c := s.svc.fwcomp.toNat
    let image := Config.hostImage s.free c
    let t := { s with free := s.free + 1 }
    some (match imageRefused s c image with
      | some _ => t
      | none => fwEnd (fwInstall t c image) 4)
def execFwBootromRestore (s : State) : Out := comes s (tryFwBootromRestore s)

/-- The report of an attest, but for its signature (20 R428). -/
def fwReport (s : State) (nonce : List Byte) : List Byte :=
  toBytes 16 Config.packageSerial.toNat ++ nonce ++
    ((List.range 5).flatMap fun n => octets 32 (s.svc.digest.getD n 0).toNat ++ toBytes 4 (s.svc.version.getD n 0).toNat ++
      toBytes 4 0) ++
    shaOctets Config.bootRom ++ List.replicate 360 0

/-- The signature of a report by the device key (20 R428). -/
def fwSignature (s : State) (body : List Byte) : List Byte :=
  octets 384 (pssSign Config.deviceModulus Config.deviceExponent body (octets 32 (Config.pssSalt s.free).toNat)).toNat

/-- FW_ATTEST (20 R428). -/
def execFwAttest (s : State) : Out :=
  if s.svc.fwbusy then .next s
  else
    let s := { s with svc := { s.svc with fwcmd := 2 } }
    let src := s.svc.fwsrc.toNat
    let body := fwReport s (physBytes s src 32)
    .next { fwEnd (store s (src + 32) (body ++ fwSignature s body) none) 0 with free := s.free + 1 }

/-! ## REGISTER_WRITE (19 R408, 20 R424) -/

/-- A write to HQCMD starts its command (15 R362). -/
def writeHqcmd (v : Word) (s : State) : Out :=
  let a := v.extractLsb' 6 58
  match v.toNat % 8 with
  | 0 => execCreateContext a s | 1 => execEnableQueue a s | 2 => execDisableQueue a s | 3 => execSuspendContext a s
  | 4 => execResumeContext a s | 5 => execClearContextFault a s | 6 => execDestroyContext a s | _ => execRingNotify a s

/-- A write to a ULPORT: CMD and LANE are stored, and CMD 1 to 3 act (19 R415). -/
def writeUlport (n : Nat) (v : Word) (s : State) : Out :=
  let lane := v.extractLsb' 28 2
  let s := { s with ulports := s.ulports.set n { s.ulport n with lane := lane } }
  match bitsAt v.toNat 25 3 with
  | 1 => execUlportEnable n s
  | 2 => execUlportDrain n s
  | 3 => execUlportRetireLane n lane s
  | c => .next (setPort s n { s.ulport n with cmd := BitVec.ofNat 3 c })

/-- A write to a register of the host command block. -/
def writeHost (off : Nat) (v : Word) (s : State) : Out :=
  let put (h : HostRegs) : Out := .next { s with host := h }
  let h := s.host
  if 0x1000 ≤ off ∧ off < 0x1120 ∧ off % 8 = 0 then writeUlport ((off - 0x1000) / 8) v s
  else if 0x8000 ≤ off ∧ off < 0x8080 ∧ off % 8 = 0 then
    let i := (off - 0x8000) / 8
    let h := { h with msix := h.msix.set i v }
    put (if h.masked (i / 2) then h else { h with pending := h.pending &&& ~~~((1 : BitVec 8) <<< (i / 2)) })
  else
    match off with
    | 0x00 => writeHqcmd v s
    | 0x10 => put { h with tlbva := v &&& 0x01FF_FFFF_FFFF_0000 }
    | 0x18 => tlbinv (v.extractLsb' 0 16) (v.getLsbD 16) s
    | 0x20 => put { h with thresh := v.extractLsb' 0 16, acen := v.getLsbD 16 }
    | 0x28 => put { h with log2n := v.extractLsb' 0 5, ringBase := v.extractLsb' 12 40 }
    | 0x30 => put { h with acRd := v.extractLsb' 0 32 }
    | 0x38 =>
      let s := if h.remapBusy then s else { s with host := { h with remap := v.extractLsb' 0 26 } }
      if v.getLsbD 3 then execRemapSetFloor (v.extractLsb' 0 3) (v.extractLsb' 14 12) s
      else execRemapRetireBank (v.extractLsb' 0 3) (v.extractLsb' 4 6) (v.extractLsb' 10 4) s
    | 0x40 => if v.getLsbD 0 then execAcctrClear s else execAcctrSelect s
    | 0x48 => put { h with acfrm := v.extractLsb' 16 36 }
    | 0x50 => execPodidWrite v s
    | 0x58 => if v.getLsbD 0 then execHosterrClear s else .next s
    | _ => .next s

/-- A write to a management register. -/
def writeMgmt (off : Nat) (v : Word) (s : State) : Out :=
  match off with
  | 0x60 =>
    if s.svc.bistBusy then .next s
    else if v.getLsbD 13 then execBistGo (v.extractLsb' 0 3) (v.extractLsb' 3 6) (v.extractLsb' 9 4) s
    else .next { s with svc := { s.svc with bist := v.extractLsb' 0 14 } }
  | 0x80 =>
    if s.svc.fwbusy then .next s
    else
      let s := { s with svc := { s.svc with fwcomp := v.extractLsb' 0 8, fwcmd := v.extractLsb' 8 2 } }
      match bitsAt v.toNat 8 2 with
      | 1 => execFwCommit s
      | 2 => execFwAttest s
      | _ => .next s
  | 0x88 => .next { s with svc := { s.svc with fwsrc := v.extractLsb' 0 52 } }
  | _ => .next s

/-! ## What a read of a register returns -/

/-- ULPORT.STATE (19 R415). -/
def UlState.code : UlState → Nat
  | .down => 0 | .training => 1 | .active => 2 | .degraded => 3 | .draining => 4 | .quiesced => 5

/-- Fields at their lowest bits. -/
def packed (l : List (Nat × Nat)) : Word := BitVec.ofNat 64 (l.foldl (fun a p => a + p.1 * 2 ^ p.2) 0)

/-- A register of the host command block as it reads: offsets that R408 does not list read zero. -/
def readHost (s : State) (off : Nat) : Word :=
  let h := s.host
  if 0x1000 ≤ off ∧ off < 0x1120 ∧ off % 8 = 0 then
    let p := s.ulport ((off - 0x1000) / 8)
    packed [(p.state.code, 0), (p.lanes.toNat, 3), (p.peer.toNat, 8), (p.peerPort.toNat, 19), (p.cmd.toNat, 25),
      (p.lane.toNat, 28), (p.replays.toNat, 32)]
  else if 0x8000 ≤ off ∧ off < 0x8080 ∧ off % 8 = 0 then h.msixWord ((off - 0x8000) / 8)
  else
    let pool (n : Nat) : Word :=
      let p := s.poolports.getD n {}
      packed [(bit p.up 0, 0), (p.width.toNat, 8), (p.size.toNat, 16)]
    match off with
    | 0x00 => h.hqcmd
    | 0x10 => h.tlbva
    | 0x18 => packed [(h.tlbctx.toNat, 0), (bit h.tlball 16, 0), (bit h.tlbdone 17, 0), (bit h.tlberr 18, 0)]
    | 0x20 => packed [(h.thresh.toNat, 0), (bit h.acen 16, 0), (h.drops.toNat, 32)]
    | 0x28 => packed [(h.log2n.toNat, 0), (h.ringBase.toNat, 12)]
    | 0x30 => packed [(h.acRd.toNat, 0), (h.acWr.toNat, 32)]
    | 0x38 => packed [(h.remap.toNat, 0), (bit h.remapErr 62, 0), (bit h.remapBusy 63, 0)]
    | 0x40 => packed [(bit h.acclear 0, 0), (h.account.toNat, 16)]
    | 0x48 => packed [(h.acfrm.toNat, 16)]
    | 0x50 => packed [(h.podid.toNat, 0)]
    | 0x58 => packed [(bit h.unmapped 0, 0)]
    | 0x9000 => packed [(h.pending.toNat, 0)]
    | 0x1200 => pool 0
    | 0x1208 => pool 1
    | _ => 0

/-- A management register as it reads (20 R424): zero while the management component is committed (R427). -/
def readMgmt (s : State) (off : Nat) : Word :=
  let v := s.svc
  if v.fwbusy = true ∧ v.fwcmd = 1 ∧ v.fwcomp = 4 then 0
  else if 0x10 ≤ off ∧ off < 0x10 + 8 * s.variant.towers ∧ off % 8 = 0 then
    let t := s.thermOf ((off - 0x10) / 8)
    packed [(t.hot.toNat, 0), (t.throt.toNat, 4), (bit t.crit 8, 0), (t.tmax, 16)]
  else
    match off with
    | 0x00 => packed [(v.ctrl.toNat, 0), (bit v.safe 2, 0), (v.restarts.toNat, 16)]
    | 0x60 => packed [(v.bist.toNat, 0), (bit v.bistBusy 14, 0), (v.bistResult.toNat, 15)]
    | 0x80 => packed [(v.fwcomp.toNat, 0), (v.fwcmd.toNat, 8), (bit v.fwbusy 10, 0), (v.fwresult.toNat, 11)]
    | 0x88 => packed [(v.fwsrc.toNat, 0)]
    | _ => 0

/-! ## Writes -/

/-- REGISTER_WRITE: a register stores its RW fields and does what a write to it starts; other offsets ignore the
write (19 R408). -/
def execRegisterWrite (mgmt : Bool) (off : Nat) (v : Word) (s : State) : Out :=
  if mgmt then writeMgmt off v s else writeHost off v s

end Sys2Proof.Machine
end

