-- ==== Sys2Proof/Machine/Valu.lean ====
section
/-! DEFINITION. VALU: integer element operations, moves, comparisons, widening, narrowing and predicates
(05 R140 to R146); SETVL (R134). -/
namespace Sys2Proof.Machine

/-- A binary VALU word (05 R141): `f` gives the w-bit result from the type, a and b. SX takes b from x[vs3]. -/
def valuBin (mk : VWord → Instr) (w : VWord) (f : Nat → Nat → Nat → Nat) (s : State) : Out :=
  slotOp mk w false s fun k h w =>
    let n := tyBits w
    let sx := w.imm.getLsbD 0
    match vecCheck s k h w (vlmax h.vgrant w.ty.toNat n) (if sx then [src1 w] else [src1 w, src2 w]) (some w.vd) with
    | .error e => .error e
    | .ok vl => .ok (vecWrite s k h w n vl fun i =>
        (f w.ty.toNat (elemAt (h.vreg w.vs1) n i)
          (if sx then (h.rd w.vs3).toNat % 2 ^ n else elemAt (h.vreg w.vs2) n i), 0))

/-- An exact integer result, modulo 2^w (05 R141). -/
def onInts (f : Int → Int → Int) (t a b : Nat) : Nat := wrapInt (Ty.width t) (f (intElem t a) (intElem t b))

/-- VADD (05 R141). -/
def execVadd (w : VWord) (s : State) : Out := valuBin .vadd w (onInts fun a b => a + b) s
/-- VSUB (05 R141). -/
def execVsub (w : VWord) (s : State) : Out := valuBin .vsub w (onInts fun a b => a - b) s
/-- VMUL (05 R141). -/
def execVmul (w : VWord) (s : State) : Out := valuBin .vmul w (onInts fun a b => a * b) s
/-- VMULH (05 R141): the high half of the exact product. -/
def execVmulh (w : VWord) (s : State) : Out :=
  valuBin .vmulh w (fun t => onInts (fun a b => (a * b) / (2 ^ Ty.width t : Nat)) t) s
/-- VMIN (05 R141). -/
def execVmin (w : VWord) (s : State) : Out := valuBin .vmin w (onInts min) s
/-- VMAX (05 R141). -/
def execVmax (w : VWord) (s : State) : Out := valuBin .vmax w (onInts max) s
/-- VAND (05 R141). -/
def execVand (w : VWord) (s : State) : Out := valuBin .vand w (fun _ a b => a &&& b) s
/-- VOR (05 R141). -/
def execVor (w : VWord) (s : State) : Out := valuBin .vor w (fun _ a b => a ||| b) s
/-- VXOR (05 R141). -/
def execVxor (w : VWord) (s : State) : Out := valuBin .vxor w (fun _ a b => a ^^^ b) s
/-- VSLL (05 R141). -/
def execVsll (w : VWord) (s : State) : Out :=
  valuBin .vsll w (fun t a b => a * 2 ^ (b % Ty.width t) % 2 ^ Ty.width t) s
/-- VSRL (05 R141). -/
def execVsrl (w : VWord) (s : State) : Out := valuBin .vsrl w (fun t a b => a / 2 ^ (b % Ty.width t)) s
/-- VSRA (05 R141): fills with the top bit, for z-types too. -/
def execVsra (w : VWord) (s : State) : Out :=
  valuBin .vsra w (fun t a b =>
    wrapInt (Ty.width t) (signedOf (Ty.width t) a / (2 ^ (b % Ty.width t) : Nat))) s
/-- VSADD (05 R141). -/
def execVsadd (w : VWord) (s : State) : Out :=
  valuBin .vsadd w (fun t a b => satBits t (intElem t a + intElem t b)) s
/-- VSSUB (05 R141). -/
def execVssub (w : VWord) (s : State) : Out :=
  valuBin .vssub w (fun t a b => satBits t (intElem t a - intElem t b)) s
/-- VABSD (05 R141). -/
def execVabsd (w : VWord) (s : State) : Out :=
  valuBin .vabsd w (onInts fun a b => ((a - b).natAbs : Int)) s

/-- VMERGE (05 R143): the predicate selects the source and masks nothing. -/
def execVmerge (w : VWord) (s : State) : Out :=
  slotOp .vmerge w false s fun k h w =>
    let n := tyBits w
    match vecCheck s k h w (vlmax h.vgrant w.ty.toNat n) [src1 w, src2 w] (some w.vd) with
    | .error e => .error e
    | .ok vl => .ok (vecWrite s k h { w with me := false } n vl fun i =>
        (elemAt (if activeAt w h i then h.vreg w.vs2 else h.vreg w.vs1) n i, 0))

/-- VMOVX to a vector (05 R143, DIR 0), or from element x[vs3] of one to x[vd] (DIR 1). -/
def execVmovx (w : VWord) (s : State) : Out :=
  slotOp .vmovx w (w.imm.getLsbD 0) s fun k h w =>
    let n := tyBits w
    let bound := vlmax h.vgrant w.ty.toNat n
    let x := (h.rd w.vs3).toNat
    if w.imm.getLsbD 0 then
      match vecCheck s k h w bound [src1 w] none with
      | .error e => .error e
      | .ok vl =>
        if vl = 0 then .ok s
        else
          let r : Word := if x < vl then BitVec.ofInt 64 (intElem w.ty.toNat (elemAt (h.vreg w.vs1) n x)) else 0
          .ok (s.wrX k w.vd r)
    else
      match vecCheck s k h w bound [] (some w.vd) with
      | .error e => .error e
      | .ok vl => .ok (vecWrite s k h w n vl fun _ => (x % 2 ^ n, 0))

/-- VIDX (05 R143). -/
def execVidx (w : VWord) (s : State) : Out :=
  slotOp .vidx w false s fun k h w =>
    let n := tyBits w
    match vecCheck s k h w (vlmax h.vgrant w.ty.toNat n) [] (some w.vd) with
    | .error e => .error e
    | .ok vl => .ok (vecWrite s k h w n vl fun i => (((h.rd w.vs3).toNat + i) % 2 ^ n, 0))

/-- The conditions of VCMP (05 R144). -/
def intCond (cond : Nat) (a b : Int) : Bool :=
  match cond with
  | 0 => decide (a = b) | 1 => decide (a ≠ b) | 2 => decide (a < b)
  | 3 => decide (b ≤ a) | 4 => decide (a ≤ b) | _ => decide (b < a)

/-- VCMP (05 R144). -/
def execVcmp (w : VWord) (s : State) : Out :=
  slotOp .vcmp w false s fun k h w =>
    let n := tyBits w
    let t := w.ty.toNat
    let sx := w.imm.getLsbD 0
    match vecCheck s k h w (vlmax h.vgrant t n) (if sx then [src1 w] else [src1 w, src2 w]) none with
    | .error e => .error e
    | .ok vl => .ok (predWrite s k h w vl fun i =>
        (intCond (bitsAt w.imm.toNat 1 3) (intElem t (elemAt (h.vreg w.vs1) n i))
          (intElem t (if sx then (h.rd w.vs3).toNat % 2 ^ n else elemAt (h.vreg w.vs2) n i)), 0))

/-- VWMUL and VWADD (05 R145): exact results of twice the width. -/
def valuWiden (mk : VWord → Instr) (w : VWord) (f : Int → Int → Int) (s : State) : Out :=
  slotOp mk w false s fun k h w =>
    let n := tyBits w
    let t := w.ty.toNat
    match vecCheck s k h w (vlmax h.vgrant t (2 * n)) [src1 w, src2 w] (some w.vd) with
    | .error e => .error e
    | .ok vl => .ok (vecWrite s k h w (2 * n) vl fun i =>
        (wrapInt (2 * n) (f (intElem t (elemAt (h.vreg w.vs1) n i)) (intElem t (elemAt (h.vreg w.vs2) n i))), 0))

/-- VWMUL (05 R145). -/
def execVwmul (w : VWord) (s : State) : Out := valuWiden .vwmul w (fun a b => a * b) s
/-- VWADD (05 R145). -/
def execVwadd (w : VWord) (s : State) : Out := valuWiden .vwadd w (fun a b => a + b) s

/-- VNARROW (05 R145). -/
def execVnarrow (w : VWord) (s : State) : Out :=
  slotOp .vnarrow w false s fun k h w =>
    let n := tyBits w
    match vecCheck s k h w (vlmax h.vgrant w.ty.toNat n) [src1 w] (some w.vd) with
    | .error e => .error e
    | .ok vl => .ok (vecWrite s k h w (n / 2) vl fun i =>
        narrowElem w.ty.toNat (bitsAt w.imm.toNat 0 6) (cvtMode h.frm w.rm h.srseed h.srbase)
          (elemAt (h.vreg w.vs1) n i) i)

/-! ## Predicates (05 R146) -/

/-- PAND to PSET: `f` gives each bit from those of ps1 and ps2. -/
def predOp (mk : VWord → Instr) (w : VWord) (f : Bool → Bool → Bool) (s : State) : Out :=
  slotOp mk w false s fun k h w =>
    match vlCheck h w (vlmax h.vgrant w.ty.toNat (tyBits w)) with
    | .error e => .error e
    | .ok vl => .ok (predWrite s k h w vl fun i =>
        (f ((h.preg w.vs1.toNat).getLsbD i) ((h.preg w.vs2.toNat).getLsbD i), 0))

/-- PAND (05 R146). -/
def execPand (w : VWord) (s : State) : Out := predOp .pand w (fun a b => a && b) s
/-- POR (05 R146). -/
def execPor (w : VWord) (s : State) : Out := predOp .por w (fun a b => a || b) s
/-- PXOR (05 R146). -/
def execPxor (w : VWord) (s : State) : Out := predOp .pxor w (fun a b => a != b) s
/-- PANDN (05 R146). -/
def execPandn (w : VWord) (s : State) : Out := predOp .pandn w (fun a b => a && !b) s
/-- PSET (05 R146). -/
def execPset (w : VWord) (s : State) : Out := predOp .pset w (fun _ _ => w.imm.getLsbD 0) s

/-- The active elements of ps1 that are 1, below vl. -/
def predHits (w : VWord) (h : Hart) (vl : Nat) : List Nat :=
  (List.range vl).filter fun i => activeAt w h i && (h.preg w.vs1.toNat).getLsbD i

/-- PCNT and PFIRST write x[vd] from the hits and vl. -/
def predScan (mk : VWord → Instr) (w : VWord) (f : List Nat → Nat → Nat) (s : State) : Out :=
  slotOp mk w true s fun k h w =>
    match vlCheck h w (vlmax h.vgrant w.ty.toNat (tyBits w)) with
    | .error e => .error e
    | .ok vl => .ok (if vl = 0 then s else s.wrX k w.vd (BitVec.ofNat 64 (f (predHits w h vl) vl)))

/-- PCNT (05 R146). -/
def execPcnt (w : VWord) (s : State) : Out := predScan .pcnt w (fun l _ => l.length) s
/-- PFIRST (05 R146). -/
def execPfirst (w : VWord) (s : State) : Out := predScan .pfirst w (fun l vl => l.headD vl) s

/-! ## SETVL (05 R134) -/

/-- SETVL of either form; `dist` is the register of a distance form. VEC_ABSENT of the type dyn has TVAL2 0: the rules
give no value for it outside a convoy (DESIGN CHOICE, log 60). -/
def setvlOp (i : Instr) (d a : Reg) (dist : Option Reg) (ty : BitVec 5) (s : State) : Out :=
  scalarOp s fun k h =>
    if isSeqPlace k then raise cIllegal (parcelWord i)
    else if ty = 31 ∧ h.vstate = .off then raise cVecAbsent 0 0
    else
      let t := if ty = 31 then h.vtype.toNat else ty.toNat
      if Ty.isFormat t = false then raise cIllegal (parcelWord i)
      else
        let n := min (h.rd a).toNat (vlmax h.vgrant t (Ty.width t))
        let n := match dist with
          | some b => if h.rd b = 0 then n else min n (h.rd b).toNat
          | none => n
        .ok (s.wrX k d (BitVec.ofNat 64 (if Ty.isBfp t then 32 * (n / 32) else n)))

/-- SETVL (05 R134). -/
def execSetvl (d a : Reg) (ty : BitVec 5) (s : State) : Out := setvlOp (.setvl d a ty) d a none ty s
/-- SETVL, the distance form (05 R134). -/
def execSetvlDistance (d a b : Reg) (ty : BitVec 5) (s : State) : Out :=
  setvlOp (.setvlDistance d a b ty) d a (some b) ty s

end Sys2Proof.Machine
end

