-- ==== Sys2Proof/Machine/Vperm.lean ====
section
/-! DEFINITION. VPERM: permutes, which in a BFP type move whole blocks, and reductions (05 R151 to R153). -/
namespace Sys2Proof.Machine

/-- A permute (05 R151, R152): `slide` says that x[vs3] must be a multiple of 32 in a BFP type,
`idx` that vs2 holds indices, z16 in a BFP type; `f` gives unit i
from vl, k = x[vs3] and the sources, or none where the destination is not written at all. -/
def permOp (mk : VWord → Instr) (w : VWord) (two slide idx : Bool)
    (f : VWord → Nat → Nat → (Nat → Nat) → (Nat → Nat) → Nat → Option Nat) (s : State) : Out :=
  slotOp mk w true s fun k h w =>
    let t := w.ty.toNat
    let n := unitBits t
    let x := (h.rd w.vs3).toNat
    match vecCheck s k h w (vlmax h.vgrant t (tyBits w)) (if two then [src1 w, src2 w] else [src1 w]) (some w.vd) with
    | .error e => .error e
    | .ok vl =>
      if slide = true ∧ Ty.isBfp t = true ∧ x % 32 ≠ 0 then raise cVlRange (h.rd w.vs3) (h.slot.zeroExtend 64)
      else if vl = 0 then .ok s
      else
        let a := elemAt (h.vreg w.vs1) n
        let b := elemAt (h.vreg w.vs2) (if idx && Ty.isBfp t then 16 else n)
        let r := (List.range (unitsOf t vl)).foldl (fun (v : BitVec 16384) i =>
          match f w (unitsOf t vl) (unitsOf t x) a b i with
          | none => v
          | some e => if activeAt w h i then putField v (n * i) n e else if w.pol then putField v (n * i) n 0 else v)
          (h.vreg w.vd)
        .ok (s.setHart k (h.putV w.vd (if Ty.isBfp t then bfpTrim h.vgrant t r else r)))

/-- VPERM (05 R151; R152: z16 indices in a BFP type). -/
def execVperm (w : VWord) (s : State) : Out :=
  permOp .vperm w true false true (fun _ vl _ a b i => some (if b i < vl then a (b i) else 0)) s
/-- VSLIDEUP (05 R151). -/
def execVslideup (w : VWord) (s : State) : Out :=
  permOp .vslideup w false true false (fun _ _ k a _ i => if i < k then none else some (a (i - k))) s
/-- VSLIDEDN (05 R151). -/
def execVslidedn (w : VWord) (s : State) : Out :=
  permOp .vslidedn w false true false (fun _ vl k a _ i => some (if i + k < vl then a (i + k) else 0)) s
/-- VBCASTE (05 R151; R152: the block that holds the element). -/
def execVbcaste (w : VWord) (s : State) : Out :=
  permOp .vbcaste w false false false (fun _ vl k a _ _ => some (if k < vl then a k else 0)) s
/-- VZIP (05 R151). -/
def execVzip (w : VWord) (s : State) : Out :=
  permOp .vzip w true false false (fun _ _ _ a b i => some (if i % 2 = 0 then a (i / 2) else b (i / 2))) s
/-- VUNZIP (05 R151). -/
def execVunzip (w : VWord) (s : State) : Out :=
  permOp .vunzip w true false false (fun w vl _ a b i =>
    let j := 2 * i + w.imm.toNat % 2
    some (if j < vl then a j else b (j - vl))) s

/-- VCOMPRESS and VEXPAND (05 R151): the predicate is a selector. `f` gives unit i from the active positions. -/
def selectOp (mk : VWord → Instr) (w : VWord) (f : List Nat → (Nat → Nat) → Nat → Option Nat) (s : State) : Out :=
  slotOp mk w true s fun k h w =>
    let n := tyBits w
    match vecCheck s k h w (vlmax h.vgrant w.ty.toNat n) [src1 w] (some w.vd) with
    | .error e => .error e
    | .ok vl =>
      if vl = 0 then .ok s
      else
        let act := (List.range vl).filter (activeAt w h)
        let r := (List.range vl).foldl (fun (v : BitVec 16384) i =>
          match f act (elemAt (h.vreg w.vs1) n) i with
          | some e => putField v (n * i) n e
          | none => if w.pol then putField v (n * i) n 0 else v) (h.vreg w.vd)
        .ok (s.setHart k (h.putV w.vd r))

/-- VCOMPRESS (05 R151). -/
def execVcompress (w : VWord) (s : State) : Out := selectOp .vcompress w (fun act a i => act[i]?.map a) s
/-- VEXPAND (05 R151). -/
def execVexpand (w : VWord) (s : State) : Out := selectOp .vexpand w (fun act a i => (act.idxOf? i).map a) s

/-! ## Reductions (05 R153, 02 R61) -/

/-- One level of the tree. -/
def treeLevel {β : Type} (f : β → β → β) : List β → List β
  | a :: b :: t => f a b :: treeLevel f t
  | l => l

/-- The tree over a list of 2^n values. -/
def treeFold {β : Type} (f : β → β → β) (d : β) : Nat → List β → β
  | 0, l => l.headD d
  | n + 1, l => treeFold f d n (treeLevel f l)

/-- The levels of the tree for `vl` elements: the log of the smallest power of two at least vl. -/
def treeDepth (vl : Nat) : Nat := if vl ≤ 1 then 0 else Nat.log2 (vl - 1) + 1

/-- A reduction: `ident` is the identity of the type, `f` combines two elements with flags. -/
def reduceOp (mk : VWord → Instr) (w : VWord) (ident : Nat → Nat) (f : Nat → RMode → Nat → Nat → Nat × Flags)
    (s : State) : Out :=
  slotOp mk w true s fun k h w =>
    let n := tyBits w
    let t := w.ty.toNat
    match vecCheck s k h w (vlmax h.vgrant t n) [src1 w, src2 w] (some w.vd) with
    | .error e => .error e
    | .ok vl =>
      if vl = 0 then .ok s
      else
        let comb (a b : Nat × Flags) : Nat × Flags :=
          let r := f t (arithMode h.frm w.rm) a.1 b.1
          (r.1, a.2 ||| b.2 ||| r.2)
        let d := treeDepth vl
        let leaves := (List.range (2 ^ d)).map fun i =>
          ((if i < vl ∧ activeAt w h i = true then elemAt (h.vreg w.vs1) n i else ident t, 0) : Nat × Flags)
        let r := comb (elemAt (h.vreg w.vs2) n 0, 0) (treeFold comb (ident t, 0) d leaves)
        .ok (s.setHart k ((h.putV w.vd (putField (h.vreg w.vd) 0 n r.1)).addFlags r.2))

/-- VREDSUM (05 R153). -/
def execVredsum (w : VWord) (s : State) : Out :=
  reduceOp .vredsum w (fun _ => 0) (fun t _ a b => ((a + b) % 2 ^ Ty.width t, 0)) s
/-- VREDMAX (05 R153). -/
def execVredmax (w : VWord) (s : State) : Out :=
  reduceOp .vredmax w (fun t => wrapInt (Ty.width t) (intMin t))
    (fun t _ a b => (if intElem t a < intElem t b then b else a, 0)) s
/-- VREDMIN (05 R153). -/
def execVredmin (w : VWord) (s : State) : Out :=
  reduceOp .vredmin w (fun t => wrapInt (Ty.width t) (intMax t))
    (fun t _ a b => (if intElem t b < intElem t a then b else a, 0)) s
/-- VFREDSUM (05 R153): the identity is −0 (02 R61). -/
def execVfredsum (w : VWord) (s : State) : Out :=
  reduceOp .vfredsum w (fun t => signBit t true) (fun t m a b => fAdd t m (decodeF t a) (decodeF t b)) s

end Sys2Proof.Machine
end

