-- ==== Sys2Proof/Machine/Dispatch.lean ====
section
/-! DEFINITION. The meaning of every constructor of Instr: one arm each, one direct call. -/
namespace Sys2Proof.Machine

def exec (i : Instr) (s : State) : Host.Outcome State Fault Refusal :=
  match i with
  | .add d a b => Sys2Proof.Machine.execAdd d a b s
  | .addW d a b => Sys2Proof.Machine.execAddW d a b s
  | .sub d a b => Sys2Proof.Machine.execSub d a b s
  | .subW d a b => Sys2Proof.Machine.execSubW d a b s
  | .and d a b => Sys2Proof.Machine.execAnd d a b s
  | .or d a b => Sys2Proof.Machine.execOr d a b s
  | .xor d a b => Sys2Proof.Machine.execXor d a b s
  | .andn d a b => Sys2Proof.Machine.execAndn d a b s
  | .sll d a b => Sys2Proof.Machine.execSll d a b s
  | .sllW d a b => Sys2Proof.Machine.execSllW d a b s
  | .srl d a b => Sys2Proof.Machine.execSrl d a b s
  | .srlW d a b => Sys2Proof.Machine.execSrlW d a b s
  | .sra d a b => Sys2Proof.Machine.execSra d a b s
  | .sraW d a b => Sys2Proof.Machine.execSraW d a b s
  | .rol d a b => Sys2Proof.Machine.execRol d a b s
  | .ror d a b => Sys2Proof.Machine.execRor d a b s
  | .slt d a b => Sys2Proof.Machine.execSlt d a b s
  | .sltn d a b => Sys2Proof.Machine.execSltn d a b s
  | .min d a b => Sys2Proof.Machine.execMin d a b s
  | .max d a b => Sys2Proof.Machine.execMax d a b s
  | .minn d a b => Sys2Proof.Machine.execMinn d a b s
  | .maxn d a b => Sys2Proof.Machine.execMaxn d a b s
  | .mul d a b => Sys2Proof.Machine.execMul d a b s
  | .mulW d a b => Sys2Proof.Machine.execMulW d a b s
  | .mulh d a b => Sys2Proof.Machine.execMulh d a b s
  | .mulhn d a b => Sys2Proof.Machine.execMulhn d a b s
  | .div d a b => Sys2Proof.Machine.execDiv d a b s
  | .divW d a b => Sys2Proof.Machine.execDivW d a b s
  | .divn d a b => Sys2Proof.Machine.execDivn d a b s
  | .divnW d a b => Sys2Proof.Machine.execDivnW d a b s
  | .rem d a b => Sys2Proof.Machine.execRem d a b s
  | .remW d a b => Sys2Proof.Machine.execRemW d a b s
  | .remn d a b => Sys2Proof.Machine.execRemn d a b s
  | .remnW d a b => Sys2Proof.Machine.execRemnW d a b s
  | .clz d a => Sys2Proof.Machine.execClz d a s
  | .ctz d a => Sys2Proof.Machine.execCtz d a s
  | .popc d a => Sys2Proof.Machine.execPopc d a s
  | .addi d a imm => Sys2Proof.Machine.execAddi d a imm s
  | .andi d a imm => Sys2Proof.Machine.execAndi d a imm s
  | .ori d a imm => Sys2Proof.Machine.execOri d a imm s
  | .xori d a imm => Sys2Proof.Machine.execXori d a imm s
  | .slti d a imm => Sys2Proof.Machine.execSlti d a imm s
  | .sltni d a imm => Sys2Proof.Machine.execSltni d a imm s
  | .slli d a sh => Sys2Proof.Machine.execSlli d a sh s
  | .srli d a sh => Sys2Proof.Machine.execSrli d a sh s
  | .srai d a sh => Sys2Proof.Machine.execSrai d a sh s
  | .rori d a sh => Sys2Proof.Machine.execRori d a sh s
  | .ldhi d imm => Sys2Proof.Machine.execLdhi d imm s
  | .addpc d imm => Sys2Proof.Machine.execAddpc d imm s
  | .ld d a cls size sx imm => Sys2Proof.Machine.execLd d a cls size sx imm s
  | .st b a cls size imm => Sys2Proof.Machine.execSt b a cls size imm s
  | .beq a b off => Sys2Proof.Machine.execBeq a b off s
  | .bne a b off => Sys2Proof.Machine.execBne a b off s
  | .blt a b off => Sys2Proof.Machine.execBlt a b off s
  | .bge a b off => Sys2Proof.Machine.execBge a b off s
  | .bltn a b off => Sys2Proof.Machine.execBltn a b off s
  | .bgen a b off => Sys2Proof.Machine.execBgen a b off s
  | .jal d off => Sys2Proof.Machine.execJal d off s
  | .jalr d a imm => Sys2Proof.Machine.execJalr d a imm s
  | .amoswap d a b sem scope w => Sys2Proof.Machine.execAmoswap d a b sem scope w s
  | .amoadd d a b sem scope w => Sys2Proof.Machine.execAmoadd d a b sem scope w s
  | .amoand d a b sem scope w => Sys2Proof.Machine.execAmoand d a b sem scope w s
  | .amoor d a b sem scope w => Sys2Proof.Machine.execAmoor d a b sem scope w s
  | .amoxor d a b sem scope w => Sys2Proof.Machine.execAmoxor d a b sem scope w s
  | .amomin d a b sem scope w => Sys2Proof.Machine.execAmomin d a b sem scope w s
  | .amomax d a b sem scope w => Sys2Proof.Machine.execAmomax d a b sem scope w s
  | .amominn d a b sem scope w => Sys2Proof.Machine.execAmominn d a b sem scope w s
  | .amomaxn d a b sem scope w => Sys2Proof.Machine.execAmomaxn d a b sem scope w s
  | .cas d a b sem scope w => Sys2Proof.Machine.execCas d a b sem scope w s
  | .fence mask scope => Sys2Proof.Machine.execFence mask scope s
  | .fenceI => Sys2Proof.Machine.execFenceI s
  | .trap code => Sys2Proof.Machine.execTrap code s
  | .rett => Sys2Proof.Machine.execRett s
  | .yield v => Sys2Proof.Machine.execYield v s
  | .waite d a => Sys2Proof.Machine.execWaite d a s
  | .csrr d csr => Sys2Proof.Machine.execCsrr d csr s
  | .csrw a csr => Sys2Proof.Machine.execCsrw a csr s
  | .csrs a csr => Sys2Proof.Machine.execCsrs a csr s
  | .csrc a csr => Sys2Proof.Machine.execCsrc a csr s
  | .csrx d a csr => Sys2Proof.Machine.execCsrx d a csr s
  | .setvl d a ty => Sys2Proof.Machine.execSetvl d a ty s
  | .setvlDistance d a b ty => Sys2Proof.Machine.execSetvlDistance d a b ty s
  | .cpw idx a => Sys2Proof.Machine.execCpw idx a s
  | .cpgo d a => Sys2Proof.Machine.execCpgo d a s
  | .tlwait a b scope => Sys2Proof.Machine.execTlwait a b scope s
  | .tlread d a => Sys2Proof.Machine.execTlread d a s
  | .binit a b => Sys2Proof.Machine.execBinit a b s
  | .barrive d a => Sys2Proof.Machine.execBarrive d a s
  | .bexp a b => Sys2Proof.Machine.execBexp a b s
  | .bwait a scope => Sys2Proof.Machine.execBwait a scope s
  | .btest d a => Sys2Proof.Machine.execBtest d a s
  | .binval a => Sys2Proof.Machine.execBinval a s
  | .klaunch d a b => Sys2Proof.Machine.execKlaunch d a b s
  | .gsync id scope => Sys2Proof.Machine.execGsync id scope s
  | .gexit => Sys2Proof.Machine.execGexit s
  | .mxgo d a => Sys2Proof.Machine.execMxgo d a s
  | .hint imm => Sys2Proof.Machine.execHint imm s
  | .vadd w => Sys2Proof.Machine.execVadd w s
  | .vsub w => Sys2Proof.Machine.execVsub w s
  | .vmul w => Sys2Proof.Machine.execVmul w s
  | .vmulh w => Sys2Proof.Machine.execVmulh w s
  | .vmin w => Sys2Proof.Machine.execVmin w s
  | .vmax w => Sys2Proof.Machine.execVmax w s
  | .vand w => Sys2Proof.Machine.execVand w s
  | .vor w => Sys2Proof.Machine.execVor w s
  | .vxor w => Sys2Proof.Machine.execVxor w s
  | .vsll w => Sys2Proof.Machine.execVsll w s
  | .vsrl w => Sys2Proof.Machine.execVsrl w s
  | .vsra w => Sys2Proof.Machine.execVsra w s
  | .vsadd w => Sys2Proof.Machine.execVsadd w s
  | .vssub w => Sys2Proof.Machine.execVssub w s
  | .vabsd w => Sys2Proof.Machine.execVabsd w s
  | .vmerge w => Sys2Proof.Machine.execVmerge w s
  | .vmovx w => Sys2Proof.Machine.execVmovx w s
  | .vidx w => Sys2Proof.Machine.execVidx w s
  | .vcmp w => Sys2Proof.Machine.execVcmp w s
  | .vwmul w => Sys2Proof.Machine.execVwmul w s
  | .vwadd w => Sys2Proof.Machine.execVwadd w s
  | .vnarrow w => Sys2Proof.Machine.execVnarrow w s
  | .pand w => Sys2Proof.Machine.execPand w s
  | .por w => Sys2Proof.Machine.execPor w s
  | .pxor w => Sys2Proof.Machine.execPxor w s
  | .pandn w => Sys2Proof.Machine.execPandn w s
  | .pset w => Sys2Proof.Machine.execPset w s
  | .pcnt w => Sys2Proof.Machine.execPcnt w s
  | .pfirst w => Sys2Proof.Machine.execPfirst w s
  | .vfadd w => Sys2Proof.Machine.execVfadd w s
  | .vfsub w => Sys2Proof.Machine.execVfsub w s
  | .vfmul w => Sys2Proof.Machine.execVfmul w s
  | .vfma w => Sys2Proof.Machine.execVfma w s
  | .vfms w => Sys2Proof.Machine.execVfms w s
  | .vfnma w => Sys2Proof.Machine.execVfnma w s
  | .vfdiv w => Sys2Proof.Machine.execVfdiv w s
  | .vfsqrt w => Sys2Proof.Machine.execVfsqrt w s
  | .vfmin w => Sys2Proof.Machine.execVfmin w s
  | .vfmax w => Sys2Proof.Machine.execVfmax w s
  | .vfcmp w => Sys2Proof.Machine.execVfcmp w s
  | .vfcvt w => Sys2Proof.Machine.execVfcvt w s
  | .vfrece w => Sys2Proof.Machine.execVfrece w s
  | .vfrsqe w => Sys2Proof.Machine.execVfrsqe w s
  | .vld w => Sys2Proof.Machine.execVld w s
  | .vlds w => Sys2Proof.Machine.execVlds w s
  | .vldx w => Sys2Proof.Machine.execVldx w s
  | .vldff w => Sys2Proof.Machine.execVldff w s
  | .vst w => Sys2Proof.Machine.execVst w s
  | .vsts w => Sys2Proof.Machine.execVsts w s
  | .vstx w => Sys2Proof.Machine.execVstx w s
  | .vperm w => Sys2Proof.Machine.execVperm w s
  | .vslideup w => Sys2Proof.Machine.execVslideup w s
  | .vslidedn w => Sys2Proof.Machine.execVslidedn w s
  | .vcompress w => Sys2Proof.Machine.execVcompress w s
  | .vexpand w => Sys2Proof.Machine.execVexpand w s
  | .vbcaste w => Sys2Proof.Machine.execVbcaste w s
  | .vzip w => Sys2Proof.Machine.execVzip w s
  | .vunzip w => Sys2Proof.Machine.execVunzip w s
  | .vredsum w => Sys2Proof.Machine.execVredsum w s
  | .vredmax w => Sys2Proof.Machine.execVredmax w s
  | .vredmin w => Sys2Proof.Machine.execVredmin w s
  | .vfredsum w => Sys2Proof.Machine.execVfredsum w s
  | .vxqadd w => Sys2Proof.Machine.execVxqadd w s
  | .vxqmax w => Sys2Proof.Machine.execVxqmax w s
  | .vxqfma w => Sys2Proof.Machine.execVxqfma w s
  | .vexta w => Sys2Proof.Machine.execVexta w s
  | .vinsa w => Sys2Proof.Machine.execVinsa w s
  | .vzera w => Sys2Proof.Machine.execVzera w s
  | .srd w => Sys2Proof.Machine.execSrd w s
  | .srstat w => Sys2Proof.Machine.execSrstat w s
  | .mma w => Sys2Proof.Machine.execMma w s
  | .mzero w => Sys2Proof.Machine.execMzero w s
  | .mtld w => Sys2Proof.Machine.execMtld w s
  | .mtst w => Sys2Proof.Machine.execMtst w s
  | .mqld w => Sys2Proof.Machine.execMqld w s
  | .mqst w => Sys2Proof.Machine.execMqst w s
  | .mqadd w => Sys2Proof.Machine.execMqadd w s
  | .mqmul w => Sys2Proof.Machine.execMqmul w s
  | .chisel w => Sys2Proof.Machine.execChisel w s
  | .mqcast w => Sys2Proof.Machine.execMqcast w s
  | .mqrank w => Sys2Proof.Machine.execMqrank w s
  | .mqfree w => Sys2Proof.Machine.execMqfree w s
  | .mqscl w => Sys2Proof.Machine.execMqscl w s
  | .mthdr w => Sys2Proof.Machine.execMthdr w s
  | .act w => Sys2Proof.Machine.execAct w s
  | .pre w => Sys2Proof.Machine.execPre w s
  | .wb w => Sys2Proof.Machine.execWb w s
  | .refb w => Sys2Proof.Machine.execRefb w s
  | .refq w => Sys2Proof.Machine.execRefq w s
  | .rcopy w => Sys2Proof.Machine.execRcopy w s
  | .rzero w => Sys2Proof.Machine.execRzero w s
  | .radd w => Sys2Proof.Machine.execRadd w s
  | .rsub w => Sys2Proof.Machine.execRsub w s
  | .rmul w => Sys2Proof.Machine.execRmul w s
  | .rmax w => Sys2Proof.Machine.execRmax w s
  | .rmin w => Sys2Proof.Machine.execRmin w s
  | .rand w => Sys2Proof.Machine.execRand w s
  | .rior w => Sys2Proof.Machine.execRior w s
  | .rxor w => Sys2Proof.Machine.execRxor w s
  | .rshr w => Sys2Proof.Machine.execRshr w s
  | .rscadd w => Sys2Proof.Machine.execRscadd w s
  | .rcmp w => Sys2Proof.Machine.execRcmp w s
  | .rsel w => Sys2Proof.Machine.execRsel w s
  | .rcvt w => Sys2Proof.Machine.execRcvt w s
  | .qzero w => Sys2Proof.Machine.execQzero w s
  | .qacc w => Sys2Proof.Machine.execQacc w s
  | .qmac w => Sys2Proof.Machine.execQmac w s
  | .qwb w => Sys2Proof.Machine.execQwb w s
  | .qld w => Sys2Proof.Machine.execQld w s
  | .rsweep w => Sys2Proof.Machine.execRsweep w s
  | .shmov w => Sys2Proof.Machine.execShmov w s
  | .bufst w => Sys2Proof.Machine.execBufst w s
  | .bufld w => Sys2Proof.Machine.execBufld w s
  | .bli w => Sys2Proof.Machine.execBli w s
  | .badd w => Sys2Proof.Machine.execBadd w s
  | .bbr w => Sys2Proof.Machine.execBbr w s
  | .bloop w => Sys2Proof.Machine.execBloop w s
  | .bpset w => Sys2Proof.Machine.execBpset w s
  | .bsplit w => Sys2Proof.Machine.execBsplit w s
  | .bjoin w => Sys2Proof.Machine.execBjoin w s
  | .bsig w => Sys2Proof.Machine.execBsig w s
  | .bend w => Sys2Proof.Machine.execBend w s
  | .bwaitt w => Sys2Proof.Machine.execBwaitt w s
  | .brett w => Sys2Proof.Machine.execBrett w s
  | .bnop w => Sys2Proof.Machine.execBnop w s
  | .tacuElapsed bank slot => Sys2Proof.Machine.execTacuElapsed bank slot s
  | .rowPassEnd bank => Sys2Proof.Machine.execRowPassEnd bank s
  | .twbkElapsed bank slot => Sys2Proof.Machine.execTwbkElapsed bank slot s
  | .tpreElapsed bank slot => Sys2Proof.Machine.execTpreElapsed bank slot s
  | .rcopyComplete bank slot => Sys2Proof.Machine.execRcopyComplete bank slot s
  | .refbComplete bank => Sys2Proof.Machine.execRefbComplete bank s
  | .busMoveEnd stream => Sys2Proof.Machine.execBusMoveEnd stream s
  | .refreshInterval bank => Sys2Proof.Machine.execRefreshInterval bank s
  | .refreshDeadline stream => Sys2Proof.Machine.execRefreshDeadline stream s
  | .forcedRefresh bank => Sys2Proof.Machine.execForcedRefresh bank s
  | .plinthRefresh bank => Sys2Proof.Machine.execPlinthRefresh bank s
  | .ordinaryAccess bank group row => Sys2Proof.Machine.execOrdinaryAccess bank group row s
  | .streamYield stream => Sys2Proof.Machine.execStreamYield stream s
  | .yieldEnd stream => Sys2Proof.Machine.execYieldEnd stream s
  | .activateHint bank group row => Sys2Proof.Machine.execActivateHint bank group row s
  | .streamWake stream => Sys2Proof.Machine.execStreamWake stream s
  | .streamPark stream => Sys2Proof.Machine.execStreamPark stream s
  | .streamResume stream => Sys2Proof.Machine.execStreamResume stream s
  | .hartWake hart => Sys2Proof.Machine.execHartWake hart s
  | .hartUnstall hart => Sys2Proof.Machine.execHartUnstall hart s
  | .preempt hart => Sys2Proof.Machine.execPreempt hart s
  | .preemptionRequest group => Sys2Proof.Machine.execPreemptionRequest group s
  | .coreRecordSave group core => Sys2Proof.Machine.execCoreRecordSave group core s
  | .hartResume group member core => Sys2Proof.Machine.execHartResume group member core s
  | .tilePlacement ctx queue cores => Sys2Proof.Machine.execTilePlacement ctx queue cores s
  | .queueAging ctx queue => Sys2Proof.Machine.execQueueAging ctx queue s
  | .kernelAdmission ctx queue => Sys2Proof.Machine.execKernelAdmission ctx queue s
  | .kernelComplete kernel => Sys2Proof.Machine.execKernelComplete kernel s
  | .kernelSkipped kernel => Sys2Proof.Machine.execKernelSkipped kernel s
  | .tileHardwareFault group core coreLost => Sys2Proof.Machine.execTileHardwareFault group core coreLost s
  | .accHandoff core acc => Sys2Proof.Machine.execAccHandoff core acc s
  | .matrixWordComplete core => Sys2Proof.Machine.execMatrixWordComplete core s
  | .gatherDelivered hart vd => Sys2Proof.Machine.execGatherDelivered hart vd s
  | .transferOpStart ctx chan num => Sys2Proof.Machine.execTransferOpStart ctx chan num s
  | .elementGroupLands ctx chan num => Sys2Proof.Machine.execElementGroupLands ctx chan num s
  | .transferOpComplete ctx chan num => Sys2Proof.Machine.execTransferOpComplete ctx chan num s
  | .transferOpFault ctx chan num => Sys2Proof.Machine.execTransferOpFault ctx chan num s
  | .lamAdmission ctx chan num => Sys2Proof.Machine.execLamAdmission ctx chan num s
  | .lamDeadline tower entry => Sys2Proof.Machine.execLamDeadline tower entry s
  | .lamComputeStart tower entry => Sys2Proof.Machine.execLamComputeStart tower entry s
  | .lamWeightFault tower entry => Sys2Proof.Machine.execLamWeightFault tower entry s
  | .lamComputeEnd tower entry => Sys2Proof.Machine.execLamComputeEnd tower entry s
  | .lamSplitComplete tower entry => Sys2Proof.Machine.execLamSplitComplete tower entry s
  | .createContext addr => Sys2Proof.Machine.execCreateContext addr s
  | .enableQueue addr => Sys2Proof.Machine.execEnableQueue addr s
  | .disableQueue addr => Sys2Proof.Machine.execDisableQueue addr s
  | .suspendContext addr => Sys2Proof.Machine.execSuspendContext addr s
  | .resumeContext addr => Sys2Proof.Machine.execResumeContext addr s
  | .clearContextFault addr => Sys2Proof.Machine.execClearContextFault addr s
  | .destroyContext addr => Sys2Proof.Machine.execDestroyContext addr s
  | .ringNotify addr => Sys2Proof.Machine.execRingNotify addr s
  | .tlbinvVa ctx => Sys2Proof.Machine.execTlbinvVa ctx s
  | .tlbinvAll ctx => Sys2Proof.Machine.execTlbinvAll ctx s
  | .tlbinvDone => Sys2Proof.Machine.execTlbinvDone s
  | .acctrSelect => Sys2Proof.Machine.execAcctrSelect s
  | .acctrClear => Sys2Proof.Machine.execAcctrClear s
  | .remapRetireBank tower pc bank => Sys2Proof.Machine.execRemapRetireBank tower pc bank s
  | .remapSetFloor tower floor => Sys2Proof.Machine.execRemapSetFloor tower floor s
  | .remapDone => Sys2Proof.Machine.execRemapDone s
  | .hosterrClear => Sys2Proof.Machine.execHosterrClear s
  | .podidWrite v => Sys2Proof.Machine.execPodidWrite v s
  | .registerWrite mgmt off v => Sys2Proof.Machine.execRegisterWrite mgmt off v s
  | .hostBar2Read addr len => Sys2Proof.Machine.execHostBar2Read addr len s
  | .hostBar2Write addr data => Sys2Proof.Machine.execHostBar2Write addr data s
  | .poolPortUp port width size => Sys2Proof.Machine.execPoolPortUp port width size s
  | .poolPortDown port => Sys2Proof.Machine.execPoolPortDown port s
  | .ulportEnable port => Sys2Proof.Machine.execUlportEnable port s
  | .ulportDrain port => Sys2Proof.Machine.execUlportDrain port s
  | .ulportRetireLane port lane => Sys2Proof.Machine.execUlportRetireLane port lane s
  | .laneTrainingDone port lanes peer peerPort => Sys2Proof.Machine.execLaneTrainingDone port lanes peer peerPort s
  | .laneErrorThreshold port lane => Sys2Proof.Machine.execLaneErrorThreshold port lane s
  | .partnerLost port => Sys2Proof.Machine.execPartnerLost port s
  | .portDrained port => Sys2Proof.Machine.execPortDrained port s
  | .flitReceived port flit => Sys2Proof.Machine.execFlitReceived port flit s
  | .podRequestReceived peer addr op => Sys2Proof.Machine.execPodRequestReceived peer addr op s
  | .podResponseReceived peer req reply => Sys2Proof.Machine.execPodResponseReceived peer req reply s
  | .laneRateChange core half => Sys2Proof.Machine.execLaneRateChange core half s
  | .voltageDroop core => Sys2Proof.Machine.execVoltageDroop core s
  | .wayGate tower => Sys2Proof.Machine.execWayGate tower s
  | .wayEnable tower => Sys2Proof.Machine.execWayEnable tower s
  | .hotTrip die col => Sys2Proof.Machine.execHotTrip die col s
  | .hotClear die col => Sys2Proof.Machine.execHotClear die col s
  | .throttleTrip die col => Sys2Proof.Machine.execThrottleTrip die col s
  | .throttleClear die col => Sys2Proof.Machine.execThrottleClear die col s
  | .critTrip die col => Sys2Proof.Machine.execCritTrip die col s
  | .supplyLoss => Sys2Proof.Machine.execSupplyLoss s
  | .hardPowerOff => Sys2Proof.Machine.execHardPowerOff s
  | .watchdogExpiry => Sys2Proof.Machine.execWatchdogExpiry s
  | .bistGo tower pc bank => Sys2Proof.Machine.execBistGo tower pc bank s
  | .bistDone pass => Sys2Proof.Machine.execBistDone pass s
  | .fwCommit => Sys2Proof.Machine.execFwCommit s
  | .fwAttest => Sys2Proof.Machine.execFwAttest s
  | .fwBootromRestore => Sys2Proof.Machine.execFwBootromRestore s
  | .deviceReset => Sys2Proof.Machine.execDeviceReset s
  | .taprElapsed bank slot => Sys2Proof.Machine.execTaprElapsed bank slot s
  | .taadElapsed bank => Sys2Proof.Machine.execTaadElapsed bank s
  | .tfawWindowElapsed tower pc => Sys2Proof.Machine.execTfawWindowElapsed tower pc s
  | .yieldRowCopyEnd bank => Sys2Proof.Machine.execYieldRowCopyEnd bank s
  | .plinthBufferCrossingEnd tower entry => Sys2Proof.Machine.execPlinthBufferCrossingEnd tower entry s

end Sys2Proof.Machine
end

