-- ==== Sys2Proof/Machine/Fetch.lean ====
section
/-! DEFINITION. Fetching and decoding what a hart, a sequencer or a bank stream issues (03 R68 to R70, R76 to R91;
18 R398), and what a failure on the way does. -/
namespace Sys2Proof.Machine

/-! ## Parcels and slot words -/

/-- The place and value of `n` bytes fetched at an address. A unit that cannot be corrected traps as a hart's read
(07 R201). -/
def fetchBytes (s : State) (h : Hart) (va : Word) (n : Nat) : Except Stop (Leaf × Nat) := hartLoad s h va n .fetch 0

/-- The `n` words of a convoy, from an address (03 R79): each with its place. -/
def fetchWords (s : State) (h : Hart) (va : Word) : Nat → Except Stop (List (Leaf × BitVec 64))
  | 0 => .ok []
  | n + 1 =>
    match fetchBytes s h va 8 with
    | .error e => .error e
    | .ok (l, v) =>
      match fetchWords s h (va + 8) n with
      | .error e => .error e
      | .ok r => .ok ((l, BitVec.ofNat 64 v) :: r)

/-- The fetch of `n` parcels from an address: of the slots after a header that lies at 0 modulo 8 (03 R69, R91). -/
def fetchParcels (s : State) (h : Hart) (va : Word) : Nat → Except Stop Unit
  | 0 => .ok ()
  | n + 1 =>
    match fetchBytes s h va 4 with
    | .error e => .error e
    | .ok _ => fetchParcels s h (va + 4) n

/-! ## The checks of a convoy (03 R69, R78, R79, R91) -/

/-- Element bits of a slot word's type, dyn read from VTYPE: none with VSTATE OFF, where a dyn slot takes VEC_ABSENT
whatever VTYPE holds (02 R39). Every BFP type counts as one of 8 bits (DESIGN CHOICE, log 60). -/
def slotBits (h : Hart) (w : BitVec 64) : Option Nat :=
  let t := (fld w 38 5).toNat
  if t ≠ Ty.dyn then some (Ty.width t)
  else if h.vstate = .off then none
  else some (Ty.width h.vtype.toNat)

/-- All of a list are alike. -/
def allAlike {α : Type} [BEq α] : List α → Bool
  | [] => true
  | a :: r => r.all (· == a)

/-- All slots of a chained convoy name one xl and one element width (03 R78). -/
def chainOk (h : Hart) (ws : List (BitVec 64)) : Bool :=
  allAlike (ws.map fun w => fld w 28 5) && allAlike (ws.filterMap (slotBits h))

/-- The capability of the unit that a word needs and the variant lacks (01 R34 to R36). -/
def absentUnit (v : Variant) (i : Instr) : Option Nat :=
  match i with
  | .mqld _ | .mqst _ | .mqadd _ | .mqmul _ | .chisel _ | .mqcast _ | .mqrank _ | .mqfree _ | .mqscl _ =>
    if v.hasMaquette then none else some 0x0012
  | _ => none

/-- The first slot word that is not an instruction: its slot and the word. -/
def firstIllegal (p : Parcel) : Nat → List (BitVec 64) → Option (Nat × BitVec 64)
  | _, [] => none
  | i, w :: r => match decodeSlot p i w with
    | .ok _ => firstIllegal p (i + 1) r
    | .error _ => some (i, w)

/-- The first slot word whose unit is absent: its slot, the word and the capability. -/
def firstAbsent (v : Variant) (p : Parcel) : Nat → List (BitVec 64) → Option (Nat × BitVec 64 × Nat)
  | _, [] => none
  | i, w :: r => match (match decodeSlot p i w with | .ok x => absentUnit v x | .error _ => none) with
    | some c => some (i, w, c)
    | none => firstAbsent v p (i + 1) r

/-- The instructions of slot words that all decode. -/
def slotInstrs (p : Parcel) : Nat → List (BitVec 64) → List Instr
  | _, [] => []
  | i, w :: r => match decodeSlot p i w with
    | .ok x => x :: slotInstrs p (i + 1) r
    | .error _ => slotInstrs p (i + 1) r

/-- A decode trap at a slot: VSTART holds the slot (03 R79) and element 0, of which R79 says nothing (DESIGN CHOICE,
log 4), and VSTATE follows (04 R107). -/
def slotTrap (s : State) (k i : Nat) (t : Trap) : Stop :=
  .trapIn (s.modHart k fun h => { h with slot := BitVec.ofNat 3 i, elem := 0,
                                         vstate := if h.vstate = .off then .off else .dirty }) t

/-- A hart about to run the slot of a convoy of `n` slots that VSTART names. A convoy resumed inside resets VSTART as it
goes on, which is a write to vector state (04 R107). -/
def Hart.entered (h : Hart) (is : List Instr) (n : Nat) : Hart :=
  { h with slots := is.drop h.slot.toNat, nextPc := h.pc + 4 + 8 * BitVec.ofNat 64 n, entering := none,
           vstate := if (h.slot ≠ 0 ∨ h.elem ≠ 0) ∧ h.vstate ≠ .off then .dirty else h.vstate }

/-- The convoy with header `p` at the pc of the hart or sequencer at place `k` (03 R76 to R82, R91): every word's
fetch, then the header's faults, then every slot's; a COUNT of 0 or 7 names no words to fetch. The result is the hart about to run the slot
that VSTART names, and the places fetched. -/
def enterConvoy (s : State) (k : Nat) (h : Hart) (p : Parcel) : Except Stop (State × List Leaf) :=
  let illegal : Except Stop (State × List Leaf) := raise cIllegal (p.zeroExtend 64)
  let n := headerCount p
  if n = 0 ∨ n = 7 then illegal
  else if h.pc.getLsbD 2 = false then
    match fetchParcels s h (h.pc + 4) (2 * n) with
    | .error e => .error e
    | .ok _ => illegal
  else
    match fetchWords s h (h.pc + 4) n with
    | .error e => .error e
    | .ok r =>
      let ws := r.map (·.2)
      if (match headerCheck (isSeqPlace k) p with | .ok _ => false | .error _ => true) = true ∨
          (headerChain p = true ∧ chainOk h ws = false) ∨ n ≤ h.slot.toNat then illegal
      else
        match firstIllegal p 0 ws with
        | some (i, w) => .error (slotTrap s k i ⟨cIllegal, w, 0⟩)
        | none =>
          match firstAbsent s.variant p 0 ws with
          | some (i, w, c) => .error (slotTrap s k i ⟨cUnitAbsent, w, BitVec.ofNat 64 c⟩)
          | none =>
            .ok (s.modHart k fun h => h.entered (slotInstrs p 0 ws) n,
              r.map (·.1))

/-- Fetch and decode at the pc of the hart or sequencer at place `k`: the state in which the instruction runs, the
instruction (of a convoy its first slot to run), and the places fetched. -/
def fetchInstr (s : State) (k : Nat) (h : Hart) : Except Stop (State × Instr × List Leaf) :=
  match fetchBytes s h h.pc 4 with
  | .error e => .error e
  | .ok (l, v) =>
    let p : Parcel := BitVec.ofNat 32 v
    if p.getLsbD 0 then
      match enterConvoy s k h p with
      | .error e => .error e
      | .ok (s', ls) =>
        match (s'.hart k).slots with
        | i :: _ => .ok (s', i, l :: ls)
        | [] => raise cIllegal (p.zeroExtend 64)
    else
      match decodeScalar p with
      | .ok i => .ok (s.modHart k fun h => { h with entering := none }, i, [l])
      | .error _ => raise cIllegal (p.zeroExtend 64)

/-- A cause that a fetch takes (03 R91 step 1). -/
def fetchCause (c : Nat) : Bool := c == cPageFetch || c == cAccess || c == cUncorrectable || c == cSibling

/-- What follows when nothing could be issued: a double trap where the fetch is a handler's first (04 R120), else
the trap, or the wait for a peer. -/
def fetchFailed (s : State) (k : Nat) (e : Stop) : State :=
  match e with
  | .trap t => if (s.hart k).entering.isSome ∧ fetchCause t.code then doubleTrap s k t.code else s.takeTrap k t
  | e => s.stop k e

/-- Answers of peers about code lines have been used, once the instruction has gone on (19 R416). -/
def usedCode (s : State) (k : Nat) (ls : List Leaf) : State :=
  if (s.hart k).life = .waiting then s else ls.foldl (fun s l => podUsed s l.pa) s

/-- Counted lines that a fetch reached (18 R401). -/
def countCode (s : State) (ls : List Leaf) : State := ls.foldl countHart s

/-! ## One issue -/

/-- The group of a sequencer ends once its issued words have (17 R383). -/
def settleSeq (s : State) (k : Nat) : State := if isSeqPlace k then settleGroup s (s.hart k).group else s

/-- The hart or sequencer at place `k` goes on: with the next slot of its convoy, or with what it fetches. -/
def issueNext (s : State) (k : Nat) : Out :=
  let s := { s with cur := some (.hart k) }
  let h := s.hart k
  match h.slots with
  | i :: _ =>
    match exec i s with
    | .next t => .next (settleSeq t k)
    | r => r
  | [] =>
    match fetchInstr s k h with
    | .error e => .next (settleSeq (fetchFailed s k e) k)
    | .ok (s', i, ls) =>
      match exec i (countCode s' ls) with
      | .next t => .next (settleSeq (usedCode t k ls) k)
      | r => r

/-- Whether what the hart or sequencer at place `k` would do next takes a synchronous trap before any effect
(04 R117): in its fetch, or at the element where it stands. -/
def trapsFirst (s : State) (k : Nat) : Bool :=
  let s := { s with cur := some (.hart k) }
  let h := s.hart k
  let tries (i : Instr) (s' : State) : Bool :=
    let h := s'.hart k
    match exec i s' with
    | .next t => let g := t.hart k
                 g.traps == h.traps + 1 && g.elem == h.elem && g.slot == h.slot
    | _ => false
  match h.slots with
  | i :: _ => tries i s
  | [] => match fetchInstr s k h with
    | .error (.trap _) => true
    | .error (.trapIn _ _) => true
    | .error _ => false
    | .ok (s', i, _) => tries i s'

/-- The turn that a request may have come inside begins or is over (05 R137). -/
def State.uncaught (s : State) (k : Nat) : State :=
  if (s.hart k).caught then s.modHart k fun h => { h with caught := false } else s

/-- The turn of the hart or sequencer at place `k`. A pre-emption that it may take comes before its next instruction
(04 R117, R130, R131), once a sequencer's word in progress has completed, unless that instruction takes a
synchronous trap first; one that waits for the device runtime holds nothing up (20 R427). -/
def issueAt (s : State) (k : Nat) : Out :=
  let s := s.uncaught k
  if s.preemptFirst k (s.hart k) then
    if trapsFirst s k then issueNext s k
    else if preemptReady s k (s.hart k) then .next { takePreempt s k with cur := some (.hart k) }
    else .next (s.setLife k .waiting)
  else issueNext s k

/-- A word with a row or movement bop that banks of predicate 0 skip, whatever its fields (03 R88, R89, 10 R258). -/
def skipsFalse (w : BitVec 64) : Bool :=
  let n := w.toNat % 256
  w.getLsbD 15 && (decide (n ≤ 6) || (decide (8 ≤ n) && decide (n ≤ 20)) || (decide (24 ≤ n) && decide (n ≤ 28)) ||
    n == 32 || (decide (40 ≤ n) && decide (n ≤ 42)))

/-- A stream's place holds no instruction (03 R90, 11 R283): ILLEGAL, when the stream may act; a bank of predicate 0
skips a row word with pr = 1 and takes none of its traps (10 R258). -/
def illegalTurn (s : State) (i : Nat) : State :=
  let st := s.stream i
  let t := streamNow s i st
  if mayAct s i st t false then
    let s := reach s (i / 256) t
    match st.word with
    | some w =>
      if skipsFalse w then
        match executing s i st true with
        | [] => nextWord i st s t
        | bs => bankTrap s i 9 bs
      else illegalWord s i
    | none => illegalWord s i
  else putOff s i st t false false

/-- What comes before the next word of a stream: the stop of a stream whose kernel has faulted (11 R290), the refresh of
a bank of it (10 R263, R264), a REFRESH_DEADLINE (R262) and a park (11 R301), each at its boundary, for which the
stream begins no further word but what a row of a sweep needs; none where the word may go. -/
def beforeWord (s : State) (i : Nat) (st : Stream) : Option State :=
  let hold := s.modStream i fun x => { x with held := true }
  let banks := (streamBanks s i).map s.bank
  let amid := st.begun != 0 || st.phase != 0
  if st.stopping && mayHalt s i st then some (endStream s i)
  else if (banks.any fun x => x.forced || x.reopen.isSome) && !(amid && st.sweeping) then some hold
  else if deadlineReady s i st then some (deadlineTrap s i st)
  else if st.state == .running && deadlineBanks s st i != [] && !amid then some hold
  else if st.stopping && !(amid && st.sweeping) then some hold
  else if st.preempt && !amid then
    some (if streamParkReady s i st && st.record.isSome then parkStream s i s.svc.emergency else hold)
  else none

/-- Stream `i` attempts its word (11 R285, R286). -/
def issueStream (s : State) (i : Nat) : Out :=
  let s := { s with cur := some (.stream i) }
  let st := s.stream i
  if st.state = .running ∨ st.state = .handler then
    match beforeWord s i st with
    | some t => .next t
    | none => match st.word with
      | some w => match decodeBank w with
        | .ok x => exec x s
        | .error _ => .next (illegalTurn s i)
      | none => .next (illegalTurn s i)
  else .next s

end Sys2Proof.Machine
end

