-- ==== Sys2Proof/Machine/Enabled.lean ====
section
/-! DEFINITION. The device's own steps that can come about in a state (log 2): the list from which a turn takes one
when its agenda names none. Steps of the world (a host's command, an arrival at a port, heat, a refresh interval
of a bank that no stream controls, the aging of a queue) stand in the agenda alone. -/
namespace Sys2Proof.Machine

/-- A step of the device. -/
abbrev DevStep := State → Option State

/-- PREEMPT at a boundary, or what comes first there: a synchronous trap (04 R117), or the completion of a GSYNC
whose phase has ended (17 R391). -/
def preemptTurn (s : State) (k : Nat) : Option State :=
  match (s.hart k).latched, (s.hart k).life with
  | some (.gsync _ _), .waiting =>
    match tryHartWake k s with
    | some t => some t
    | none => if preemptReady s k (s.hart k) then nextOf (issueAt s k) else none
  | _, _ => if preemptReady s k (s.hart k) then nextOf (issueAt s k) else none

/-- A stalled hart would go on if it issued now. -/
def wouldGo (s : State) (k : Nat) : Bool :=
  match issueAt (s.setLife k .ready) k with
  | .next t => (t.hart k).life != .stalled
  | _ => false

def hartSteps (s : State) (k : Nat) (h : Hart) : List DevStep :=
  (h.gathers.map fun g => tryGatherDelivered k g.vd) ++
    (if h.preemptDue then [fun s => preemptTurn s k] else []) ++
    (match h.life with
     | .waiting => [tryHartWake k]
     | .stalled => if wouldGo s k then [tryHartUnstall k] else []
     | _ => [])

def coreSteps (c : Nat) (x : Core) : List DevStep :=
  (if x.job.isSome then [tryMatrixWordComplete c] else []) ++ (List.range 4).map fun a => tryAccHandoff c a

def opSteps (c chan : Nat) (o : XferOp) : List DevStep :=
  match o.state with
  | .queued => [tryTransferOpStart c chan o.num]
  | .running => [tryElementGroupLands c chan o.num, tryTransferOpComplete c chan o.num, tryTransferOpFault c chan o.num]
  | .suspended => [tryTransferOpFault c chan o.num]

def lamSteps (t e : Nat) (x : LamEntry) : List DevStep :=
  match x.state with
  | .forming => [tryLamDeadline t e]
  | .dispatched => [tryLamComputeStart t e]
  | .computing => [tryLamWeightFault t e, tryLamComputeEnd t e]
  | .splitting => [tryLamSplitComplete t e]
  | .free => []

def bankSteps (b : Nat) (x : Bank) : List DevStep :=
  (if x.forced then [tryForcedRefresh b] else []) ++
    ((List.range 4).flatMap fun n => match (x.slotAt n).state with
      | .opening => [tryTacuElapsed b n]
      | .writing => [tryTwbkElapsed b n]
      | .precharging => [tryTpreElapsed b n]
      | _ => []) ++
    (if x.pass.isSome then [tryRowPassEnd b] else []) ++ (x.rcopy.map fun r => tryRcopyComplete b r.slot) ++
    (if x.plan ≠ [] then
      ((List.range 4).map fun n => tryTaprElapsed b n) ++ [tryTaadElapsed b, tryTfawWindowElapsed (b / 1024) (b % 1024 / 16)]
      else []) ++
    (if x.refb.isSome then [tryRefbComplete b] else []) ++ (if x.yieldCopies ≠ [] then [tryYieldRowCopyEnd b] else []) ++
    (if x.owner.isNone ∧ 0 < x.debt then [tryPlinthRefresh b] else [])

def streamSteps (i : Nat) (x : Stream) : List DevStep :=
  match x.state with
  | .running => [tryBusMoveEnd i, tryRefreshDeadline i, tryStreamYield i, tryStreamPark i]
  | .handler => [tryBusMoveEnd i, tryStreamYield i, tryStreamPark i]
  | .waiting => [tryBusMoveEnd i, tryRefreshDeadline i, tryStreamYield i, tryStreamPark i, tryStreamWake i]
  | .suspended => [tryYieldEnd i]
  | .parked => [tryStreamResume i]
  | _ => []

/-- The first cores, quad by quad, on which the next tile of a queue fits. -/
def firstCores (s : State) (c q : Nat) : List Nat :=
  match tileFits s c q with
  | none => []
  | some (t, k) => if k.isBank then [] else
    ((List.range (16 * s.variant.towers)).flatMap fun i =>
      let l := (List.range' (4 * i) 4).filter fun x => coreOpen s (t.want k) x && !(t.avoid s).contains x
      l.take (l.length / k.hosting * k.hosting)).take (t.count k * k.hosting)

def groupSteps (s : State) (gid : Nat) (g : Group) : List DevStep :=
  match g.state, s.kernels.get? g.kernel with
  | .running, _ => [tryPreemptionRequest gid]
  | .parking, _ => g.cores.map fun c => tryCoreRecordSave gid c
  | .parked, some k =>
    match g.members.find? fun p => p.2.at_ == .parked with
    | some (n, m) =>
      let slot := m.slotOf n k.perCore
      match (List.range (64 * s.variant.towers)).find? fun c =>
          (resumeCores s g k c fun l => l[slot]? == some c).isSome with
      | some c => [tryHartResume gid n c]
      | none => []
    | none => []
  | .binding, some k =>
    match g.members.find? fun p => p.2.at_ == .parked with
    | some (n, m) => [tryHartResume gid n (g.placing.getD (m.slotOf n k.perCore) 0)]
    | none => []
  | _, _ => []

def kernelSteps (kid : Nat) (k : Kernel) : List DevStep :=
  match k.state with
  | .running => [tryKernelComplete kid, tryPreemptionRequest kid]
  | .faulted => [tryKernelSkipped kid]
  | _ => []

/-- A stream of a tower can issue before the tower's time goes on. -/
def streamAhead (s : State) (t : Nat) : Bool :=
  s.streams.any fun p => p.1 / 256 == t && (p.2.state == .running || p.2.state == .handler) && !p.2.held

/-- No hart, sequencer or stream can issue. -/
def allBlocked (s : State) : Bool :=
  (s.harts.all fun p => p.2.life != .ready && p.2.life != .issuing) &&
    s.streams.all fun p => (p.2.state != .running && p.2.state != .handler) || p.2.held

/-- Something in a tower waits for time to pass; a WAITING stream lets it pass once no agent can issue. -/
def timeWanted (s : State) (t : Nat) : Bool :=
  (allBlocked s && s.streams.any fun p => p.1 / 256 == t && p.2.state == .waiting) ||
  (s.streams.any fun p => p.1 / 256 == t &&
    (p.2.state == .suspended || ((p.2.state == .running || p.2.state == .handler) && p.2.held))) ||
  s.banks.any fun p => p.1 / 1024 == t && !p.2.dues.isEmpty

/-- Every step of the device that may be enabled. -/
def deviceSteps (s : State) : List DevStep :=
  (s.cores.flatMap fun p => coreSteps p.1 p.2) ++ (s.harts.flatMap fun p => hartSteps s p.1 p.2) ++
    (s.ctxs.flatMap fun p =>
      (p.2.xfer.flatMap fun q => q.2.ops.flatMap fun o => opSteps p.1 q.1 o) ++
      (p.2.lam.flatMap fun q => q.2.ops.map fun o => tryLamAdmission p.1 q.1 o.num)) ++
    (s.towers.flatMap fun p => (p.2.lam.flatMap fun q => if streamAhead s p.1 then [] else lamSteps p.1 q.1 q.2) ++
      p.2.crossing.map fun c => tryPlinthBufferCrossingEnd p.1 c.entry) ++
    (s.streams.flatMap fun p => if streamAhead s (p.1 / 256) then [] else streamSteps p.1 p.2) ++
    (s.banks.flatMap fun p => if streamAhead s (p.1 / 1024) then [] else bankSteps p.1 p.2) ++
    (s.kernels.flatMap fun p => kernelSteps p.1 p.2) ++ (s.groups.flatMap fun p => groupSteps s p.1 p.2) ++
    (s.ctxs.flatMap fun p => p.2.queues.flatMap fun q =>
      [tryKernelAdmission p.1 q.1, tryTilePlacement p.1 q.1 (firstCores s p.1 q.1)]) ++
    (if s.host.tlbdone then [] else [tryTlbinvDone]) ++ (if s.host.remapBusy then [tryRemapDone] else []) ++
    (if s.svc.fwbusy && s.svc.image.isSome then [fun s => nextOf (execFwCommit s)] else []) ++
    (s.ulports.flatMap fun p => if p.2.state = .draining then [tryPortDrained p.1] else []) ++
    (s.banks.flatMap fun p => if p.2.owner.isSome && timeWanted s (p.1 / 1024) then [tryRefreshInterval p.1] else []) ++
    (if s.svc.fwbusy then [tryFwBootromRestore] else [])

/-- What the first of them that comes about makes of the state. -/
def firstStep (s : State) : Option State :=
  (deviceSteps s).findSome? fun f => f s

end Sys2Proof.Machine
end

