-- ==== Sys2Proof/Machine/Turn.lean ====
section
/-! DEFINITION. Turns (log 2): what one turn of an activity does, which hart a core issues (04 R102), a pre-emption
beside a synchronous trap (04 R117), and whose turn comes when the agenda names none. -/
namespace Sys2Proof.Machine

/-- The effective priority of the queue whose kernel a hart runs (04 R102). -/
def hartPrio (s : State) (k : Nat) : Nat :=
  match s.groupOf (s.hart k) with
  | some (_, kk) => effPrio s kk.ctx kk.queue
  | none => 0

/-- The READY harts of a core, in round-robin order from the one after the hart that issued last. -/
def readyHarts (s : State) (c : Nat) : List Nat :=
  ((List.range 8).map fun i => 9 * c + ((s.core c).last + 1 + i) % 8).filter fun k => (s.hart k).life == .ready

/-- The issue choice of a core (04 R102, R131): of the highest priority, in round-robin order; a hart that has
yielded comes after every other that has not issued since. -/
def coreChoice (s : State) (c : Nat) : Option Nat :=
  let l := readyHarts s c
  let top := l.foldl (fun m k => max m (hartPrio s k)) 0
  let l := l.filter fun k => hartPrio s k == top
  let behind (k : Nat) : Bool := match (s.core c).yielded.get? k with
    | some since => l.any fun j => j != k && !since.contains j
    | none => false
  match l.find? fun k => !behind k with
  | some k => some k
  | none => l.head?

/-- The hart at place `k` has issued: the round-robin order goes on from it, and it counts as having issued since
every YIELD (04 R102, R131). -/
def noteIssue (s : State) (k : Nat) : State :=
  let x := s.core (k / 9)
  s.setCore (k / 9) { x with last := k % 9, yielded := (x.yielded.erase k).map fun p => (p.1, k :: p.2.filter (· != k)) }

/-- A core cycle (04 R102, R111): CYCLE counts, and the chosen hart issues. One that is STALLED takes no issue
slot. `go` is the hart's turn. -/
def coreTurn (s : State) (c : Nat) (go : State → Nat → Out) : Out :=
  let x := s.core c
  if 64 * s.variant.towers ≤ c ∨ x.lost = true then .next s
  else
    let s := s.setCore c { x with cycle := x.cycle + 1 }
    match coreChoice s c with
    | none => .next s
    | some k =>
      match go (noteIssue s k) k with
      | .next t =>
        if (t.hart k).life = .stalled then .next (t.setCore c { t.core c with last := x.last, yielded := x.yielded })
        else .next t
      | r => r

/-- The hart's turn in which a pre-emption request reaches it inside a long instruction, at an element (05 R137,
R157): PREEMPT, or the trap of that element, follows in the same turn. -/
def partTurn (n : Nat) (s : State) (k : Nat) : Out :=
  match issueNext (s.modHart k fun h => { h with cut := some n, caught := false }) k with
  | .next t =>
    let t := t.modHart k fun h => { h with cut := none }
    if (t.hart k).life = .issuing ∧ (t.hart k).preemptDue = true then issueAt t k else .next t
  | r => r

/-- One turn. With no power only DEVICE_RESET comes about (14 R358). -/
def turn (a : Activity) (s : State) : Out :=
  if s.svc.powered = false then
    match a with
    | .event .deviceReset => execDeviceReset s
    | _ => .next s
  else
    match a with
    | .core c => coreTurn s c issueAt
    | .seq c => if (s.hart (9 * c + 8)).life = .ready then issueAt s (9 * c + 8) else .next s
    | .slot k => if (s.hart k).life = .issuing then issueAt s k else .next s
    | .part k n =>
      if (s.hart k).caught = false ∨ preemptReady s k (s.hart k) = false then .next s
      else if (s.hart k).life = .issuing then partTurn n s k
      else if coreChoice s (k / 9) = some k then coreTurn s (k / 9) (partTurn n)
      else .next s
    | .stream i => issueStream s i
    | .event (.preempt k) => comes s (preemptTurn s k)
    | .event (.hartUnstall k) => comes s (if wouldGo s k then tryHartUnstall k s else none)
    | .event i => if encode i = .none then exec i s else .next s

/-! ## Whose turn it is when the agenda is empty (log 2) -/

/-- The agents that can issue, in a fixed order, each with its place in that order and its turn. -/
def runnable (s : State) : List (Nat × Agent × Activity) :=
  (s.harts.filterMap fun p => match p.2.life with
    | .ready => some (p.1, .hart p.1, if isSeqPlace p.1 then .seq (p.1 / 9) else .core (p.1 / 9))
    | .issuing => some (p.1, .hart p.1, .slot p.1)
    | _ => none) ++
  (s.streams.filterMap fun p =>
    if (p.2.state = .running ∨ p.2.state = .handler) ∧ p.2.held = false then some (2 ^ 20 + p.1, .stream p.1, .stream p.1)
    else none)

def agentOrder : Option Agent → Nat
  | some (.hart k) => k + 1
  | some (.stream i) => 2 ^ 20 + i + 1
  | none => 0

/-- The turn of an agent, after which it is that agent's successor's. -/
def agentTurn (a : Agent) (x : Activity) (s : State) : Out :=
  match turn x s with
  | .next t => .next { t with cur := some a }
  | r => r

/-- The agents take turns. After 16 rounds, and whenever no agent can issue, one of the device's own steps that can
come about does. -/
def ownTurn (s : State) : Out :=
  match (runnable s).find? fun p => decide (agentOrder s.cur ≤ p.1) with
  | some p => agentTurn p.2.1 p.2.2 s
  | none =>
    match if s.rounds < 16 then (runnable s).head? else none with
    | some p => agentTurn p.2.1 p.2.2 { s with rounds := s.rounds + 1 }
    | none =>
      match firstStep s with
      | some t => .next { t with cur := none, rounds := 0 }
      | none =>
        match runnable s with
        | p :: _ => agentTurn p.2.1 p.2.2 { s with rounds := 0 }
        | [] => .next s

end Sys2Proof.Machine
end

