-- ==== Sys2Proof/Machine/Step.lean ====
section
/-! DEFINITION. The step of the machine, and the placing of an instruction where the next step fetches it. -/
namespace Sys2Proof.Machine

/-- One turn: the first of the agenda, or, with an empty agenda, whoever's turn it is (log 2). -/
def step (s : State) : Host.Outcome State Fault Refusal :=
  match s.agenda with
  | a :: r => turn a { s with agenda := r }
  | [] => ownTurn s

/-- The record of a kernel of one tile, with entry `entry`: a hart kernel with one hart at grant 1,024, or a bank
kernel. -/
def placedKernel (bank : Bool) (entry : Nat) : Kernel :=
  { ctx := 1, queue := 0, num := 1,
    record := if bank then 1 else BitVec.ofNat 2048 (2 ^ 8 + 2 ^ 64 * entry + 2 ^ 128 * entry), next := 1 }

/-- A context with its tables: virtual addresses below 64 GiB are physical ones, readable, writable and executable
at U, through a table at 0x4_0000 whose first entry names the table at 0x8_0000 (18 R393, R394). -/
def withTables (s : State) : State :=
  let s := store s 0x4_0000 (toBytes 64 0x8_0001) none
  let s := store s 0x8_0000 (toBytes 64 0x3F) none
  s.setCtx 1 { desc := 0x2_0000, state := .resident, ptroot := 0x4_0000 }

/-- The instruction whose bits are `w`, placed at the pc of a hart of core 0 (of its sequencer, for a matrix word),
or in the code of stream 0, whose turn comes next (log 12). -/
def State.withFetchWord (s : State) (nbits w : Nat) : State :=
  let gid := s.fresh
  let s := { withTables s with fresh := s.fresh + 2, svc := { s.svc with powered := true } }
  if nbits = 64 then
    let s := s.setKernel (gid + 1) { placedKernel true 0 with streams := [0] }
    let s := s.setBank 0 { s.bank 0 with owner := some 0 }
    let s := s.setStream 0 { state := .running, kernel := gid + 1, bound := 1, mask := 1, code := [BitVec.ofNat 64 w] }
    { s with agenda := .stream 0 :: s.agenda }
  else
    let p : Parcel := BitVec.ofNat 32 w
    let k := if p.getLsbD 0 && headerUnit p 0 == 8 then 8 else 0
    let s := store s 0x1_0000 (toBytes 64 (2 ^ 32 * w)) none
    let s := s.setKernel (gid + 1) (placedKernel false 0x1_0004)
    let s := s.setGroup gid { kernel := gid + 1, tile := 0, state := .running, cores := [0],
                              members := [(if k = 8 then 64 else 0, { at_ := .place k })] }
    let s := s.setHart k { life := .issuing, group := gid, pc := 0x1_0004, vgrant := if k = 8 then 0 else 1024 }
    { s with agenda := .slot k :: s.agenda }

end Sys2Proof.Machine
end

