-- ==== Sys2Proof/Safety.lean ====
section
/-! DEFINITION. What counts as a safe run, and the terms in which the statements speak of a step: whose turn it is,
and the state after an instruction that changes one hart. -/
namespace Sys2Proof.Machine

/-- A state whose next step stops neither with a fault nor with a refusal. -/
def Safe (s : State) : Prop := ∃ t, step s = .next t

/-- The memory is in its canonical form: addresses strictly rising, no entry that an unlisted address reads as. -/
def State.Canonical (s : State) : Prop := memWf s.mem = true

/-- It is the turn of the hart or sequencer at place `k`. -/
def State.HartTurn (s : State) (k : Nat) : Prop := s.cur = some (.hart k)

/-- It is the turn of bank stream `i`. -/
def State.StreamTurn (s : State) (i : Nat) : Prop := s.cur = some (.stream i)

/-- The executing banks of a word of the stream whose turn it is (11 R283). -/
def State.exBanks (s : State) (i : Nat) (pr : Bool) : List Nat := executing s i (s.stream i) pr

/-- No step of a yield begins in a tower by a cycle (11 R299). -/
def State.NoStep (s : State) (tw c : Nat) : Prop :=
  ∀ p ∈ s.banks, p.1 / 1024 = tw → ∀ q ∈ p.2.plan, c < q.at_

/-- The time of a tower may reach cycle `d`, where nothing else happens: nothing ends earlier, no stream may act earlier or
is to stop, and no step of a yield begins by then. -/
def State.Due (s : State) (tw d : Nat) : Prop :=
  s.NoStep tw (max (s.tower tw).now d) ∧ (∀ e, nextDue s tw = some e → d ≤ e) ∧
    ∀ p ∈ s.streams, p.1 / 256 = tw → p.2.stopping = false ∧ pressing s p.1 p.2 d = false

/-- It is the turn of stream `i` at a word that has begun nowhere; no executing bank is retired, no arbitration window
is open, and before the cycle at which the word may begin nothing ends, no other stream of the tower may act, and no
step of a yield begins. -/
def State.WordTurn (s : State) (i : Nat) (pr : Bool) : Prop :=
  let c := streamNow s i (s.stream i)
  s.StreamTurn i ∧ (s.stream i).checked = false ∧ (s.stream i).begun = 0 ∧ (s.stream i).window = none ∧
    timeOk s (i / 256) c = true ∧ noneBefore s i c = true ∧ s.NoStep (i / 256) c ∧
    ∀ b ∈ s.exBanks i pr, (s.tower (i / 256)).isLive (i % 256 / 4) b = true

/-- The state after a scalar instruction of the hart or sequencer at place `k` that leaves its registers as in `h` and
goes on at `pc`: INSTRET has counted it (04 R111) and the hart is READY (04 R100). Everything outside this hart,
and every register of it that `h` does not change, is as before. -/
def State.after (s : State) (k : Nat) (h : Hart) (pc : Word) : State :=
  s.setHart k { h with pc := pc, instret := h.instret + 1, life := .ready, waitFor := none, latched := none }

/-- The state after a scalar instruction whose one effect is to write `v` to x[d]. -/
def State.wrote (s : State) (k : Nat) (d : Reg) (v : Word) : State :=
  s.after k ((s.hart k).wr d v) ((s.hart k).pc + 4)

/-- The state after a scalar instruction that only goes on. -/
def State.advanced (s : State) (k : Nat) : State := s.after k (s.hart k) ((s.hart k).pc + 4)

/-- The state after a slot of a convoy of the hart or sequencer at place `k`, whose registers are then as in `h`:
INSTRET has counted it, and the convoy goes on with its next slot or the hart with what follows it (03 R81). -/
def State.slotDone (s : State) (k : Nat) (h : Hart) : State := s.setHart k h.retireSlot

/-- The state after a synchronous trap of the hart or sequencer at place `k` (04 R116). -/
def State.trapped (s : State) (k : Nat) (code : Nat) (v1 v2 : Word) : State := s.takeTrap k ⟨code, v1, v2⟩

/-- Every byte of the address space reads as before. -/
def SameBytes (s t : State) : Prop := ∀ a, physByte t a = physByte s a

/-- Nothing but the hart at place `k` differs. -/
def OnlyHart (s t : State) (k : Nat) : Prop := t = s.setHart k (t.hart k)

/-! ## Slots -/

/-- A vector word with the type that dyn stands for (02 R39). -/
def resolveTy (h : Hart) (w : VWord) : VWord := if w.ty = 31 then { w with ty := h.vtype } else w

/-- A vector word at its turn meets none of the decode traps, VEC_ABSENT and the tests before VL_RANGE (05 R135);
`whole` is for an instruction on whole registers, which needs VSTART.ELEM 0 (05 R137). -/
def State.SlotReady (s : State) (k : Nat) (mk : VWord → Instr) (w : VWord) (whole : Bool) : Prop :=
  s.HartTurn k ∧ (s.hart k).vstate ≠ .off ∧ (resolveTy (s.hart k) w).ty ≠ 31 ∧
    slotLegal (mk (resolveTy (s.hart k) w)) = true ∧ (whole = true → (s.hart k).elem = 0) ∧ (s.hart k).cut = none ∧
    (s.hart k).vgrant ≤ 16384

/-- A v register is full and not failed (05 R139, 06 R169). -/
def Hart.RegReady (h : Hart) (r : Reg) : Prop := h.full.getLsbD r.toNat = true ∧ h.failed.get? r.toNat = none

/-- The vector length of a word is within a bound, and whole blocks in a BFP type (05 R135). -/
def Hart.VlReady (h : Hart) (w : VWord) (bound : Nat) : Prop :=
  (h.rd w.xl).toNat ≤ bound ∧ (Ty.isBfp w.ty.toNat = true → (h.rd w.xl).toNat % 32 = 0)

/-- What an element-wise word of elements of `n` bits leaves in its destination and its flags (05 R136, R137): `f` gives
each element and its flags; elements below VSTART.ELEM and from vl on keep their bits; an inactive element is zero with
POL 1 and keeps its bits with POL 0; only active elements raise flags. -/
def ElementsWritten (h : Hart) (w : VWord) (n vl : Nat) (f : Nat → Nat × Flags) (v : BitVec 16384) (fl : Flags) : Prop :=
  (∀ e, elemAt v n e =
    if h.elem.toNat ≤ e ∧ e < vl then
      if activeAt w h e then (f e).1 % 2 ^ n else if w.pol then 0 else elemAt (h.vreg w.vd) n e
    else elemAt (h.vreg w.vd) n e) ∧
  (∀ b, n * vl ≤ b → v.getLsbD b = (h.vreg w.vd).getLsbD b) ∧
  (∀ b, fl.getLsbD b = true ↔
    ∃ e, h.elem.toNat ≤ e ∧ e < vl ∧ activeAt w h e = true ∧ ((f e).2).getLsbD b = true)

/-- The same for a predicate destination. -/
def BitsWritten (h : Hart) (w : VWord) (vl : Nat) (f : Nat → Bool × Flags) (v : BitVec 4096) (fl : Flags) : Prop :=
  (∀ e < 4096, v.getLsbD e =
    if h.elem.toNat ≤ e ∧ e < vl then
      if activeAt w h e then (f e).1 else if w.pol then false else (h.preg w.vd.toNat).getLsbD e
    else (h.preg w.vd.toNat).getLsbD e) ∧
  (∀ b, fl.getLsbD b = true ↔
    ∃ e, h.elem.toNat ≤ e ∧ e < vl ∧ activeAt w h e = true ∧ ((f e).2).getLsbD b = true)

end Sys2Proof.Machine
end

