-- ==== Sys2Proof/WellFormed.lean ====
section
/-! DEFINITION. Well-formed instructions: the field values that the encoding tables of 03 and the family rules accept,
and the operands of a step that name something the largest package has. Conditions that read a CSR, the variant or
the kind of stream are the meaning's. -/
namespace Sys2Proof

/-- Every field of the instruction has a value that the spec accepts: for a vector word 05 R140, R142 and 06 R158 to
R160, for a matrix word 12 R323, for a bank word 10 R268 to R281 and 11 R295 to R302; for a step, 00 R1 and 01 R12 to
R15 with the chapter of its object. -/
def Instr.wf : Instr → Bool
  | .add _ _ _ => true
  | .addW _ _ _ => true
  | .sub _ _ _ => true
  | .subW _ _ _ => true
  | .and _ _ _ => true
  | .or _ _ _ => true
  | .xor _ _ _ => true
  | .andn _ _ _ => true
  | .sll _ _ _ => true
  | .sllW _ _ _ => true
  | .srl _ _ _ => true
  | .srlW _ _ _ => true
  | .sra _ _ _ => true
  | .sraW _ _ _ => true
  | .rol _ _ _ => true
  | .ror _ _ _ => true
  | .slt _ _ _ => true
  | .sltn _ _ _ => true
  | .min _ _ _ => true
  | .max _ _ _ => true
  | .minn _ _ _ => true
  | .maxn _ _ _ => true
  | .mul _ _ _ => true
  | .mulW _ _ _ => true
  | .mulh _ _ _ => true
  | .mulhn _ _ _ => true
  | .div _ _ _ => true
  | .divW _ _ _ => true
  | .divn _ _ _ => true
  | .divnW _ _ _ => true
  | .rem _ _ _ => true
  | .remW _ _ _ => true
  | .remn _ _ _ => true
  | .remnW _ _ _ => true
  | .clz _ _ => true
  | .ctz _ _ => true
  | .popc _ _ => true
  | .addi _ _ _ => true
  | .andi _ _ _ => true
  | .ori _ _ _ => true
  | .xori _ _ _ => true
  | .slti _ _ _ => true
  | .sltni _ _ _ => true
  | .slli _ _ _ => true
  | .srli _ _ _ => true
  | .srai _ _ _ => true
  | .rori _ _ _ => true
  | .ldhi _ _ => true
  | .addpc _ _ => true
  | .ld _ _ _ size sx _ => !(sx && size == 3)
  | .st _ _ _ _ _ => true
  | .beq _ _ _ => true
  | .bne _ _ _ => true
  | .blt _ _ _ => true
  | .bge _ _ _ => true
  | .bltn _ _ _ => true
  | .bgen _ _ _ => true
  | .jal _ _ => true
  | .jalr _ _ _ => true
  | .amoswap _ _ _ _ scope _ => scopeOk scope
  | .amoadd _ _ _ _ scope _ => scopeOk scope
  | .amoand _ _ _ _ scope _ => scopeOk scope
  | .amoor _ _ _ _ scope _ => scopeOk scope
  | .amoxor _ _ _ _ scope _ => scopeOk scope
  | .amomin _ _ _ _ scope _ => scopeOk scope
  | .amomax _ _ _ _ scope _ => scopeOk scope
  | .amominn _ _ _ _ scope _ => scopeOk scope
  | .amomaxn _ _ _ _ scope _ => scopeOk scope
  | .cas _ _ _ _ scope _ => scopeOk scope
  | .fence _ scope => scopeOk scope
  | .fenceI => true
  | .trap _ => true
  | .rett => true
  | .yield _ => true
  | .waite _ _ => true
  | .csrr _ _ => true
  | .csrw _ _ => true
  | .csrs _ _ => true
  | .csrc _ _ => true
  | .csrx _ _ _ => true
  | .setvl _ _ ty => Ty.isFormat ty.toNat || ty.toNat == Ty.dyn
  | .setvlDistance _ _ _ ty => Ty.isFormat ty.toNat || ty.toNat == Ty.dyn
  | .cpw idx _ => decide (idx.toNat < 10)
  | .cpgo _ _ => true
  | .tlwait _ _ scope => scopeOk scope
  | .tlread _ _ => true
  | .binit _ _ => true
  | .barrive _ _ => true
  | .bexp _ _ => true
  | .bwait _ scope => scopeOk scope
  | .btest _ _ => true
  | .binval _ => true
  | .klaunch _ _ _ => true
  | .gsync _ scope => scopeOk scope
  | .gexit => true
  | .mxgo _ _ => true
  | .hint _ => true
  | .vadd v => v.binary Ty.accAdd
  | .vsub v => v.binary Ty.accAdd
  | .vmul v => v.binary Ty.accMul
  | .vmulh v => v.binary Ty.accMul
  | .vmin v => v.binary Ty.accAdd
  | .vmax v => v.binary Ty.accAdd
  | .vand v => v.binary Ty.accBits
  | .vor v => v.binary Ty.accBits
  | .vxor v => v.binary Ty.accBits
  | .vsll v => v.binary Ty.accMul
  | .vsrl v => v.binary Ty.accMul
  | .vsra v => v.binary Ty.accMul
  | .vsadd v => v.binary Ty.accAdd
  | .vssub v => v.binary Ty.accAdd
  | .vabsd v => v.binary Ty.accMul
  | .vmerge v => v.tyIn Ty.accBits && v.me && !v.pol && v.rm0 && v.z3 && v.imm0 && v.teIn 3
  | .vmovx v => v.movx
  | .vidx v => v.tyIn Ty.accMul && v.maskAny && v.rm0 && v.z1 && v.z2 && v.imm0 && v.teIn 0
  | .vcmp v => v.cmp
  | .vwmul v => v.tyIn Ty.accWiden && v.maskAny && v.rm0 && v.z3 && v.imm0 && v.teIn 3
  | .vwadd v => v.tyIn Ty.accWiden && v.maskAny && v.rm0 && v.z3 && v.imm0 && v.teIn 3
  | .vnarrow v => v.narrow
  | .pand v => v.pbin
  | .por v => v.pbin
  | .pxor v => v.pbin
  | .pandn v => v.pbin
  | .pset v => Ty.isFormat v.ty.toNat && v.maskAny && v.rm0 && v.pd && v.z1 && v.z2 && v.z3 && (fld v.imm 1 15
      == 0) && v.teIn 0
  | .pcnt v => v.pcount
  | .pfirst v => v.pcount
  | .vfadd v => v.fp2 v.rmNotSr
  | .vfsub v => v.fp2 v.rmNotSr
  | .vfmul v => v.fp2 v.rmNotSr
  | .vfma v => v.fp3 v.rmNotSr
  | .vfms v => v.fp3 v.rmNotSr
  | .vfnma v => v.fp3 v.rmNotSr
  | .vfdiv v => v.fp2 v.rmNotSr
  | .vfsqrt v => v.fp1 v.rmNotSr
  | .vfmin v => v.fp2 v.rm0
  | .vfmax v => v.fp2 v.rm0
  | .vfcmp v => v.fcmp
  | .vfcvt v => v.fcvt
  | .vfrece v => v.fp1 v.rm0
  | .vfrsqe v => v.fp1 v.rm0
  | .vld v => v.mem Ty.accLd 0 && v.maskAny && v.z2 && v.z3
  | .vlds v => v.mem Ty.isWhole 0 && v.maskAny && v.z2
  | .vldx v => v.mem Ty.isWhole 2 && v.maskAny && v.z3
  | .vldff v => v.mem Ty.accLdff 0 && v.maskAny && v.z2 && v.z3
  | .vst v => v.mem Ty.accLd 0 && v.maskMerge && v.z2 && v.z3
  | .vsts v => v.mem Ty.isWhole 0 && v.maskMerge && v.z2
  | .vstx v => v.mem Ty.isWhole 2 && v.maskMerge && v.z3
  | .vperm v => v.move 3 && v.z3 && v.imm0
  | .vslideup v => v.move 1 && v.z2 && v.imm0
  | .vslidedn v => v.move 1 && v.z2 && v.imm0
  | .vcompress v => v.tyIn Ty.isWhole && v.rm0 && v.me && v.z2 && v.z3 && v.imm0 && v.teIn 1
  | .vexpand v => v.tyIn Ty.isWhole && v.rm0 && v.me && v.z2 && v.z3 && v.imm0 && v.teIn 1
  | .vbcaste v => v.move 1 && v.z2 && v.imm0
  | .vzip v => v.move 3 && v.z3 && v.imm0
  | .vunzip v => v.move 3 && v.z3 && (fld v.imm 1 15 == 0)
  | .vredsum v => v.tyIn Ty.isInt && v.maskMerge && v.z3 && v.imm0 && v.teIn 3 && v.rm0
  | .vredmax v => v.tyIn Ty.isInt && v.maskMerge && v.z3 && v.imm0 && v.teIn 3 && v.rm0
  | .vredmin v => v.tyIn Ty.isInt && v.maskMerge && v.z3 && v.imm0 && v.teIn 3 && v.rm0
  | .vfredsum v => v.tyIn Ty.isF && v.maskMerge && v.z3 && v.imm0 && v.teIn 3 && (v.rm == 0 || v.rm == 3)
  | .vxqadd v => v.xq Ty.accXqAdd && v.z2 && v.teIn 1
  | .vxqmax v => v.xq Ty.isInt && v.z2 && v.teIn 1 && v.rm0
  | .vxqfma v => v.xq Ty.isF && v.teIn 3
  | .vexta v => v.exta
  | .vinsa v => v.tyIn Ty.accInsa && v.maskAny && v.rm0 && v.vd == 0 && v.z2 && (fld v.imm 2 14 == 0) && v.teIn 1
  | .vzera v => v.tyIn Ty.accZera && v.maskNone && v.rm0 && v.vd == 0 && v.z1 && v.z2 && (fld v.imm 2 14 == 0)
      && v.teIn 0
  | .srd v => v.vs1.toNat < 4 && v.z2 && v.z3 && v.maskNone && v.rm0 && v.imm0 && v.teIn 0 && v.tyIn Ty.accMove
  | .srstat v => v.vs1.toNat < 4 && v.z2 && v.z3 && v.maskNone && v.rm0 && v.imm0 && v.teIn 0 && v.ty == 0 &&
      v.xl == 0
  | .mma m => mmaOk m
  | .mzero m => m.immOk false && m.only true false false false false false false false false false false
  | .mtld m => m.immOk false && Ty.accTile m.ta.toNat && m.only false true false false true false true false
      true false false
  | .mtst m => m.immOk false && Ty.accTile m.ta.toNat && m.rmOk && m.only false false true false true false
      true false true false true
  | .mqld m => m.immOk true && m.only false true false false true false false false false false false
  | .mqst m => m.immOk false && m.only false false true false true false false false false false false
  | .mqadd m => m.immOk true && m.rmOk && m.only false true true true false false false false false false true
  | .mqmul m => m.immOk true && m.rmOk && m.only false true true true false false false false false false true
  | .chisel m => m.immOk false && m.only false true true false false false false false false false false
  | .mqcast m => m.immOk false && m.rmOk && Ty.accTile m.ta.toNat && m.only false true true false false false
      true false false false true
  | .mqrank m => m.immOk false && m.only false false true false true false false false false false false
  | .mqfree m => m.immOk false && m.only false true false false false false false false false false false
  | .mqscl m => m.immOk false && m.rmOk && m.only false true true false true false false false false false true
  | .mthdr m => m.immOk false && Ty.isFormat m.ta.toNat && (m.sw == 0 || !Ty.isBfp m.ta.toNat) && m.only false
      false false false true true true false true false false
  | .act b => rowWordOk 0 b
  | .pre b => rowWordOk 1 b
  | .wb b => rowWordOk 2 b
  | .refb b => rowWordOk 3 b
  | .refq b => rowWordOk 4 b
  | .rcopy b => rowWordOk 5 b
  | .rzero b => rowWordOk 6 b
  | .radd b => rowWordOk 8 b
  | .rsub b => rowWordOk 9 b
  | .rmul b => rowWordOk 10 b
  | .rmax b => rowWordOk 11 b
  | .rmin b => rowWordOk 12 b
  | .rand b => rowWordOk 13 b
  | .rior b => rowWordOk 14 b
  | .rxor b => rowWordOk 15 b
  | .rshr b => rowWordOk 16 b
  | .rscadd b => rowWordOk 17 b
  | .rcmp b => rowWordOk 18 b
  | .rsel b => rowWordOk 19 b
  | .rcvt b => rowWordOk 20 b
  | .qzero b => rowWordOk 24 b
  | .qacc b => rowWordOk 25 b
  | .qmac b => rowWordOk 26 b
  | .qwb b => rowWordOk 27 b
  | .qld b => rowWordOk 28 b
  | .rsweep b => rowWordOk 32 b
  | .shmov b => moveWordOk 40 b
  | .bufst b => moveWordOk 41 b
  | .bufld b => moveWordOk 42 b
  | .bli b => moveWordOk 48 b
  | .badd b => moveWordOk 49 b
  | .bbr b => moveWordOk 50 b
  | .bloop b => moveWordOk 51 b
  | .bpset b => moveWordOk 52 b
  | .bsplit b => moveWordOk 53 b
  | .bjoin b => moveWordOk 54 b
  | .bsig b => moveWordOk 55 b
  | .bend b => moveWordOk 56 b
  | .bwaitt b => moveWordOk 57 b
  | .brett b => moveWordOk 58 b
  | .bnop b => moveWordOk 59 b
  | .tacuElapsed bank slot => decide (bank < 8192 ∧ slot < 4)
  | .rowPassEnd bank => decide (bank < 8192)
  | .twbkElapsed bank slot => decide (bank < 8192 ∧ slot < 4)
  | .tpreElapsed bank slot => decide (bank < 8192 ∧ slot < 4)
  | .rcopyComplete bank slot => decide (bank < 8192 ∧ slot < 4)
  | .refbComplete bank => decide (bank < 8192)
  | .busMoveEnd stream => decide (stream < 2048)
  | .refreshInterval bank => decide (bank < 8192)
  | .refreshDeadline stream => decide (stream < 2048)
  | .forcedRefresh bank => decide (bank < 8192)
  | .plinthRefresh bank => decide (bank < 8192)
  | .ordinaryAccess bank group row => decide (bank < 8192 ∧ group < 4 ∧ row < 4096)
  | .streamYield stream => decide (stream < 2048)
  | .yieldEnd stream => decide (stream < 2048)
  | .activateHint bank group row => decide (bank < 8192 ∧ group < 4 ∧ row < 4096)
  | .streamWake stream => decide (stream < 2048)
  | .streamPark stream => decide (stream < 2048)
  | .streamResume stream => decide (stream < 2048)
  | .hartWake hart => decide (hart < 4608)
  | .hartUnstall hart => decide (hart < 4608)
  | .preempt hart => decide (hart < 4608)
  | .preemptionRequest _ => true
  | .coreRecordSave _ core => decide (core < 512)
  | .hartResume _ member core => decide (member < 68 ∧ core < 512)
  | .tilePlacement ctx queue cores => decide (ctx < 65536 ∧ queue < 65536 ∧ cores.all (· < 512) = true)
  | .queueAging ctx queue => decide (ctx < 65536 ∧ queue < 65536)
  | .kernelAdmission ctx queue => decide (ctx < 65536 ∧ queue < 65536)
  | .kernelComplete _ => true
  | .kernelSkipped _ => true
  | .tileHardwareFault _ core _ => decide (core < 512)
  | .accHandoff core acc => decide (core < 512 ∧ acc < 4)
  | .matrixWordComplete core => decide (core < 512)
  | .gatherDelivered hart vd => decide (hart < 4608 ∧ vd < 32)
  | .transferOpStart ctx chan num => decide (ctx < 65536 ∧ chan < 64 ∧ 1 ≤ num)
  | .elementGroupLands ctx chan num => decide (ctx < 65536 ∧ chan < 64 ∧ 1 ≤ num)
  | .transferOpComplete ctx chan num => decide (ctx < 65536 ∧ chan < 64 ∧ 1 ≤ num)
  | .transferOpFault ctx chan num => decide (ctx < 65536 ∧ chan < 64 ∧ 1 ≤ num)
  | .lamAdmission ctx chan num => decide (ctx < 65536 ∧ chan < 16 ∧ 1 ≤ num)
  | .lamDeadline tower entry => decide (tower < 8 ∧ entry < 64)
  | .lamComputeStart tower entry => decide (tower < 8 ∧ entry < 64)
  | .lamWeightFault tower entry => decide (tower < 8 ∧ entry < 64)
  | .lamComputeEnd tower entry => decide (tower < 8 ∧ entry < 64)
  | .lamSplitComplete tower entry => decide (tower < 8 ∧ entry < 64)
  | .createContext _ => true
  | .enableQueue _ => true
  | .disableQueue _ => true
  | .suspendContext _ => true
  | .resumeContext _ => true
  | .clearContextFault _ => true
  | .destroyContext _ => true
  | .ringNotify _ => true
  | .tlbinvVa _ => true
  | .tlbinvAll _ => true
  | .tlbinvDone => true
  | .acctrSelect => true
  | .acctrClear => true
  | .remapRetireBank _ _ _ => true
  | .remapSetFloor _ _ => true
  | .remapDone => true
  | .hosterrClear => true
  | .podidWrite _ => true
  | .registerWrite _ off _ => decide (off % 8 = 0)
  | .hostBar2Read addr len => decide (addr + len ≤ 2 ^ 40)
  | .hostBar2Write addr data => decide (addr + data.length ≤ 2 ^ 40)
  | .poolPortUp port width size => decide (port < 2 ∧ width ≤ 16 ∧ size ≤ 2 ^ 25)
  | .poolPortDown port => decide (port < 2)
  | .ulportEnable port => decide (port < 36)
  | .ulportDrain port => decide (port < 36)
  | .ulportRetireLane port _ => decide (port < 36)
  | .laneTrainingDone port _ _ _ => decide (port < 36)
  | .laneErrorThreshold port _ => decide (port < 36)
  | .partnerLost port => decide (port < 36)
  | .portDrained port => decide (port < 36)
  | .flitReceived port _ => decide (port < 36)
  | .podRequestReceived peer addr op => decide (peer ≤ 1151 ∧ addr % 64 + op.bytes ≤ 64 ∧ addr + op.bytes ≤ 2 ^ 40)
  | .podResponseReceived peer _ (.line data) => decide (peer ≤ 1151 ∧ data.length = 64)
  | .podResponseReceived peer _ _ => decide (peer ≤ 1151)
  | .laneRateChange core _ => decide (core < 512)
  | .voltageDroop core => decide (core < 512)
  | .wayGate tower => decide (tower < 8)
  | .wayEnable tower => decide (tower < 8)
  | .hotTrip die col => decide (die < 8 ∧ col < 4)
  | .hotClear die col => decide (die < 8 ∧ col < 4)
  | .throttleTrip die col => decide (die < 8 ∧ col < 4)
  | .throttleClear die col => decide (die < 8 ∧ col < 4)
  | .critTrip die col => decide (die < 8 ∧ col < 4)
  | .supplyLoss => true
  | .hardPowerOff => true
  | .watchdogExpiry => true
  | .bistGo _ _ _ => true
  | .bistDone _ => true
  | .fwCommit => true
  | .fwAttest => true
  | .fwBootromRestore => true
  | .deviceReset => true
  | .taprElapsed bank slot => decide (bank < 8192 ∧ slot < 4)
  | .taadElapsed bank => decide (bank < 8192)
  | .tfawWindowElapsed tower pc => decide (tower < 8 ∧ pc < 64)
  | .yieldRowCopyEnd bank => decide (bank < 8192)
  | .plinthBufferCrossingEnd tower entry => decide (tower < 8 ∧ entry < 64)

end Sys2Proof
end

