-- ==== Sys2Proof/Certificates/Slice0/Obligations.lean ====
section
/-! DEFINITION. The statements for the provers. Each follows the rule that its docstring names; where a clause rests on
a choice of the model, the docstring names the log entry. A place `k` is 9 · core + HARTID.HART; place 9 · core + 8 is a
matrix sequencer; a bank is 1024 · tower + 16 · PC + bank; a stream is its kind-3 index. -/

open Sys2Proof Sys2Proof.Machine

/-- R121, R122: at the turn of hart k, ADD, SUB and MUL write the sum, difference and product of x[a] and x[b] modulo 2^64, MULH and MULHN bits [127:64] of the signed and the unsigned product, and the .w forms the low 32 bits of the result of the low words, sign-extended. Each answers the next state in which x[d] holds the result (x0 stays zero), the pc is 4 further, INSTRET has counted one, and nothing else has changed. -/
def Obligations.IntegerSumsAndProducts : Prop :=
  ∀ (s : State) (k : Nat) (d a b : Reg), s.HartTurn k →
    let x := (s.hart k).rd a
    let y := (s.hart k).rd b
    exec (.add d a b) s = .next (s.wrote k d (BitVec.ofNat 64 (x.toNat + y.toNat))) ∧
    exec (.sub d a b) s = .next (s.wrote k d (BitVec.ofInt 64 ((x.toNat : Int) - y.toNat))) ∧
    exec (.mul d a b) s = .next (s.wrote k d (BitVec.ofNat 64 (x.toNat * y.toNat))) ∧
    exec (.mulh d a b) s = .next (s.wrote k d (BitVec.ofInt 64 (x.toInt * y.toInt / 2 ^ 64))) ∧
    exec (.mulhn d a b) s = .next (s.wrote k d (BitVec.ofNat 64 (x.toNat * y.toNat / 2 ^ 64))) ∧
    exec (.addW d a b) s = .next (s.wrote k d ((BitVec.ofNat 32 (x.toNat + y.toNat)).signExtend 64)) ∧
    exec (.subW d a b) s = .next (s.wrote k d ((BitVec.ofInt 32 ((x.toNat : Int) - y.toNat)).signExtend 64)) ∧
    exec (.mulW d a b) s = .next (s.wrote k d ((BitVec.ofNat 32 (x.toNat * y.toNat)).signExtend 64))

/-- R121, R122: AND, OR, XOR and ANDN combine x[a] and x[b] bit by bit; SLL, SRL, SRA, ROL and ROR move x[a] by b[5:0], and SLL.W, SRL.W, SRA.W the low word by b[4:0], with the 32-bit result sign-extended. Each answers the next state in which x[d] holds the result, the pc is 4 further, INSTRET has counted one, and nothing else has changed. -/
def Obligations.IntegerLogicAndShifts : Prop :=
  ∀ (s : State) (k : Nat) (d a b : Reg), s.HartTurn k →
    let x := (s.hart k).rd a
    let y := (s.hart k).rd b
    let n := y.toNat % 64
    let x32 : BitVec 32 := BitVec.ofNat 32 x.toNat
    let n32 := y.toNat % 32
    exec (.and d a b) s = .next (s.wrote k d (x &&& y)) ∧
    exec (.or d a b) s = .next (s.wrote k d (x ||| y)) ∧
    exec (.xor d a b) s = .next (s.wrote k d (x ^^^ y)) ∧
    exec (.andn d a b) s = .next (s.wrote k d (x &&& ~~~y)) ∧
    exec (.sll d a b) s = .next (s.wrote k d (BitVec.ofNat 64 (x.toNat * 2 ^ n))) ∧
    exec (.srl d a b) s = .next (s.wrote k d (BitVec.ofNat 64 (x.toNat / 2 ^ n))) ∧
    exec (.sra d a b) s = .next (s.wrote k d (BitVec.ofInt 64 (x.toInt / 2 ^ n))) ∧
    exec (.rol d a b) s = .next (s.wrote k d (BitVec.ofNat 64 (x.toNat * 2 ^ n + x.toNat / 2 ^ (64 - n)))) ∧
    exec (.ror d a b) s = .next (s.wrote k d (BitVec.ofNat 64 (x.toNat / 2 ^ n + x.toNat * 2 ^ (64 - n)))) ∧
    exec (.sllW d a b) s = .next (s.wrote k d ((BitVec.ofNat 32 (x32.toNat * 2 ^ n32)).signExtend 64)) ∧
    exec (.srlW d a b) s = .next (s.wrote k d ((BitVec.ofNat 32 (x32.toNat / 2 ^ n32)).signExtend 64)) ∧
    exec (.sraW d a b) s = .next (s.wrote k d ((BitVec.ofInt 32 (x32.toInt / 2 ^ n32)).signExtend 64))

/-- R121: SLT and SLTN write 1 where x[a] is less than x[b], signed or unsigned, else 0; MIN, MAX, MINN and MAXN the signed or unsigned minimum or maximum; CLZ and CTZ the number of leading or trailing zero bits of x[a], 64 for zero, stated by the number whose bits around the first one bit are as the count says; POPC the number of one bits. Each answers the next state in which x[d] holds the result, the pc is 4 further, INSTRET has counted one, and nothing else has changed. -/
def Obligations.IntegerComparisonsAndCounts : Prop :=
  ∀ (s : State) (k : Nat) (d a b : Reg), s.HartTurn k →
    let x := (s.hart k).rd a
    let y := (s.hart k).rd b
    exec (.slt d a b) s = .next (s.wrote k d (if x.toInt < y.toInt then 1 else 0)) ∧
    exec (.sltn d a b) s = .next (s.wrote k d (if x.toNat < y.toNat then 1 else 0)) ∧
    exec (.min d a b) s = .next (s.wrote k d (BitVec.ofInt 64 (min x.toInt y.toInt))) ∧
    exec (.max d a b) s = .next (s.wrote k d (BitVec.ofInt 64 (max x.toInt y.toInt))) ∧
    exec (.minn d a b) s = .next (s.wrote k d (BitVec.ofNat 64 (min x.toNat y.toNat))) ∧
    exec (.maxn d a b) s = .next (s.wrote k d (BitVec.ofNat 64 (max x.toNat y.toNat))) ∧
    (∃ n ≤ 64, exec (.clz d a) s = .next (s.wrote k d (BitVec.ofNat 64 n)) ∧ x.toNat < 2 ^ (64 - n) ∧
      (n < 64 → 2 ^ (63 - n) ≤ x.toNat)) ∧
    (∃ n ≤ 64, exec (.ctz d a) s = .next (s.wrote k d (BitVec.ofNat 64 n)) ∧ x.toNat % 2 ^ n = 0 ∧
      (n < 64 → x.toNat / 2 ^ n % 2 = 1)) ∧
    exec (.popc d a) s = .next (s.wrote k d (BitVec.ofNat 64 ((List.range 64).countP fun i => x.getLsbD i)))

/-- R121, R122, R40: division by zero gives the quotient all ones and the dividend as remainder; the most negative number divided by -1 gives the most negative number and remainder 0; otherwise the quotient is truncated toward zero and the remainder is dividend - quotient × divisor; the .w forms do this on the low words and sign-extend. None traps. Each answers the next state in which x[d] holds the result, the pc is 4 further, INSTRET has counted one, and nothing else has changed. -/
def Obligations.IntegerDivision : Prop :=
  ∀ (s : State) (k : Nat) (d a b : Reg), s.HartTurn k →
    let x := (s.hart k).rd a
    let y := (s.hart k).rd b
    let x32 : BitVec 32 := BitVec.ofNat 32 x.toNat
    let y32 : BitVec 32 := BitVec.ofNat 32 y.toNat
    exec (.div d a b) s = .next (s.wrote k d (if y.toInt = 0 then BitVec.ofInt 64 (-1)
      else BitVec.ofInt 64 (x.toInt.tdiv y.toInt))) ∧
    exec (.rem d a b) s = .next (s.wrote k d (if y.toInt = 0 then x else BitVec.ofInt 64 (x.toInt.tmod y.toInt))) ∧
    exec (.divn d a b) s = .next (s.wrote k d (if y.toNat = 0 then BitVec.ofInt 64 (-1)
      else BitVec.ofNat 64 (x.toNat / y.toNat))) ∧
    exec (.remn d a b) s = .next (s.wrote k d (if y.toNat = 0 then x else BitVec.ofNat 64 (x.toNat % y.toNat))) ∧
    exec (.divW d a b) s = .next (s.wrote k d (BitVec.signExtend 64 (if y32.toInt = 0 then BitVec.ofInt 32 (-1)
      else BitVec.ofInt 32 (x32.toInt.tdiv y32.toInt)))) ∧
    exec (.remW d a b) s = .next (s.wrote k d (BitVec.signExtend 64 (if y32.toInt = 0 then x32
      else BitVec.ofInt 32 (x32.toInt.tmod y32.toInt)))) ∧
    exec (.divnW d a b) s = .next (s.wrote k d (BitVec.signExtend 64 (if y32.toNat = 0 then BitVec.ofInt 32 (-1)
      else BitVec.ofNat 32 (x32.toNat / y32.toNat)))) ∧
    exec (.remnW d a b) s = .next (s.wrote k d (BitVec.signExtend 64 (if y32.toNat = 0 then x32
      else BitVec.ofNat 32 (x32.toNat % y32.toNat))))

/-- R123, R124, R125: with s the sign-extended imm15, ADDI, ANDI, ORI and XORI combine x[a] with s, SLTI and SLTNI compare with it; the shift forms shift or rotate x[a] by 0 to 63; LDHI writes the 20-bit field times 2^12, sign-extended from bit 31, and ADDPC adds it to the address of the instruction. Each answers the next state in which x[d] holds the result, the pc is 4 further, INSTRET has counted one, and nothing else has changed. -/
def Obligations.ImmediateResults : Prop :=
  ∀ (s : State) (k : Nat) (d a : Reg) (imm : BitVec 15) (sh : BitVec 6) (hi : BitVec 20), s.HartTurn k →
    let x := (s.hart k).rd a
    let m : Word := BitVec.ofInt 64 imm.toInt
    let u : Int := hi.toInt * 2 ^ 12
    exec (.addi d a imm) s = .next (s.wrote k d (BitVec.ofInt 64 (x.toNat + imm.toInt))) ∧
    exec (.andi d a imm) s = .next (s.wrote k d (x &&& m)) ∧
    exec (.ori d a imm) s = .next (s.wrote k d (x ||| m)) ∧
    exec (.xori d a imm) s = .next (s.wrote k d (x ^^^ m)) ∧
    exec (.slti d a imm) s = .next (s.wrote k d (if x.toInt < imm.toInt then 1 else 0)) ∧
    exec (.sltni d a imm) s = .next (s.wrote k d (if x.toNat < m.toNat then 1 else 0)) ∧
    exec (.slli d a sh) s = .next (s.wrote k d (BitVec.ofNat 64 (x.toNat * 2 ^ sh.toNat))) ∧
    exec (.srli d a sh) s = .next (s.wrote k d (BitVec.ofNat 64 (x.toNat / 2 ^ sh.toNat))) ∧
    exec (.srai d a sh) s = .next (s.wrote k d (BitVec.ofInt 64 (x.toInt / 2 ^ sh.toNat))) ∧
    exec (.rori d a sh) s = .next (s.wrote k d
      (BitVec.ofNat 64 (x.toNat / 2 ^ sh.toNat + x.toNat * 2 ^ (64 - sh.toNat)))) ∧
    exec (.ldhi d hi) s = .next (s.wrote k d (BitVec.ofInt 64 u)) ∧
    exec (.addpc d hi) s = .next (s.wrote k d (BitVec.ofInt 64 ((s.hart k).pc.toNat + u)))

/-- R106: after the write of v to x[d], x0 reads zero, x[d] reads v where d is not 0, and every other x register reads as before; a write to x0 changes nothing of the hart. -/
def Obligations.XZeroReadsZero : Prop :=
  ∀ (h : Hart) (d r : Reg) (v : Word),
    (h.wr d v).rd r = (if r = 0 then 0 else if r = d then v else h.rd r) ∧ h.wr 0 v = h ∧ (h.wr d v).v = h.v ∧
      (h.wr d v).pc = h.pc ∧ (h.wr d v).fflags = h.fflags ∧ (h.wr d v).tstat = h.tstat

/-- R90, R205, R206: HINT (major 0x3F) is a no-op. FENCE and FENCE.I order accesses, which in this model perform whole in one order of steps (log 1, log 7, the model's choice), so each answers the next state in which the pc is 4 further, INSTRET has counted one, and nothing else has changed. -/
def Obligations.FencesAndHintOnlyAdvance : Prop :=
  ∀ (s : State) (k : Nat) (m : BitVec 16) (sc : BitVec 3) (imm : BitVec 25), s.HartTurn k →
    exec (.fence m sc) s = .next (s.advanced k) ∧ exec .fenceI s = .next (s.advanced k) ∧
      exec (.hint imm) s = .next (s.advanced k)

/-- R127: with t = pc + 4 × sext(imm12) modulo 2^64, each branch answers the next state at t where its condition on x[a] and x[b] holds, and at pc + 4 otherwise; INSTRET has counted one and nothing else has changed. -/
def Obligations.BranchesGoWhereTheConditionSays : Prop :=
  ∀ (s : State) (k : Nat) (a b : Reg) (off : BitVec 12), s.HartTurn k →
    let h := s.hart k
    let x := h.rd a
    let y := h.rd b
    let go (c : Prop) [Decidable c] : State :=
      s.after k h (if c then BitVec.ofInt 64 (h.pc.toNat + 4 * off.toInt) else BitVec.ofNat 64 (h.pc.toNat + 4))
    exec (.beq a b off) s = .next (go (x.toNat = y.toNat)) ∧ exec (.bne a b off) s = .next (go (x.toNat ≠ y.toNat)) ∧
    exec (.blt a b off) s = .next (go (x.toInt < y.toInt)) ∧ exec (.bge a b off) s = .next (go (y.toInt ≤ x.toInt)) ∧
    exec (.bltn a b off) s = .next (go (x.toNat < y.toNat)) ∧ exec (.bgen a b off) s = .next (go (y.toNat ≤ x.toNat))

/-- R128: JAL writes pc + 4 to x[d] and goes to pc + 4 × sext(imm20). JALR forms t = x[a] + sext(imm15) modulo 2^64 from the old registers; where t is a multiple of 4 it writes pc + 4 to x[d] and goes to t; else it takes MISALIGNED with TVAL t, and x[d] is unchanged. INSTRET counts a jump that completes, and nothing else changes. -/
def Obligations.JumpsLinkAndGo : Prop :=
  ∀ (s : State) (k : Nat) (d a : Reg) (off : BitVec 20) (imm : BitVec 15), s.HartTurn k →
    let h := s.hart k
    let t : Word := BitVec.ofInt 64 ((h.rd a).toNat + imm.toInt)
    exec (.jal d off) s =
      .next (s.after k (h.wr d (BitVec.ofNat 64 (h.pc.toNat + 4))) (BitVec.ofInt 64 (h.pc.toNat + 4 * off.toInt))) ∧
    (t.toNat % 4 = 0 → exec (.jalr d a imm) s = .next (s.after k (h.wr d (BitVec.ofNat 64 (h.pc.toNat + 4))) t)) ∧
    (t.toNat % 4 ≠ 0 → exec (.jalr d a imm) s = .next (s.trapped k 4 t 0))

/-- The state after a load or an atomic of `n` bytes that found leaf `l` and leaves memory as in `s1`: x[d] holds `v`,
and the WAITE monitor is armed on the accessed line (04 R132). -/
def Sys2Proof.Machine.State.loaded (s s1 : State) (k : Nat) (d : Reg) (l : Leaf) (v : Word) : State :=
  s1.after k { (s1.hart k).wr d v with monitor := some ⟨homeKey s1 l.pa / 64, false⟩ } ((s.hart k).pc + 4)

/-- R126: where ea = x[a] + imm8 × n is a multiple of n = 2^size and the access passes its checks at leaf l, LD answers the next state in which x[d] holds the n bytes at ea, least significant first, sign-extended with sx and zero-extended without (x0 stays zero), the WAITE monitor is armed on the line, the pc is 4 further and INSTRET has counted one. What the access itself leaves is named: access counters of a counted leaf (18 R401) and a used answer of a peer (19 R416); every other register, flag and byte is as before. R126, R118: an LD or ST whose ea is not a multiple of its size takes MISALIGNED (cause 4) with TVAL the address and TVAL2 0, and so does an atomic whose x[a] is not a multiple of 4 or 8; nothing is loaded, stored or written. R126: where ea is a multiple of n = 2^size and the access passes its checks at leaf l, ST answers the next state left by the store of the n low bytes of x[b], least significant first, at the physical address of l, with the pc 4 further and INSTRET counted; the store also counts an access through a counted leaf (18 R401) and marks the monitors of other agents on the line (04 R132); no register of the hart but those changes. -/
def Obligations.LoadsAndStoresComplete : Prop :=
  (∀ (s : State) (k : Nat) (d a : Reg) (cls : BitVec 4) (size : BitVec 2) (sx : Bool) (imm : BitVec 8) (l : Leaf) (v : Nat),
    s.HartTurn k →
    let h := s.hart k
    let n : Nat := 2 ^ size.toNat
    let ea : Word := BitVec.ofInt 64 ((h.rd a).toNat + imm.toInt * n)
    ea.toNat % n = 0 → hartLoad s h ea n .load 0 = .ok (l, v) →
    v = ofBytes (physBytes s l.pa n) ∧
    exec (.ld d a cls size sx imm) s = .next (s.loaded (podUsed (countHart s l) l.pa) k d l
      (if sx then BitVec.ofInt 64 (signedOf (8 * n) v) else BitVec.ofNat 64 v))) ∧
  (∀ (s : State) (k : Nat) (d a b : Reg) (cls : BitVec 4) (size : BitVec 2) (sx : Bool) (imm : BitVec 8) (w : Bool),
    s.HartTurn k →
    let h := s.hart k
    let n : Nat := 2 ^ size.toNat
    let ea : Word := BitVec.ofInt 64 ((h.rd a).toNat + imm.toInt * n)
    (ea.toNat % n ≠ 0 → exec (.ld d a cls size sx imm) s = .next (s.trapped k 4 ea 0) ∧
      exec (.st b a cls size imm) s = .next (s.trapped k 4 ea 0)) ∧
    ((h.rd a).toNat % (if w then 4 else 8) ≠ 0 →
      ∀ (sem : BitVec 2) (sc : BitVec 3), ∀ f ∈ [Instr.amoswap, .amoadd, .amoand, .amoor, .amoxor, .amomin, .amomax,
        .amominn, .amomaxn, .cas], exec (f d a b sem sc w) s = .next (s.trapped k 4 (h.rd a) 0))) ∧
  (∀ (s : State) (k : Nat) (a b : Reg) (cls : BitVec 4) (size : BitVec 2) (imm : BitVec 8) (l : Leaf),
    s.HartTurn k →
    let h := s.hart k
    let n : Nat := 2 ^ size.toNat
    let ea : Word := BitVec.ofInt 64 ((h.rd a).toNat + imm.toInt * n)
    let bytes := toBytes n (h.rd b).toNat
    ea.toNat % n = 0 → hartAddr s h ea n .store 0 (.write bytes) = .ok l →
    let t := podUsed (store (countHart s l) l.pa bytes (some k)) l.pa
    exec (.st b a cls size imm) s = .next (t.after k (t.hart k) (h.pc + 4)))

/-- Frame of ST (R126): where the n bytes at the translated address lie in DRAM (other than row 0, which no access may write), a scratchpad or the pool, and memory is canonical, then in the next state byte i of them reads as byte i of x[b]; and every byte of the address space below the pod space, and outside the stored bytes and any other name of them, reads as before, but for what an access counter may write to its ring (18 R401). The address is the one that hartAddr computes from ea. -/
def Obligations.StoreFrame : Prop :=
  ∀ (s t : State) (k : Nat) (a b : Reg) (cls : BitVec 4) (size : BitVec 2) (imm : BitVec 8) (l : Leaf),
    s.HartTurn k → memWf s.mem = true → (s.hart k).life ≠ .free →
    let h := s.hart k
    let n : Nat := 2 ^ size.toNat
    let ea : Word := BitVec.ofInt 64 ((h.rd a).toNat + imm.toInt * n)
    ea.toNat % n = 0 → hartAddr s h ea n .store 0 (.write (toBytes n (h.rd b).toNat)) = .ok l →
    (l.cnt && s.host.acen) = false →
    (∀ i < n, ∃ key, physHome s (l.pa + i) = .mem key ∧ isRowZero key = false) →
    (∀ i < n, ∀ j < n, homeKey s (l.pa + i) = homeKey s (l.pa + j) → i = j) →
    exec (.st b a cls size imm) s = .next t →
    (∀ i < n, physByte t (l.pa + i) = BitVec.ofNat 8 ((h.rd b).toNat / 256 ^ i)) ∧
    (∀ p < 2 ^ 50, (∀ i < n, homeKey s p ≠ homeKey s (l.pa + i)) → physByte t p = physByte s p)

/-- The state after an AMO or CAS of width `n` that read at leaf `l` and wrote `new`, or nothing. -/
def Sys2Proof.Machine.State.atomicDone (s : State) (k : Nat) (d : Reg) (l : Leaf) (n : Nat) (new : Option Nat) (old : Word) : State :=
  s.loaded (match new with
    | some v => hartStore s k l (toBytes n v) false
    | none => podUsed (countHart s l) l.pa) k d l old

/-- R202, R204: at an aligned address whose access passes its checks, with o the old value of the word or dword, b the low part of x[b] and c of x[d]: AMOSWAP stores b, AMOADD o + b modulo the width, AMOAND, AMOOR and AMOXOR combine bit by bit, AMOMIN and AMOMAX store the signed and AMOMINN and AMOMAXN the unsigned minimum and maximum, and CAS stores b where o = c and nothing otherwise. Each answers the next state: x[d] holds o (a word sign-extended), the monitor is armed on the line, the pc is 4 further and INSTRET has counted one. -/
def Obligations.AtomicsReadModifyWrite : Prop :=
  ∀ (s : State) (k : Nat) (d a b : Reg) (sem : BitVec 2) (sc : BitVec 3) (w : Bool), s.HartTurn k →
    let h := s.hart k
    let n : Nat := if w then 4 else 8
    (h.rd a).toNat % n = 0 →
    let m := 2 ^ (8 * n)
    let y := (h.rd b).toNat % m
    let c := (h.rd d).toNat % m
    let sg (v : Nat) : Int := signedOf (8 * n) v
    let does (i : Instr) (op : AmoOp) (new : Nat → Option Nat) : Prop :=
      ∀ (l : Leaf) (o : Nat), hartLoad s h (h.rd a) n .atomic 0 (.amo op w y c) = .ok (l, o) →
        exec i s = .next (s.atomicDone k d l n (new o)
          (if w then BitVec.ofInt 64 (signedOf 32 o) else BitVec.ofNat 64 o))
    does (.amoswap d a b sem sc w) .swap (fun _ => some y) ∧
    does (.amoadd d a b sem sc w) .add (fun o => some ((o + y) % m)) ∧
    does (.amoand d a b sem sc w) .and (fun o => some (o &&& y)) ∧
    does (.amoor d a b sem sc w) .or (fun o => some (o ||| y)) ∧
    does (.amoxor d a b sem sc w) .xor (fun o => some (o ^^^ y)) ∧
    does (.amomin d a b sem sc w) .min (fun o => some (if sg y ≤ sg o then y else o)) ∧
    does (.amomax d a b sem sc w) .max (fun o => some (if sg o < sg y then y else o)) ∧
    does (.amominn d a b sem sc w) .minn (fun o => some (if y ≤ o then y else o)) ∧
    does (.amomaxn d a b sem sc w) .maxn (fun o => some (if o ≤ y then y else o)) ∧
    does (.cas d a b sem sc w) .cas (fun o => if o = c then some y else none)

/-- R132, for a line that passes the checks of a load: with no monitor, or one on another line, WAITE completes: it arms the monitor and writes 1; with a monitor on the line, not seen, a hart that is not waiting becomes WAITING at the WAITE; a waiting hart that goes on completes with 0 where the monitor has been seen written, and 1 on any other wake. A monitor already seen when WAITE issues gives 1 and arms again (the pseudocode of R132, log 24). In each case the hart has done with a peer's answer on the line. -/
def Obligations.WaiteArmsWaitsAndWakes : Prop :=
  ∀ (s : State) (k : Nat) (d a : Reg) (l : Leaf), s.HartTurn k → hartAddr s (s.hart k) ((s.hart k).rd a) 1 .load 0 = .ok l →
    let h := s.hart k
    let line := homeKey s l.pa / 64
    let u := podUsed s l.pa
    let again : State := u.after k { h.wr d 1 with monitor := some ⟨line, false⟩ } (h.pc + 4)
    (h.monitor = none → exec (.waite d a) s = .next again) ∧
    (∀ m, h.monitor = some m → m.line ≠ line → exec (.waite d a) s = .next again) ∧
    (h.monitor = some ⟨line, false⟩ → h.life ≠ .waiting →
      exec (.waite d a) s = .next (u.setHart k { h with life := .waiting, latched := some (.waite d a) })) ∧
    (h.monitor = some ⟨line, true⟩ → h.life ≠ .waiting → exec (.waite d a) s = .next again) ∧
    (∀ seen, h.monitor = some ⟨line, seen⟩ → h.life = .waiting →
      exec (.waite d a) s = .next (u.wrote k d (if seen then 0 else 1)))

/-- R115, R116, R119: a synchronous trap of cause c with v1 and v2 is delegated when PRV is U, TDELEG bit c is 1 and UIE is 1. Then the U copies of TEPC, TCAUSE, TVAL and TVAL2 take the pc, c, v1 and v2, UPIE takes UIE, UIE is 0 and the pc is U.TVEC; else the S copies take them, PPRV takes PRV, PIE takes IE, IE is 0, PRV is S and the pc is S.TVEC, and while the device runtime is being committed (20 R427) such a trap waits. A trap of a sequencer also waits for its matrix word in progress (12 R311), and leaves its VSTART at slot 0, which the RETT to its header brings back (log 60, the model's choice). The other level's copies, x, v and p registers, flags, other harts and memory are as before; the monitor is disarmed, the register of a waiting VEXTA full again, and the hart READY. ENGINE_FAULT also writes ENGFAULT.HANDLE and OPNUM. R129: TRAP takes TRAP_INSTR (20), TVAL its code. R130: RETT waits for registers still to be written; then at S the pc is S.TEPC, PRV is PPRV and IE is PIE; at U the pc is U.TEPC and UIE is UPIE. The monitor is disarmed and INSTRET counts one. A service of a pre-emption request ends (14 R349): the registers empty or failed at its PREEMPT are so again; and unless VSTATE is OFF the register-bound transfers and SRD instructions it stopped go on (14 R356, log 23). The x and p registers, flags, saved copies, memory and other harts are as before. -/
def Obligations.TrapAndReturn : Prop :=
  (∀ (s : State) (k c : Nat) (v1 v2 : Word), 0 < c → c < 32 →
    let h := s.hart k
    let t := s.trapped k c v1 v2
    let g := t.hart k
    let cw : Word := BitVec.ofNat 64 c
    let deleg : Prop := h.tstat.prv = false ∧ h.tdeleg.getLsbD c = true ∧ h.tstat.uie = true
    let paused : Prop := s.svc.fwbusy = true ∧ s.svc.fwcmd = 1 ∧ s.svc.fwcomp = 3
    let waits : Prop := (paused ∧ ¬deleg) ∨ (isSeqPlace k = true ∧ (s.core (k / 9)).job.isSome = true)
    (waits → t = s.setHart k { h with life := if h.life = .waiting then .waiting else .stalled }) ∧
    (¬waits → deleg → g.u.tepc = h.pc ∧ g.u.tcause = cw ∧ g.u.tval = v1 ∧ g.u.tval2 = v2 ∧ g.u.tvec = h.u.tvec ∧
      g.u.tscr = h.u.tscr ∧ g.tstat = { h.tstat with upie := h.tstat.uie, uie := false } ∧ g.pc = h.u.tvec ∧ g.s = h.s) ∧
    (¬waits → ¬deleg → g.s.tepc = h.pc ∧ g.s.tcause = cw ∧ g.s.tval = v1 ∧ g.s.tval2 = v2 ∧ g.s.tvec = h.s.tvec ∧
      g.s.tscr = h.s.tscr ∧ g.tstat = { h.tstat with pprv := h.tstat.prv, pie := h.tstat.ie, ie := false, prv := true } ∧
      g.pc = h.s.tvec ∧ g.u = h.u) ∧
    (¬waits → g.slot = (if isSeqPlace k then 0 else h.slot) ∧
      g.full = (match h.draining with | some r => h.full ||| ((1 : BitVec 32) <<< r) | none => h.full) ∧
      (c = 12 → g.engfault.extractLsb' 0 16 = v1.extractLsb' 0 16 ∧
        g.engfault.extractLsb' 16 48 = v2.extractLsb' 0 48) ∧
      (c ≠ 12 → g.engfault = h.engfault) ∧ g.monitor = none ∧ g.life = .ready ∧ g.x = h.x ∧ g.v = h.v ∧ g.p = h.p ∧
      g.fflags = h.fflags ∧ g.instret = h.instret ∧ g.tdeleg = h.tdeleg ∧ t.mem = s.mem ∧
      (∀ j, j ≠ k → t.hart j = s.hart j))) ∧
  (∀ (s : State) (k : Nat), s.HartTurn k →
    let h := s.hart k
    let pc := if h.tstat.prv then h.s.tepc else h.u.tepc
    let h1 : Hart := Hart.regainSlot { h with
      pc := pc, monitor := none, service := false,
      full := if h.service then h.full &&& ~~~h.emptyAt else h.full,
      failed := if h.service then h.failedAt else h.failed,
      tstat := if h.tstat.prv then { h.tstat with prv := h.tstat.pprv, ie := h.tstat.pie }
        else { h.tstat with uie := h.tstat.upie } } k
    (∀ code : BitVec 10, exec (.trap code) s = .next (s.trapped k 20 (code.zeroExtend 64) 0)) ∧
    (h.busyRegs = true → exec .rett s = .next (s.setHart k { h with life := .stalled })) ∧
    (h.busyRegs = false → ∃ t, exec .rett s = .next t ∧
      t = (if h.vstate = .off then s.after k h1 pc
        else (resumeBound s k).after k (Hart.advanceReads { h1 with readsHeld := false }) pc) ∧
      (let g := t.hart k
       g.pc = pc ∧ g.tstat = h1.tstat ∧ g.monitor = none ∧ g.service = false ∧ g.instret = h.instret + 1 ∧
       g.life = .ready ∧ g.x = h.x ∧ g.p = h.p ∧ g.fflags = h.fflags ∧ g.u = h.u ∧ g.s = h.s ∧ g.tdeleg = h.tdeleg ∧
       (h.reads = [] → g.v = h.v ∧ g.full = h1.full ∧ g.ffi = h.ffi) ∧ t.mem = s.mem ∧
       (∀ j, j ≠ k → t.hart j = s.hart j))))

/-- R131, with no request in service: `yield` answers the next state in which only pc, INSTRET and the round-robin order have changed, the hart standing last; with a request pending the hart owes PREEMPT, which, with no SRD issued last, may then be taken before the next instruction, with its address in TEPC, even at S with IE 0. `yield.v` first sets VDIRTY to 0, VSTATE to OFF and the released mark, after cutting back the hart's register-bound transfers. With a request in service the hart parks: its place is FREE and its member PARKED. YIELD waits: `yield.v` for registers still to be written, a park for gathers in flight and a sequencer's word in progress. -/
def Obligations.YieldReleasesAndTakesItsPlace : Prop :=
  ∀ (s : State) (k : Nat) (v : Bool), s.HartTurn k →
    let h := s.hart k
    let s1 := if v then (cutBound s k).setHart k
      { (cutBound s k).hart k with vdirty := 0, vstate := .off, released := true } else s
    let held : Prop := v = true ∧ h.busyRegs = true ∨ h.service = true ∧ h.gathers ≠ []
    let word : Bool := isSeqPlace k && (s.core (k / 9)).job.isSome
    (held → exec (.yield v) s = .next (s.setHart k { h with life := .stalled })) ∧
    (¬held → h.service = false → h.preempt = false →
      let t := s1.after k (s1.hart k) (h.pc + 4)
      exec (.yield v) s = .next (t.setCore (k / 9) { t.core (k / 9) with
        yielded := (t.core (k / 9)).yielded.set k [] })) ∧
    (¬held → h.service = false → h.preempt = true →
      let t := s1.after k { s1.hart k with owed := true } (h.pc + 4)
      exec (.yield v) s = .next t ∧
      (h.exiting = false → s.pod.all (fun p => p.by_ != 4 * k) = true → word = false → s.runtimePaused = false →
        (∀ x ∈ (t.hart k).reads, x.count ≠ (t.hart k).instret) → h.tdeleg.getLsbD 21 = false →
        ∃ t', exec (.preempt k) t = .next t' ∧ (t'.hart k).s.tepc = h.pc + 4 ∧ (t'.hart k).service = true ∧
          (t'.hart k).s.tcause = 21 + 256)) ∧
    (¬held → h.service = true → word = true → exec (.yield v) s = .next (s.setHart k { h with life := .waiting })) ∧
    (¬held → h.service = true → word = false →
      exec (.yield v) s = .next (parkHart s1 k) ∧
      ∀ g kk m o cx, s.groupOf h = some (g, kk) → g.members.get? (memberNo g k h) = some m → m.parkAt = some o →
        s.ctxs.get? kk.ctx = some cx →
        ∃ t g' m', exec (.yield v) s = .next t ∧ (t.hart k).life = .free ∧ t.groups.get? h.group = some g' ∧
          g'.members.get? (memberNo g k h) = some m' ∧ m'.at_ = .parked)

/-- The hart or sequencer at place `k` may access CSR `n` at its level now, writing or not (04 R107, R108): the CSR is
one of its own, the level has the right, a U access to vector state finds VSTATE not OFF, and every
earlier instruction has written its registers (R113). -/
def Sys2Proof.Machine.State.mayCsr (s : State) (k n : Nat) (wr : Bool) : Prop :=
  let h := s.hart k
  h.busyRegs = false ∧
  (∃ u v, csrAccess (isSeqPlace k) n = some (u, v) ∧ (if h.tstat.prv then v else u) ≠ .no ∧
    (wr = true → (if h.tstat.prv then v else u) = .rw)) ∧
  ¬(h.tstat.prv = false ∧ 0x021 ≤ n ∧ n ≤ 0x026 ∧ h.vstate = .off)

/-- R112: where access is allowed, CSRR writes the old value to x[d]; CSRW writes x[a] to the CSR, CSRS the old value OR x[a], CSRC the old value AND NOT x[a]; CSRX does both, x[d] getting the old value. Each answers the next state with the pc 4 further; INSTRET counts one, but a write of INSTRET leaves exactly the value written (R111). -/
def Obligations.CsrInstructionsCompleteWithOldValue : Prop :=
  ∀ (s : State) (k : Nat) (d a : Reg) (csr : BitVec 12), s.HartTurn k →
    let h := s.hart k
    let n := csr.toNat
    let old := csrRead s k h n
    let x := h.rd a
    let done (t : State) : State := t.after k (t.hart k) (h.pc + 4)
    (s.mayCsr k n false → exec (.csrr d csr) s = .next (s.wrote k d old)) ∧
    (s.mayCsr k n true →
      exec (.csrw a csr) s = .next (done (csrWrite s k n x)) ∧
      exec (.csrs a csr) s = .next (done (csrWrite s k n (old ||| x))) ∧
      exec (.csrc a csr) s = .next (done (csrWrite s k n (old &&& ~~~x))) ∧
      exec (.csrx d a csr) s = .next (done ((csrWrite s k n x).wrX k d old)) ∧
      (n = 0x061 → ∃ t, exec (.csrw a csr) s = .next t ∧ (t.hart k).instret = x))

/-- R108, R112, R107, with no register still to be written by an earlier instruction (R113), for each CSR instruction i (CSRR reads; CSRW, CSRS, CSRC and CSRX also write): an unassigned number, or a CSR that this place does not hold, traps ILLEGAL_INSTR (1); a write to a CSR that is read-only at every level traps ILLEGAL_INSTR; an access that the level lacks otherwise traps PRIVILEGE (3) with TVAL2 the CSR number; a U access to CSRs 0x021 to 0x026 with VSTATE OFF that has the right traps VEC_ABSENT (10) with TVAL2 0x1_0000 plus the number. TVAL of the first three is the parcel. -/
def Obligations.CsrAccessTraps : Prop :=
  ∀ (s : State) (k : Nat) (d a : Reg) (csr : BitVec 12), s.HartTurn k → (s.hart k).busyRegs = false →
    let h := s.hart k
    let n := csr.toNat
    let rd : Instr := .csrr d csr
    let wrs : List Instr := [.csrw a csr, .csrs a csr, .csrc a csr, .csrx d a csr]
    let nn : Word := BitVec.ofNat 64 n
    (csrAccess (isSeqPlace k) n = none → ∀ i ∈ rd :: wrs, exec i s = .next (s.trapped k 1 (parcelWord i) 0)) ∧
    (∀ u v, csrAccess (isSeqPlace k) n = some (u, v) →
      let here := if h.tstat.prv then v else u
      let off : Prop := h.tstat.prv = false ∧ 0x021 ≤ n ∧ n ≤ 0x026 ∧ h.vstate = .off
      (u ≠ .rw ∧ v ≠ .rw → ∀ i ∈ wrs, exec i s = .next (s.trapped k 1 (parcelWord i) 0)) ∧
      (here = .no → exec rd s = .next (s.trapped k 3 (parcelWord rd) nn)) ∧
      ((u = .rw ∨ v = .rw) ∧ here ≠ .rw → ∀ i ∈ wrs, exec i s = .next (s.trapped k 3 (parcelWord i) nn)) ∧
      (here ≠ .no → off → exec rd s = .next (s.trapped k 10 0 (BitVec.ofNat 64 (0x1_0000 + n)))) ∧
      (here = .rw → off → ∀ i ∈ wrs, exec i s = .next (s.trapped k 10 0 (BitVec.ofNat 64 (0x1_0000 + n)))))

/-- R109, R110, R112, field by field at the level of the access: TVEC and TEPC keep bits [1:0] zero, TCAUSE holds 9 bits, TVAL, TSCR, TVAL2, VXQC and ENGFAULT hold all 64, FFI, SRSEED, SRBASE and MQTOL 32, VTYPE and FFLAGS 5 bits, VDIRTY 40, VSTART its element and slot; TDELEG drops the bits of causes that R118 marks not delegable; FRM keeps its value on a write above 4 (R49), MQRMAX above 32, VSTATE on a write of 3; TSTAT.PRV ignores writes. For TVEC to TVAL2 the other level's copy is as before. -/
def Obligations.CsrWriteFields : Prop :=
  ∀ (s : State) (k : Nat) (v : Word),
    let h := s.hart k
    let rd (n : Nat) : Word := csrRead (csrWrite s k n v) k ((csrWrite s k n v).hart k) n
    let low (b : Nat) : Word := BitVec.ofNat 64 (v.toNat % 2 ^ b)
    rd 0x010 = v &&& ~~~3 ∧ rd 0x011 = v &&& ~~~3 ∧ rd 0x012 = low 9 ∧ rd 0x013 = v ∧ rd 0x014 = v ∧ rd 0x017 = v ∧
    rd 0x018 = v &&& ~~~3 ∧ rd 0x019 = v &&& ~~~3 ∧ rd 0x01A = low 9 ∧ rd 0x01B = v ∧ rd 0x01C = v ∧ rd 0x01D = v ∧
    rd 0x015 = low 32 &&& 0xFFDF_FA17 ∧ rd 0x016 = (low 6 &&& 0x3E) ||| (if h.tstat.prv then 1 else 0) ∧
    rd 0x021 = low 5 ∧ rd 0x022 = low 35 ∧ rd 0x024 = low 40 ∧ rd 0x025 = low 32 ∧ rd 0x026 = v ∧
    rd 0x023 = (if v.toNat % 4 = 3 then BitVec.ofNat 64 h.vstate.code else low 2) ∧
    rd 0x030 = low 5 ∧ rd 0x031 = (if v.toNat % 8 ≤ 4 then low 3 else h.frm.zeroExtend 64) ∧
    rd 0x032 = low 32 ∧ rd 0x033 = low 32 ∧ rd 0x040 = low 32 ∧
    rd 0x041 = (if v.toNat % 64 ≤ 32 then low 6 else h.mqrmax.zeroExtend 64) ∧ rd 0x070 = v ∧
    (∀ n, 0x010 ≤ n ∧ n ≤ 0x014 ∨ n = 0x017 →
      (if h.tstat.prv then ((csrWrite s k n v).hart k).u = h.u else ((csrWrite s k n v).hart k).s = h.s))

/-- R133, R134: at a vector hart, with t the type (VTYPE for dyn, which needs VSTATE not OFF), a format of R38: SETVL writes min(x[a], VLMAX(t)), the distance form also bounded by x[b] where that is not 0, rounded down to a multiple of 32 for a BFP type. It answers the next state with the pc 4 further and INSTRET counted, and changes nothing else. -/
def Obligations.SetvlResults : Prop :=
  ∀ (s : State) (k : Nat) (d a b : Reg) (ty : BitVec 5), s.HartTurn k →
    let h := s.hart k
    let t := if ty = 31 then h.vtype.toNat else ty.toNat
    isSeqPlace k = false → (ty = 31 → h.vstate ≠ .off) → (t ≤ 14 ∨ 16 ≤ t ∧ t ≤ 22) →
    let m := if 16 ≤ t then 32 * (h.vgrant / 8 / (1 + 4 * (t - 14))) else h.vgrant / Ty.width t
    let n := min (h.rd a).toNat m
    let n' := if h.rd b = 0 then n else min n (h.rd b).toNat
    let cut (x : Nat) : Nat := if 16 ≤ t then 32 * (x / 32) else x
    exec (.setvl d a ty) s = .next (s.wrote k d (BitVec.ofNat 64 (cut n))) ∧
    exec (.setvlDistance d a b ty) s = .next (s.wrote k d (BitVec.ofNat 64 (cut n')))

/-- R229, R232: CPW with an index below 10 writes x[a] to that shadow register of the hart, of which LEN and SHAPE keep 32 bits, FMT 14 and FLAGS 13 (00 R4); with another index it takes ILLEGAL_INSTR. TLREAD of a handle whose timeline exists writes its completed watermark to x[d]. Each answers the next state with the pc 4 further and INSTRET counted, and nothing else changed. R231, for a handle whose timeline exists; a hart that waits on a bank stream already sees the binding that it waits for (11 R307): where a faulted number not skipped is at most x[b], TLWAIT takes ENGINE_FAULT (12) with TVAL the handle and TVAL2 the number; else, where x[b] is at most the watermark, it answers the next state with only pc and INSTRET changed; else the hart is WAITING at the TLWAIT. -/
def Obligations.TimelinesRead : Prop :=
  (∀ (s : State) (k : Nat) (idx : BitVec 5) (d a : Reg), s.HartTurn k →
    let h := s.hart k
    let kept : Word := BitVec.ofNat 64 ((h.rd a).toNat % 2 ^ (match idx.toNat with
      | 2 => 32 | 5 => 32 | 6 => 14 | 9 => 13 | _ => 64))
    (∀ hi : idx.toNat < 10, exec (.cpw idx a) s =
      .next (s.after k { h with shadow := h.shadow.set idx.toNat kept } (h.pc + 4))) ∧
    (10 ≤ idx.toNat → exec (.cpw idx a) s = .next (s.trapped k 1 (parcelWord (.cpw idx a)) 0)) ∧
    (∀ v, (h.rd a).toNat < 2 ^ 16 → tlView s (s.ctxOf h) ((s.groupOf h).map (·.1)) (h.rd a).toNat = some v →
      exec (.tlread d a) s = .next (s.wrote k d (BitVec.ofNat 64 v.mark)))) ∧
  (∀ (s : State) (k : Nat) (a b : Reg) (sc : BitVec 3) (v : TlView), s.HartTurn k →
    let h := s.hart k
    let n := (h.rd b).toNat
    (h.rd a).toNat < 2 ^ 16 →
    waitView s (s.ctxOf h) ((s.groupOf h).map (·.1)) (h.rd a).toNat (if h.life = .waiting then h.waitFor else none) =
      some v →
    ((∃ f ∈ v.faulted, f ≤ n) → exec (.tlwait a b sc) s = .next (s.trapped k 12 (h.rd a) (h.rd b))) ∧
    ((∀ f ∈ v.faulted, n < f) → n ≤ v.mark → exec (.tlwait a b sc) s = .next (s.advanced k)) ∧
    ((∀ f ∈ v.faulted, n < f) → v.mark < n → ∃ t, exec (.tlwait a b sc) s = .next t ∧ (t.hart k).life = .waiting ∧
      (t.hart k).pc = h.pc ∧ (t.hart k).instret = h.instret ∧ (t.hart k).x = h.x ∧ t.mem = s.mem))

/-- What BAR captures at a launch (09 R248): nothing for zero, else the object that passes the checks of R242, with
its generation and whether its page is counted (18 R401). -/
def Sys2Proof.Machine.State.captures (s : State) (h : Hart) (bar : Word) (c : Option BarCapture) : Prop :=
  bar = 0 ∧ c = none ∨
  bar ≠ 0 ∧ ∃ pa, barAddr s h bar .barWrite (.read 32) = .ok pa ∧
    c = some { va := bar, gen := BitVec.ofNat 16 (barRead s pa).gen, home := pa,
               cnt := match walk s (s.ctxOf h) bar.toNat .barWrite h.tstat.prv with | .ok l => l.cnt | .error _ => false }

/-- What a RESET launch does to a timeline (08 R230): the lowest faulted number, where there is one, is skipped. -/
def Sys2Proof.Machine.Timeline.Skipped (old new : Timeline) : Prop :=
  new = (match old.faulted with | [] => old | n :: _ => old.endNum n) ∧ old.faulted.headD 0 ∉ new.faulted

/-- R230, R217 to R219, R248: for a transfer channel of the context, CPGO with RESET set skips the lowest faulted number and writes it to x[d], or 0 where there is none. Without RESET, with a faulted number it takes CHANNEL_FAULTED (25). With none, RSCOPE below 6, stages present in the variant, a shape that R217 to R219 allow and BAR captured: where fewer than 32 operations are outstanding and numbers are left, it answers the next state in which x[d] holds the last number plus 1 and the channel has that operation QUEUED, with the shadow registers, rounding state, level and group captured and the registers of a register-bound destination empty (R223); with 32 outstanding the hart is STALLED at the CPGO, and has used what a peer answered about BAR. R339, in a variant with LAMINATION, for a handle 0x1000 to 0x100F of the context: with RESET set MXGO skips the lowest faulted number and writes it to x[d], or 0 where there is none. Without RESET, with a faulted number it takes CHANNEL_FAULTED (25). With none, RSCOPE below 6, fields that R339 allows and BAR captured: where fewer than 32 are outstanding and numbers are left, it answers the next state in which x[d] holds the last number plus 1 and the channel has that operation, with the shadow registers and level captured, its hold capped by LAMHOLD and LAMX captured; with 32 outstanding the hart is STALLED at the MXGO likewise. In NX4-M it takes UNIT_ABSENT (2) with TVAL2 0x0013. -/
def Obligations.EnginesLaunch : Prop :=
  (∀ (s : State) (k : Nat) (d a : Reg) (cx : Context) (bar : Option BarCapture) (e rb tot : Nat), s.HartTurn k →
    let h := s.hart k
    let hd := (h.rd a).toNat
    let w : Shadow := h.shadow
    let c := s.ctxOf h
    let ch := cx.xfer.getD hd {}
    s.ctxs.get? c = some cx → hd ≤ 63 →
    (w.reset = true → ∃ t cx', exec (.cpgo d a) s = .next t ∧ (t.hart k).pc = h.pc + 4 ∧
      (t.hart k).instret = h.instret + 1 ∧ (d ≠ 0 → (t.hart k).rd d = BitVec.ofNat 64 (ch.line.faulted.headD 0)) ∧
      t.ctxs.get? c = some cx' ∧ (cx'.xfer.getD hd {}).ops = ch.ops ∧ ch.line.Skipped (cx'.xfer.getD hd {}).line) ∧
    (w.reset = false → ch.line.faulted ≠ [] → exec (.cpgo d a) s = .next (s.trapped k 25 (h.rd a) 0)) ∧
    (w.reset = false → ch.line.faulted = [] → w.rscope < 6 →
      (bitsAt w[8].toNat 0 16 = 0 ∨ s.variant.hasXform = true) → xferShape w = some (e, rb, tot) →
      s.captures h w.bar bar → ch.line.last < 2 ^ 64 - 1 →
      (ch.line.outstanding < 32 → ∃ t op cx', exec (.cpgo d a) s = .next t ∧ (t.hart k).pc = h.pc + 4 ∧
        (t.hart k).instret = h.instret + 1 ∧ (d ≠ 0 → (t.hart k).rd d = BitVec.ofNat 64 (ch.line.last + 1)) ∧
        t.ctxs.get? c = some cx' ∧ (cx'.xfer.getD hd {}).ops = ch.ops ++ [op] ∧
        (cx'.xfer.getD hd {}).line = { ch.line with last := ch.line.last + 1 } ∧
        op.num = ch.line.last + 1 ∧ op.state = .queued ∧ op.shadow = h.shadow ∧ op.frm = h.frm ∧ op.seed = h.srseed ∧
        op.base = h.srbase ∧ op.prv = h.tstat.prv ∧ op.group = h.group ∧ op.bar = bar ∧
        (boundRegs s h w rb = none → op.hart = none) ∧
        (∀ k2 blk m, boundRegs s h w rb = some (k2, blk, m) → op.hart = some k2 ∧ op.regs = m ∧
          (t.hart k2).full = (s.hart k2).full &&& ~~~m)) ∧
      (32 ≤ ch.line.outstanding → exec (.cpgo d a) s = .next ((barUsed s bar).setHart k { h with life := .stalled })))) ∧
  (∀ (s : State) (k : Nat) (d a : Reg) (cx : Context) (g : Group) (kk : Kernel) (bar : Option BarCapture), s.HartTurn k →
    let h := s.hart k
    let hd := (h.rd a).toNat
    let w : Shadow := h.shadow
    let c := s.ctxOf h
    let n := hd - 0x1000
    let ch := cx.lam.getD n {}
    (s.variant = .nx4m → exec (.mxgo d a) s = .next (s.trapped k 2 (parcelWord (.mxgo d a)) 0x0013)) ∧
    (s.variant ≠ .nx4m → s.ctxs.get? c = some cx → s.groupOf h = some (g, kk) → 0x1000 ≤ hd → hd ≤ 0x100F →
      (w.reset = true → ∃ t cx', exec (.mxgo d a) s = .next t ∧ (t.hart k).pc = h.pc + 4 ∧
        (t.hart k).instret = h.instret + 1 ∧ (d ≠ 0 → (t.hart k).rd d = BitVec.ofNat 64 (ch.line.faulted.headD 0)) ∧
        t.ctxs.get? c = some cx' ∧ (cx'.lam.getD n {}).ops = ch.ops ∧ ch.line.Skipped (cx'.lam.getD n {}).line) ∧
      (w.reset = false → ch.line.faulted ≠ [] → exec (.mxgo d a) s = .next (s.trapped k 25 (h.rd a) 0)) ∧
      (w.reset = false → ch.line.faulted = [] → w.rscope < 6 → lamFieldsOk w = true → s.captures h w.bar bar →
        ch.line.last < 2 ^ 64 - 1 →
        (ch.line.outstanding < 32 → ∃ t op cx', exec (.mxgo d a) s = .next t ∧ (t.hart k).pc = h.pc + 4 ∧
          (t.hart k).instret = h.instret + 1 ∧ (d ≠ 0 → (t.hart k).rd d = BitVec.ofNat 64 (ch.line.last + 1)) ∧
          t.ctxs.get? c = some cx' ∧ (cx'.lam.getD n {}).ops = ch.ops ++ [op] ∧
          (cx'.lam.getD n {}).line = { ch.line with last := ch.line.last + 1 } ∧
          op.num = ch.line.last + 1 ∧ op.shadow = h.shadow ∧ op.prv = h.tstat.prv ∧ op.x = cx.lamx ∧
          op.hold = min (lamHold w) cx.lamhold.toNat ∧ op.bar = bar) ∧
        (32 ≤ ch.line.outstanding → exec (.mxgo d a) s = .next ((barUsed s bar).setHart k { h with life := .stalled })))))

/-- R238, R243 to R247, for an object address that passes the checks of R242, with o the object: BINIT of a count below 2^20 makes it valid with the next generation, phase 0, EXPECT and PENDA the count and PENDB 0; BINVAL of a valid object makes it invalid; BARRIVE with PENDA not 0 subtracts one from PENDA, completes the phase where PENDA and PENDB are then 0, and returns the token of the phase before; BEXP of n adds n to PENDB likewise, and with n 0 changes nothing; BTEST writes 1 where the phase of the token is complete and 0 otherwise; BWAIT completes where it is complete and WAITS otherwise. Each completion answers the next state with the pc 4 further and INSTRET counted. BINVAL, BARRIVE and BEXP of an object that is not valid trap BARRIER_STALE (14), and a count or a PENDA out of range BARRIER_OVERFLOW (13). -/
def Obligations.BarrierObjectsFollowTheirRules : Prop :=
  ∀ (s : State) (k : Nat) (d a b : Reg) (sc : BitVec 3) (pa : Nat), s.HartTurn k →
    let h := s.hart k
    let va := h.rd a
    let o := barRead s pa
    let n := (h.rd b).toNat
    let put (x : BarObj) : State := podUsed (store s pa x.bytes (some k)) pa
    let go (t : State) : State := t.after k (t.hart k) (h.pc + 4)
    let completed (x : BarObj) : BarObj :=
      if x.penda = 0 ∧ x.pendb = 0 then { x with phase := (x.phase + 1) % 2 ^ 16, penda := x.expect, pendb := 0 } else x
    (n < 2 ^ 20 → barAddr s h va .barWrite (.binit n) = .ok pa → exec (.binit a b) s = .next (go (put
      { gen := (o.gen + 1) % 2 ^ 16, phase := 0, valid := true, expect := n, penda := n, pendb := 0 }))) ∧
    (2 ^ 20 ≤ n → barAddr s h va .barWrite (.read 32) = .ok pa → exec (.binit a b) s = .next (s.trapped k 13 va 0)) ∧
    (barAddr s h va .barWrite .binval = .ok pa →
      exec (.binval a) s = .next (if o.valid then go (put { o with valid := false }) else s.trapped k 14 (o.token va) 0)) ∧
    (barAddr s h va .barWrite .barrive = .ok pa →
      exec (.barrive d a) s = .next (if o.valid = false then s.trapped k 14 (o.token va) 0
        else if o.penda = 0 then s.trapped k 13 va 0
        else go ((put (completed { o with penda := o.penda - 1 })).wrX k d (o.token va)))) ∧
    (barAddr s h va .barWrite (.bexp n) = .ok pa →
      exec (.bexp a b) s = .next (if o.valid = false then s.trapped k 14 (o.token va) 0
        else if 2 ^ 39 ≤ n ∨ 2 ^ 39 ≤ o.pendb + n then s.trapped k 13 va 0
        else if n = 0 then go (podUsed s pa)
        else go (put (completed { o with pendb := o.pendb + n })))) ∧
    (∀ done, tokenTest s h va = .ok (pa, done) →
      exec (.btest d a) s = .next (go ((podUsed s pa).wrX k d (if done then 1 else 0))) ∧
      (done = true → exec (.bwait a sc) s = .next (go (podUsed s pa))) ∧
      (done = false → ∃ t, exec (.bwait a sc) s = .next t ∧ (t.hart k).life = .waiting ∧ (t.hart k).pc = h.pc ∧
        (t.hart k).x = h.x ∧ t.mem = s.mem))

/-- R379, R367: with x[a] a multiple of 64, the 256 bytes there readable, and x[b] a queue of the context that is not DISABLED, is device-fed and has room, KLAUNCH stores the record in the ring at the write index, advances WR (also in the descriptor of the queue) modulo the ring size, captures the level, and writes the number of the kernel times 2^16 plus its handle to x[d], with the pc 4 further and INSTRET counted. With the ring full it takes QUEUE_FULL (26), and with no such queue ACCESS_FAULT (8), with TVAL the queue; an address that is no multiple of 64 takes MISALIGNED (4). -/
def Obligations.KlaunchAppendsItsRecord : Prop :=
  ∀ (s : State) (k : Nat) (d a b : Reg) (cx : Context) (ls : List Leaf) (bytes : List Byte), s.HartTurn k →
    let h := s.hart k
    let c := s.ctxOf h
    let qn := (h.rd b).toNat
    ((h.rd a).toNat % 64 ≠ 0 → exec (.klaunch d a b) s = .next (s.trapped k 4 (h.rd a) 0)) ∧
    ((h.rd a).toNat % 64 = 0 → hartLoads s h (h.rd a) 32 = .ok (ls, bytes) → s.ctxs.get? c = some cx →
      ((∀ q, cx.queues.get? qn = some q → q.state = .disabled ∨ q.feed = false) →
        exec (.klaunch d a b) s = .next (s.trapped k 8 (h.rd b) 0)) ∧
      (∀ q, cx.queues.get? qn = some q → q.state ≠ .disabled → q.feed = true →
        let wr := (q.wr + 1) % q.size
        let s1 := ls.foldl (fun s l => podUsed (countHart s l) l.pa) s
        let s2 := physWrite (store s1 (q.ring + 256 * q.wr) bytes none) (q.desc + 0x24) 4 wr
        let line : Timeline := { q.line with last := q.nextNum }
        let q' : Queue := { q with wr := wr, levels := q.levels.set q.wr h.tstat.prv, line := line }
        let t := s2.setCtx c { cx with queues := cx.queues.set qn q' }
        bytes.length = 256 ∧
        (q.held = q.size - 1 → exec (.klaunch d a b) s = .next (s.trapped k 26 (h.rd b) 0)) ∧
        (q.held ≠ q.size - 1 → exec (.klaunch d a b) s =
          .next (t.after k ((t.hart k).wr d (BitVec.ofNat 64 (q.nextNum * 2 ^ 16 + 0x4000 + qn))) (h.pc + 4)))))

/-- R387, R388: at a vector hart, with a scope of core or wider (die and wider only for a co-resident kernel): a hart that has not arrived, whose arrival makes the count of the barrier equal its participants, completes: the count becomes 0 and the phase turns; one whose arrival does not, adds one to the count, has arrived and is WAITING; a hart that has arrived completes once the phase has turned since, and waits until then. Each completion answers the next state with the pc 4 further and INSTRET counted. A sequencer and scope 0 take ILLEGAL_INSTR (1); die and wider of another kernel GROUP_SCOPE (27). R389, R100: a vector hart with no register still to be written by an earlier instruction or by a register-bound transfer, or a sequencer whose core has no matrix word in progress, that is a member of a group answers the next state in which its member is RETIRED and the hart is RETIRED too, or its place FREE again, where the group has ended with it. Otherwise GEXIT waits: the hart STALLED, the sequencer WAITING. -/
def Obligations.GroupSyncAndExit : Prop :=
  (∀ (s : State) (k : Nat) (id : BitVec 5) (sc : BitVec 3) (g : Group) (kk : Kernel), s.HartTurn k →
    let h := s.hart k
    let i : Instr := .gsync id sc
    let slot := (g.cores.findIdx? (· == k / 9)).getD 0
    let key := gbarKey sc.toNat id.toNat slot (k / 9 / 64)
    let b := gbarGet g kk key
    let bar (t : State) : Option GBar := (t.groupOf h).map fun x => gbarGet x.1 x.2 key
    let waits (t : State) : Prop := (t.hart k).life = .waiting ∧ (t.hart k).pc = h.pc ∧ (t.hart k).x = h.x ∧
      (t.hart k).arrived.get? key.1 = some b.phase
    (isSeqPlace k = true ∨ sc = 0 → exec i s = .next (s.trapped k 1 (parcelWord i) 0)) ∧
    (isSeqPlace k = false → sc ≠ 0 → s.groupOf h = some (g, kk) →
      (3 ≤ sc.toNat → kk.coside = false → exec i s = .next (s.trapped k 27 (parcelWord i) 0)) ∧
      (sc.toNat < 3 ∨ kk.coside = true →
        (h.arrived.get? key.1 = none → b.count + 1 = gbarParties s h.group g kk sc.toNat slot (k / 9 / 64) →
          ∃ t, exec i s = .next t ∧ t = (gbarSet s h.group key ⟨0, !b.phase⟩).after k h (h.pc + 4) ∧
            bar t = some ⟨0, !b.phase⟩) ∧
        (h.arrived.get? key.1 = none → b.count + 1 ≠ gbarParties s h.group g kk sc.toNat slot (k / 9 / 64) →
          ∃ t, exec i s = .next t ∧ waits t ∧ bar t = some ⟨b.count + 1, b.phase⟩) ∧
        (∀ ph, h.arrived.get? key.1 = some ph → b.phase ≠ ph →
          exec i s = .next (s.after k { h with arrived := h.arrived.erase key.1 } (h.pc + 4))) ∧
        (h.arrived.get? key.1 = some b.phase → ∃ t, exec i s = .next t ∧ waits t ∧ bar t = some b)))) ∧
  (∀ (s : State) (k : Nat) (g : Group) (m : Member), s.HartTurn k → s.groups.get? (s.hart k).group = some g →
    let h := s.hart k
    let n := memberNo g k h
    g.members.get? n = some m →
    let idle : Prop := if isSeqPlace k then (s.core (k / 9)).job = none else h.busyRegs = false ∧ boundInFlight s k = false
    (idle → exec .gexit s = .next (retireHart s k) ∧
      ∃ t g' m', exec .gexit s = .next t ∧ ((t.hart k).life = .retired ∨ (t.hart k).life = .free) ∧
        t.groups.get? h.group = some g' ∧ g'.members.get? n = some m' ∧ m'.at_ = .retired) ∧
    (¬idle → exec .gexit s =
      .next (s.setHart k { h with life := if isSeqPlace k then .waiting else .stalled, exiting := true })))

/-- An element-wise vector instruction: its constructor, the bits of a destination element and the widest element, its v
sources, and each element's result with its flags. -/
structure Sys2Proof.Machine.ElementOp where
  ctor : VWord → Instr
  bits : VWord → Nat
  wide : VWord → Nat
  srcs : VWord → List Reg
  elem : Hart → VWord → Nat → Nat × Flags

namespace Sys2Proof.Machine

/-- Elements i of vs1, vs2 and vs3 of a word. -/
def el1 (h : Hart) (w : VWord) (i : Nat) : Nat := elemAt (h.vreg w.vs1) (tyBits w) i
def el2 (h : Hart) (w : VWord) (i : Nat) : Nat := elemAt (h.vreg w.vs2) (tyBits w) i
def el3 (h : Hart) (w : VWord) (i : Nat) : Nat := elemAt (h.vreg w.vs3) (tyBits w) i

/-- Operand b of a VALU word: x[vs3] with SX, else element i of vs2 (05 R141). -/
def elB (h : Hart) (w : VWord) (i : Nat) : Nat :=
  if w.imm.getLsbD 0 then (h.rd w.vs3).toNat % 2 ^ tyBits w else el2 h w i

/-- A VALU instruction of two sources (05 R141): `f` is its result from a and b read as the type says, modulo 2^w. -/
def valuElement (mk : VWord → Instr) (f : Nat → Int → Int → Int) : ElementOp :=
  { ctor := mk, bits := tyBits, wide := tyBits,
    srcs := fun w => if w.imm.getLsbD 0 then [w.vs1] else [w.vs1, w.vs2],
    elem := fun h w i =>
      (wrapInt (tyBits w) (f w.ty.toNat (intElem w.ty.toNat (el1 h w i)) (intElem w.ty.toNat (elB h w i))), 0) }

/-- The same for a result of the bits of a and b. -/
def valuBits (mk : VWord → Instr) (f : Nat → Nat → Nat → Nat) : ElementOp :=
  { valuElement mk (fun _ _ _ => 0) with elem := fun h w i => (f (tyBits w) (el1 h w i) (elB h w i), 0) }

/-- The range of an integer type (02 R38). -/
def clampTo (t : Nat) (x : Int) : Int :=
  let w := Ty.width t
  if Ty.isSigned t then max (-(2 ^ (w - 1) : Nat)) (min ((2 ^ (w - 1) : Nat) - 1) x) else max 0 (min ((2 ^ w : Nat) - 1) x)

/-- The element-wise integer instructions with a v destination (05 R141, R143, R145). -/
def integerElementOps : List ElementOp :=
  [valuElement .vadd fun _ a b => a + b, valuElement .vsub fun _ a b => a - b, valuElement .vmul fun _ a b => a * b,
   valuElement .vmulh fun t a b => a * b / (2 ^ Ty.width t : Nat),
   valuElement .vmin fun _ a b => min a b, valuElement .vmax fun _ a b => max a b,
   valuElement .vabsd fun _ a b => ((a - b).natAbs : Int),
   valuElement .vsadd fun t a b => clampTo t (a + b), valuElement .vssub fun t a b => clampTo t (a - b),
   valuBits .vand fun _ a b => a &&& b, valuBits .vor fun _ a b => a ||| b, valuBits .vxor fun _ a b => a ^^^ b,
   valuBits .vsll fun n a b => a * 2 ^ (b % n) % 2 ^ n, valuBits .vsrl fun n a b => a / 2 ^ (b % n),
   valuBits .vsra fun n a b => wrapInt n (signedOf n a / (2 ^ (b % n) : Nat)),
   { valuElement .vidx (fun _ _ _ => 0) with
     srcs := fun _ => [], elem := fun h w i => (((h.rd w.vs3).toNat + i) % 2 ^ tyBits w, 0) },
   { valuElement .vwadd (fun _ _ _ => 0) with
     bits := fun w => 2 * tyBits w, wide := fun w => 2 * tyBits w, srcs := fun w => [w.vs1, w.vs2],
     elem := fun h w i =>
       (wrapInt (2 * tyBits w) (intElem w.ty.toNat (el1 h w i) + intElem w.ty.toNat (el2 h w i)), 0) },
   { valuElement .vwmul (fun _ _ _ => 0) with
     bits := fun w => 2 * tyBits w, wide := fun w => 2 * tyBits w, srcs := fun w => [w.vs1, w.vs2],
     elem := fun h w i =>
       (wrapInt (2 * tyBits w) (intElem w.ty.toNat (el1 h w i) * intElem w.ty.toNat (el2 h w i)), 0) },
   { valuElement .vnarrow (fun _ _ _ => 0) with
     bits := fun w => tyBits w / 2, srcs := fun w => [w.vs1],
     elem := fun h w i => narrowElem w.ty.toNat (bitsAt w.imm.toNat 0 6) (cvtMode h.frm w.rm h.srseed h.srbase)
       (el1 h w i) i }]

/-- A VFPU instruction of a number of sources: `f` gives the result and flags from the type, the rounding mode and the
elements of vs1, vs2 and vs3. -/
def vfpuElement (mk : VWord → Instr) (n : Nat) (f : Nat → RMode → Nat → Nat → Nat → Nat × Flags) : ElementOp :=
  { ctor := mk, bits := tyBits, wide := tyBits, srcs := fun w => [w.vs1, w.vs2, w.vs3].take n,
    elem := fun h w i => f w.ty.toNat (arithMode h.frm w.rm) (el1 h w i) (el2 h w i) (el3 h w i) }

/-- The element-wise floating instructions with a v destination (05 R147, R148, R150). -/
def floatElementOps : List ElementOp :=
  [vfpuElement .vfadd 2 fun t m a b _ => fAdd t m (decodeF t a) (decodeF t b),
   vfpuElement .vfsub 2 fun t m a b _ => fAdd t m (decodeF t a) (decodeF t b).neg,
   vfpuElement .vfmul 2 fun t m a b _ => fMul t m (decodeF t a) (decodeF t b),
   vfpuElement .vfma 3 fun t m a b c => fFma t m (decodeF t a) (decodeF t b) (decodeF t c),
   vfpuElement .vfms 3 fun t m a b c => fFma t m (decodeF t a) (decodeF t b) (decodeF t c).neg,
   vfpuElement .vfnma 3 fun t m a b c => fFma t m (decodeF t a).neg (decodeF t b) (decodeF t c),
   vfpuElement .vfdiv 2 fun t m a b _ => fDiv t m (decodeF t a) (decodeF t b),
   vfpuElement .vfsqrt 1 fun t m a _ _ => fSqrt t m (decodeF t a),
   vfpuElement .vfmin 2 fun t _ a b _ => minMaxElem t false a b,
   vfpuElement .vfmax 2 fun t _ a b _ => minMaxElem t true a b,
   vfpuElement .vfrece 1 fun t _ a _ _ => recipElem t a, vfpuElement .vfrsqe 1 fun t _ a _ _ => rsqrtElem t a]

/-- An element-wise instruction completes at its turn with its elements written. -/
def ElementOp.Completes (op : ElementOp) : Prop :=
  ∀ (s : State) (k : Nat) (w : VWord), s.SlotReady k op.ctor w false →
    let h := s.hart k
    let u := resolveTy h w
    let vl := (h.rd w.xl).toNat
    h.VlReady u (vlmax h.vgrant u.ty.toNat (op.wide u)) → (∀ r ∈ op.srcs u ++ [u.vd], h.RegReady r) →
    (vl = 0 → exec (op.ctor w) s = .next (s.slotDone k h)) ∧
    (vl ≠ 0 → ∃ v fl, exec (op.ctor w) s = .next (s.slotDone k ((h.putV w.vd v).addFlags fl)) ∧
      ElementsWritten h u (op.bits u) vl (op.elem h u) v fl)

end Sys2Proof.Machine

/-- R136, R137, R139, R141, R143, R145 for VADD, VSUB, VMUL, VMULH, VMIN, VMAX, VABSD, VSADD, VSSUB, VAND, VOR, VXOR, VSLL, VSRL, VSRA, VIDX, VWADD, VWMUL and VNARROW: with no trap to take and every register full, the slot completes. Each active element from VSTART.ELEM to vl - 1 is the result of the elements read from the sources before, an inactive one is zero with POL 1 and as before with POL 0, every other bit of vd is as before, vd is full, its VDIRTY bit is set and VSTATE is DIRTY. With vl 0 nothing is written. Only VNARROW raises flags. Every other register, and memory, is as before; INSTRET counts the slot. -/
def Obligations.IntegerVectorElements : Prop :=
  ∀ op ∈ integerElementOps, op.Completes

/-- R136, R147, R148, R150 for VFADD, VFSUB, VFMUL, VFMA, VFMS, VFNMA, VFDIV, VFSQRT, VFMIN, VFMAX, VFRECE and VFRSQE: as for the integer instructions, with the result of the named exact operation rounded once in the mode of RM (R47, R49), but that VFRECE and VFRSQE round to 8 bits to nearest even (R150), which below the normal range is at the format's least exponent (log 27, the model's choice); FFLAGS gets exactly the flags that active elements raise, added to those that stood. -/
def Obligations.FloatVectorElements : Prop :=
  ∀ op ∈ floatElementOps, op.Completes

namespace Sys2Proof.Machine

/-- The bits of a destination from those of vl on (05 R136): as before, but that in a BFP type the bytes after the last
whole block of the grant are zero (02 R46). -/
def BeyondKept (h : Hart) (w : VWord) (vl : Nat) (v : BitVec 16384) : Prop :=
  let n := unitBits w.ty.toNat
  ∀ b, n * unitsOf w.ty.toNat vl ≤ b → v.getLsbD b =
    if Ty.isBfp w.ty.toNat = true ∧ n * (h.vgrant / n) ≤ b ∧ b < h.vgrant then false else (h.vreg w.vd).getLsbD b

/-- What an instruction leaves in its destination unit by unit, a unit being an element or a whole BFP block: `f` gives
a unit from `lo` on, or none where it is kept; `act` says which are active (05 R136). -/
def UnitsWritten (h : Hart) (w : VWord) (lo vl : Nat) (act : Nat → Bool) (f : Nat → Option Nat) (v : BitVec 16384) : Prop :=
  let n := unitBits w.ty.toNat
  let old := elemAt (h.vreg w.vd) n
  (∀ j < unitsOf w.ty.toNat vl, elemAt v n j =
    if j < lo then old j
    else match f j with
      | none => old j
      | some e => if act j then e % 2 ^ n else if w.pol then 0 else old j) ∧ BeyondKept h w vl v

/-- What a conversion to a BFP type leaves (02 R57): each block from the one that holds VSTART.ELEM is quantised from
its 32 values and SR indices `x`; FFLAGS gets their flags. -/
def BlocksWritten (h : Hart) (w : VWord) (vl : Nat) (x : Nat → Val × Nat) (v : BitVec 16384) (fl : Flags) : Prop :=
  let t := w.ty.toNat
  let n := unitBits t
  let lo := h.elem.toNat / 32
  let q (j : Nat) : Nat × Flags := quantBfp (Ty.bfpM t) (cvtMode h.frm w.rm h.srseed h.srbase)
    ((List.range 32).map fun i => x (32 * j + i))
  (∀ j < vl / 32, elemAt v n j = if j < lo then elemAt (h.vreg w.vd) n j else (q j).1 % 2 ^ n) ∧
  BeyondKept h w vl v ∧ (∀ b, fl.getLsbD b = true ↔ ∃ j, lo ≤ j ∧ j < vl / 32 ∧ ((q j).2).getLsbD b = true)

end Sys2Proof.Machine

/-- R143: VMERGE writes every element below vl, from vs2 where the predicate is 1 and from vs1 where it is 0; VMOVX with DIR 0 writes x[vs3] to the active elements, and with DIR 1 element x[vs3] of vs1 to x[vd], sign-extended for i-types, or 0 where x[vs3] is vl or more. R149, R133: VFCVT with a destination that is not BFP writes each active element converted from the source format in the mode of RM with SR index the element; with a BFP destination it writes each block from the one that holds VSTART.ELEM (log 26, the model's choice) to vl, quantised from its 32 values (R57); vl is a multiple of 32 where the source alone is BFP too (log 60, the model's choice); it keeps the blocks before and after, and zeroes the bytes after the last whole block (R46). With vl 0 each completes and writes nothing. Each answers the next state; FFLAGS gets the flags of what is converted, and the rest of the hart and memory are as before. -/
def Obligations.MergesMovesAndConversions : Prop :=
  ∀ (s : State) (k : Nat) (w : VWord),
    let h := s.hart k
    let u := resolveTy h w
    let t := u.ty.toNat
    let n := tyBits u
    let vl := (h.rd w.xl).toNat
    let x := (h.rd w.vs3).toNat
    let src := bitsAt w.imm.toNat 0 5
    let mode := cvtMode h.frm w.rm h.srseed h.srbase
    let nothing (i : Instr) : Prop := vl = 0 → exec i s = .next (s.slotDone k h)
    (s.SlotReady k .vmerge w false → h.VlReady u (vlmax h.vgrant t n) → h.RegReady w.vs1 → h.RegReady w.vs2 →
      h.RegReady w.vd → nothing (.vmerge w) ∧
      (vl ≠ 0 → ∃ v, exec (.vmerge w) s = .next (s.slotDone k (h.putV w.vd v)) ∧
        ElementsWritten h { u with me := false } n vl
          (fun e => (elemAt (if activeAt u h e then h.vreg w.vs2 else h.vreg w.vs1) n e, 0)) v 0)) ∧
    (s.SlotReady k .vmovx w false → w.imm.getLsbD 0 = false → h.VlReady u (vlmax h.vgrant t n) → h.RegReady w.vd →
      nothing (.vmovx w) ∧
      (vl ≠ 0 → ∃ v, exec (.vmovx w) s = .next (s.slotDone k (h.putV w.vd v)) ∧
        ElementsWritten h u n vl (fun _ => (x, 0)) v 0)) ∧
    (s.SlotReady k .vmovx w true → w.imm.getLsbD 0 = true → h.VlReady u (vlmax h.vgrant t n) → h.RegReady w.vs1 →
      nothing (.vmovx w) ∧
      (vl ≠ 0 → exec (.vmovx w) s = .next (s.slotDone k
        (h.wr w.vd (if x < vl then BitVec.ofInt 64 (intElem t (elemAt (h.vreg w.vs1) n x)) else 0))))) ∧
    (s.SlotReady k .vfcvt w false → h.RegReady w.vs1 → h.RegReady w.vd → vl ≤ cvtBound h.vgrant t src →
      ((Ty.isBfp t || Ty.isBfp src) = true → vl % 32 = 0) → nothing (.vfcvt w) ∧
      (vl ≠ 0 → Ty.isBfp t = false →
        ∃ v fl, exec (.vfcvt w) s = .next (s.slotDone k ((h.putV w.vd v).addFlags fl)) ∧
        ElementsWritten h u n vl (fun e => cvtVal t mode (srcVal (h.vreg w.vs1) src e) e) v fl) ∧
      (vl ≠ 0 → Ty.isBfp t = true →
        ∃ v fl, exec (.vfcvt w) s = .next (s.slotDone k ((h.putV w.vd v).addFlags fl)) ∧
        BlocksWritten h u vl (fun i => (srcVal (h.vreg w.vs1) src i, i)) v fl))

namespace Sys2Proof.Machine

/-- Instructions that write a predicate from each element (05 R144, R146, R148): constructor, v sources, each bit with
its flags. -/
def predicateOps : List ((VWord → Instr) × (VWord → List Reg) × (Hart → VWord → Nat → Bool × Flags)) :=
  let p1 (h : Hart) (w : VWord) (i : Nat) : Bool := (h.preg w.vs1.toNat).getLsbD i
  let p2 (h : Hart) (w : VWord) (i : Nat) : Bool := (h.preg w.vs2.toNat).getLsbD i
  [(.vcmp, fun w => if w.imm.getLsbD 0 then [w.vs1] else [w.vs1, w.vs2], fun h w i =>
      let a := intElem w.ty.toNat (el1 h w i)
      let b := intElem w.ty.toNat (elB h w i)
      (match bitsAt w.imm.toNat 1 3 with
       | 0 => decide (a = b) | 1 => decide (a ≠ b) | 2 => decide (a < b) | 3 => decide (b ≤ a) | 4 => decide (a ≤ b)
       | _ => decide (b < a), 0)),
   (.vfcmp, fun w => [w.vs1, w.vs2], fun h w i => cmpElem w.ty.toNat (bitsAt w.imm.toNat 0 3) (el1 h w i) (el2 h w i)),
   (.pand, fun _ => [], fun h w i => (p1 h w i && p2 h w i, 0)), (.por, fun _ => [], fun h w i => (p1 h w i || p2 h w i, 0)),
   (.pxor, fun _ => [], fun h w i => (p1 h w i ^^ p2 h w i, 0)), (.pandn, fun _ => [], fun h w i => (p1 h w i && !p2 h w i, 0)),
   (.pset, fun _ => [], fun _ w _ => (w.imm.getLsbD 0, 0))]

end Sys2Proof.Machine

/-- R136, R144, R146, R148: the comparisons and predicate operations write bit i of the destination predicate for each active element from VSTART.ELEM to vl - 1, an inactive bit being zero with POL 1 and as before with POL 0, and set its VDIRTY bit; only VFCMP raises flags. PCNT writes the number of active bits of ps1 below vl that are 1 to x[vd], PFIRST the lowest of them or vl; with vl 0 nothing is written. Each answers the next state and leaves all else as before. -/
def Obligations.PredicateResults : Prop :=
  (∀ op ∈ predicateOps, ∀ (s : State) (k : Nat) (w : VWord), s.SlotReady k op.1 w false →
    let h := s.hart k
    let u := resolveTy h w
    let vl := (h.rd w.xl).toNat
    h.VlReady u (vlmax h.vgrant u.ty.toNat (tyBits u)) → (∀ r ∈ op.2.1 u, h.RegReady r) →
    (vl = 0 → exec (op.1 w) s = .next (s.slotDone k h)) ∧
    (vl ≠ 0 → ∃ v fl, exec (op.1 w) s = .next (s.slotDone k ((h.putP w.vd.toNat v).addFlags fl)) ∧
      BitsWritten h u vl (op.2.2 h u) v fl)) ∧
  (∀ (s : State) (k : Nat) (w : VWord),
    let h := s.hart k
    let u := resolveTy h w
    let vl := (h.rd w.xl).toNat
    let hit (i : Nat) : Bool := activeAt u h i && (h.preg w.vs1.toNat).getLsbD i
    h.VlReady u (vlmax h.vgrant u.ty.toNat (tyBits u)) →
    (s.SlotReady k .pcnt w true → exec (.pcnt w) s = .next (s.slotDone k
      (if vl = 0 then h else h.wr w.vd (BitVec.ofNat 64 ((List.range vl).countP hit))))) ∧
    (s.SlotReady k .pfirst w true → vl = 0 → exec (.pfirst w) s = .next (s.slotDone k h)) ∧
    (s.SlotReady k .pfirst w true → vl ≠ 0 → ∃ n, exec (.pfirst w) s = .next (s.slotDone k (h.wr w.vd (BitVec.ofNat 64 n))) ∧
      n ≤ vl ∧ (n < vl → hit n = true) ∧ ∀ i < n, hit i = false))

namespace Sys2Proof.Machine

/-- A permute (05 R151, R152): its constructor, whether vs2 is a source, whether k must be a multiple of 32 in a BFP
type, whether vs2 holds indices, and unit i of the result from the number of units, k and the units of the sources;
none where the destination keeps its unit. -/
structure PermuteOp where
  ctor  : VWord → Instr
  two   : Bool
  slide : Bool
  idx   : Bool
  unit  : VWord → Nat → Nat → (Nat → Nat) → (Nat → Nat) → Nat → Option Nat

def permuteOps : List PermuteOp :=
  [⟨.vperm, true, false, true, fun _ vl _ a b i => some (if b i < vl then a (b i) else 0)⟩,
   ⟨.vslideup, false, true, false, fun _ _ k a _ i => if i < k then none else some (a (i - k))⟩,
   ⟨.vslidedn, false, true, false, fun _ vl k a _ i => some (if i + k < vl then a (i + k) else 0)⟩,
   ⟨.vbcaste, false, false, false, fun _ vl k a _ _ => some (if k < vl then a k else 0)⟩,
   ⟨.vzip, true, false, false, fun _ _ _ a b i => some (if i % 2 = 0 then a (i / 2) else b (i / 2))⟩,
   ⟨.vunzip, true, false, false, fun w vl _ a b i =>
     let j := 2 * i + w.imm.toNat % 2
     some (if j < vl then a j else b (j - vl))⟩]

end Sys2Proof.Machine

/-- R151, R152, where a unit is an element, or in a BFP type a whole block: each permute with no trap to take answers the next state in which each active unit of vd is the source unit that the instruction names, 0 where that is out of range, an inactive one zero with POL 1 and as before with POL 0; VSLIDEUP leaves the units below k. In a BFP type VPERM reads 16-bit indices, k counts whole blocks and must be a multiple of 32 for a slide, which else takes VL_RANGE (9) with TVAL k, and the bytes after the last whole block are zero (R46). VCOMPRESS packs the active elements of vs1 and VEXPAND spreads them; elements without one are zero with POL 1 and as before with POL 0. With vl 0 each completes and writes nothing. Bits from vl on, every other register and memory are as before. -/
def Obligations.PermutesMoveElements : Prop :=
  (∀ op ∈ permuteOps, ∀ (s : State) (k : Nat) (w : VWord), s.SlotReady k op.ctor w true →
    let h := s.hart k
    let u := resolveTy h w
    let t := u.ty.toNat
    let n := unitBits t
    let vl := (h.rd w.xl).toNat
    let x := (h.rd w.vs3).toNat
    h.VlReady u (vlmax h.vgrant t (tyBits u)) →
    (∀ r ∈ (if op.two then [w.vs1, w.vs2] else [w.vs1]) ++ [w.vd], h.RegReady r) →
    let bad : Prop := op.slide = true ∧ Ty.isBfp t = true ∧ x % 32 ≠ 0
    (bad → exec (op.ctor w) s = .next (s.trapped k 9 (h.rd w.vs3) (h.slot.zeroExtend 64))) ∧
    (¬bad → vl = 0 → exec (op.ctor w) s = .next (s.slotDone k h)) ∧
    (¬bad → vl ≠ 0 → ∃ v, exec (op.ctor w) s = .next (s.slotDone k (h.putV w.vd v)) ∧
      UnitsWritten h u 0 vl (activeAt u h) (op.unit u (unitsOf t vl) (unitsOf t x) (elemAt (h.vreg w.vs1) n)
        (elemAt (h.vreg w.vs2) (if op.idx && Ty.isBfp t then 16 else n))) v)) ∧
  (∀ (s : State) (k : Nat) (w : VWord),
    let h := s.hart k
    let u := resolveTy h w
    let n := tyBits u
    let vl := (h.rd w.xl).toNat
    let act := (List.range vl).filter (activeAt u h)
    let kept (i : Nat) : Nat := if w.pol then 0 else elemAt (h.vreg w.vd) n i
    let moves (i : Instr) (e : Nat → Nat) : Prop :=
      (vl = 0 → exec i s = .next (s.slotDone k h)) ∧
      (vl ≠ 0 → ∃ v, exec i s = .next (s.slotDone k (h.putV w.vd v)) ∧
        (∀ b, n * vl ≤ b → v.getLsbD b = (h.vreg w.vd).getLsbD b) ∧ ∀ i < vl, elemAt v n i = e i)
    h.VlReady u (vlmax h.vgrant u.ty.toNat n) → h.RegReady w.vs1 → h.RegReady w.vd →
    (s.SlotReady k .vcompress w true → moves (.vcompress w) fun i =>
      if hi : i < act.length then elemAt (h.vreg w.vs1) n act[i] else kept i) ∧
    (s.SlotReady k .vexpand w true → moves (.vexpand w) fun i =>
      if activeAt u h i then elemAt (h.vreg w.vs1) n ((List.range i).countP (activeAt u h)) else kept i))

/-- R153, R61: with no trap to take and vl not 0 (with vl 0 the slot completes and writes nothing), element 0 of vd is element 0 of vs2 combined with the active elements of vs1: VREDSUM their sum modulo 2^w, VREDMAX and VREDMIN the largest and smallest in the type's order, VFREDSUM the rounded sum over the tree of R61, whose missing and inactive leaves are -0; every other bit of vd is as before. FFLAGS changes for VFREDSUM only. Each answers the next state and leaves the rest of the hart and memory as before. -/
def Obligations.ReductionsReplaceElementZero : Prop :=
  ∀ (s : State) (k : Nat) (w : VWord),
    let h := s.hart k
    let u := resolveTy h w
    let t := u.ty.toNat
    let n := tyBits u
    let vl := (h.rd w.xl).toNat
    let z := elemAt (h.vreg w.vs2) n 0
    let l := ((List.range vl).filter (activeAt u h)).map (elemAt (h.vreg w.vs1) n)
    let res (mk : VWord → Instr) (r : Nat → Prop) : Prop :=
      s.SlotReady k mk w true → ∃ e, r e ∧ exec (mk w) s =
        .next (s.slotDone k (h.putV w.vd (putField (h.vreg w.vd) 0 n e)))
    h.VlReady u (vlmax h.vgrant t n) → h.RegReady w.vs1 → h.RegReady w.vs2 → h.RegReady w.vd →
    (vl = 0 → ∀ mk ∈ [Instr.vredsum, .vredmax, .vredmin, .vfredsum], s.SlotReady k mk w true →
      exec (mk w) s = .next (s.slotDone k h)) ∧
    (vl ≠ 0 →
    res .vredsum (fun e => e = (z + l.sum) % 2 ^ n) ∧
    res .vredmax (fun e => e ∈ z :: l ∧ ∀ a ∈ z :: l, intElem t a ≤ intElem t e) ∧
    res .vredmin (fun e => e ∈ z :: l ∧ ∀ a ∈ z :: l, intElem t e ≤ intElem t a) ∧
    (s.SlotReady k .vfredsum w true →
      let add (a b : Nat × Flags) : Nat × Flags :=
        let r := fAdd t (arithMode h.frm w.rm) (decodeF t a.1) (decodeF t b.1)
        (r.1, a.2 ||| b.2 ||| r.2)
      let d := treeDepth vl
      let leaf (i : Nat) : Nat × Flags :=
        (if i < vl ∧ activeAt u h i = true then elemAt (h.vreg w.vs1) n i else signBit t true, 0)
      let r := add (z, 0) (treeFold add (signBit t true, 0) d ((List.range (2 ^ d)).map leaf))
      exec (.vfredsum w) s = .next (s.slotDone k ((h.putV w.vd (putField (h.vreg w.vd) 0 n r.1)).addFlags r.2))))

namespace Sys2Proof.Machine

/-- The cross-element queues (05 R154): constructor, v sources, the carry from which ID starts, and the next carry. -/
def queueOps : List ((VWord → Instr) × (VWord → List Reg) × (Nat → Nat) × (Nat → RMode → Nat → Nat → Nat → Nat × Flags)) :=
  [(.vxqadd, fun w => [w.vs1], fun _ => 0,
     fun t m c a _ => if Ty.isInt t then ((c + a) % 2 ^ Ty.width t, 0) else fAdd t m (decodeF t c) (decodeF t a)),
   (.vxqmax, fun w => [w.vs1], fun t => wrapInt (Ty.width t) (intMin t),
     fun t _ c a _ => (if intElem t c < intElem t a then a else c, 0)),
   (.vxqfma, fun w => [w.vs1, w.vs2], fun _ => 0,
     fun t m c a b => fFma t m (decodeF t a) (decodeF t c) (decodeF t b))]

end Sys2Proof.Machine

/-- R154: with no trap to take and VSTART.ELEM below vl, there is a carry for every position: the first is the identity with ID set at element 0 and VXQC otherwise; an active element turns the carry into the result of the carry and the sources and is that result; an inactive one leaves the carry. VXQC holds the last carry. An inactive element of vd is zero with POL 1 and as before with POL 0, and every other bit of vd is as before; FFLAGS gets the flags of the active elements. With VSTART.ELEM at vl or above nothing is written; that VDIRTY and VSTATE then stay as they are where vl is not 0 is log 60, the model's choice. The slot answers the next state; all else is as before. -/
def Obligations.QueueInstructionsCarry : Prop :=
  ∀ op ∈ queueOps, ∀ (s : State) (k : Nat) (w : VWord), s.SlotReady k op.1 w false →
    let h := s.hart k
    let u := resolveTy h w
    let t := u.ty.toNat
    let n := tyBits u
    let vl := (h.rd w.xl).toNat
    let lo := h.elem.toNat
    h.VlReady u (vlmax h.vgrant t n) → (∀ r ∈ op.2.1 u ++ [w.vd], h.RegReady r) →
    (vl ≤ lo → exec (op.1 w) s = .next (s.slotDone k h)) ∧
    (lo < vl → ∃ (c : Nat → Nat) (v : BitVec 16384) (fl : Flags),
      let next (i : Nat) : Nat × Flags := op.2.2.2 t (arithMode h.frm w.rm) (c i) (el1 h u i) (el2 h u i)
      exec (op.1 w) s = .next (s.slotDone k { (h.putV w.vd v).addFlags fl with vxqc := BitVec.ofNat 64 (c vl) }) ∧
      c lo = (if lo = 0 ∧ w.imm.getLsbD 0 = true then op.2.2.1 t else h.vxqc.toNat % 2 ^ n) ∧
      (∀ b, b < n * lo ∨ n * vl ≤ b → v.getLsbD b = (h.vreg w.vd).getLsbD b) ∧
      (∀ b, fl.getLsbD b = true ↔ ∃ i, lo ≤ i ∧ i < vl ∧ activeAt u h i = true ∧ ((next i).2).getLsbD b = true) ∧
      ∀ i, lo ≤ i → i < vl →
        c (i + 1) = (if activeAt u h i then (next i).1 else c i) ∧
        elemAt v n i = (if activeAt u h i then c (i + 1) % 2 ^ n
          else if w.pol then 0 else elemAt (h.vreg w.vd) n i))

/-- R155, R156, R314: with no trap to take and elements e0 = x[vs3] to e0 + vl - 1 within 4,096, the hart joins the accumulator's order unless it stands in it. Where it is then first, with no matrix word on the accumulator, VZERA makes those FP32 elements zero, VINSA writes the active elements of vs1 converted to them, and zero for an inactive one with POL 1, and VEXTA writes vd from them, converted in the mode of RM with SR index the accumulator element, zeroing the active ones with Z; in a BFP type VEXTA quantises and zeroes whole blocks, from the one that holds VSTART.ELEM (log 26). Every other element of the accumulator, every other accumulator and memory are as before, and the hart has left the order; the drain of VEXTA is whole at this step (log 23, the model's choice). Where it is not, the hart is STALLED, the register of a VEXTA empty. With vl 0 each completes and writes nothing. R176, R177: SRD takes ENGINE_FAULT (12) from a FAULTED stream register and HEADER_FORMAT (18) where the width of its type is not that of the binding, each BFP type having its own (log 60); else it completes at issue with vd empty, and with vl 0 sets FFI to 0. With no SRD in flight before it and no PREEMPT in service, it takes the landed elements, or whole blocks in a BFP type, into vd in order from VSTART.ELEM: with vl reached, or a register that is not BOUND and has no more, the rest of vd below vl is zero, vd is full and FFI holds the elements delivered; else vd stays empty and the SRD goes on when more land. With others in flight it goes behind them. Where it stands, and where its hart goes on, are kept for a stop (log 23). The register holds what is not taken. SRSTAT writes STATE, the handle and AVAIL to x[vd] once every earlier SRD on the register that is not stopped has taken its elements, and takes nothing; until then the hart is STALLED. Each leaves memory as before. -/
def Obligations.AccumulatorAndStreamSlots : Prop :=
  (∀ (s : State) (k : Nat) (w : VWord),
    let h := s.hart k
    let u := resolveTy h w
    let t := u.ty.toNat
    let n := tyBits u
    let vl := (h.rd w.xl).toNat
    let e0 := (h.rd w.vs3).toNat
    let a := bitsAt w.imm.toNat 0 2
    let c := s.core (k / 9)
    let lo := h.elem.toNat
    let q := if (c.queue a).contains k then c.queue a else c.queue a ++ [k]
    let free : Prop := q.head? = some k ∧ c.accBusy a = false
    let old (e : Nat) : Nat := getField (c.accAt a) (32 * e) 32
    let leaves (i : Instr) (acc : BitVec 131072) (h' : Hart) : Prop :=
      exec i s = .next ((s.setCore (k / 9) ((c.putQueue a q.tail).putAcc a acc)).slotDone k h')
    let waits (i : Instr) (h' : Hart) : Prop :=
      exec i s = .next ((s.setCore (k / 9) (c.putQueue a q)).setHart k { h' with life := .stalled })
    let nothing (i : Instr) : Prop := vl = 0 → exec i s = .next (s.slotDone k h)
    e0 + vl ≤ 4096 → (Ty.isBfp t = true → e0 % 32 = 0) →
    (s.SlotReady k .vzera w false → h.VlReady u 4096 → nothing (.vzera w) ∧ (vl ≠ 0 → ¬free → waits (.vzera w) h) ∧
      (vl ≠ 0 → free → ∃ acc, leaves (.vzera w) acc h ∧
        ∀ e < 4096, getField acc (32 * e) 32 = if e0 + lo ≤ e ∧ e < e0 + vl then 0 else old e)) ∧
    (s.SlotReady k .vinsa w false → h.VlReady u (vlmax h.vgrant t n) → h.RegReady w.vs1 →
      let x (i : Nat) : Nat × Flags := cvtVal 9 .rne (decodeElem t (elemAt (h.vreg w.vs1) n i)) 0
      nothing (.vinsa w) ∧ (vl ≠ 0 → ¬free → waits (.vinsa w) h) ∧
      (vl ≠ 0 → free → ∃ acc fl, leaves (.vinsa w) acc (h.addFlags fl) ∧
        (∀ e < 4096, getField acc (32 * e) 32 = if e0 + lo ≤ e ∧ e < e0 + vl then
            (if activeAt u h (e - e0) then (x (e - e0)).1 % 2 ^ 32 else if w.pol then 0 else old e) else old e) ∧
        ∀ b, fl.getLsbD b = true ↔ ∃ i, lo ≤ i ∧ i < vl ∧ activeAt u h i = true ∧ ((x i).2).getLsbD b = true)) ∧
    (s.SlotReady k .vexta w false → h.VlReady u (vlmax h.vgrant t n) → h.RegReady w.vd → nothing (.vexta w) ∧
      (vl ≠ 0 → ¬free → waits (.vexta w) { h.emptied w.vd.toNat with draining := some w.vd.toNat, vstate := .dirty }) ∧
      (vl ≠ 0 → free → ∃ acc v fl, leaves (.vexta w) acc ((h.putV w.vd v).addFlags fl) ∧
        (if Ty.isBfp t then BlocksWritten h u vl (fun i => (accElem (c.accAt a) (e0 + i), e0 + i)) v fl
         else ElementsWritten h u n vl (fun i => cvtVal t (cvtMode h.frm w.rm h.srseed h.srbase)
          (accElem (c.accAt a) (e0 + i)) (e0 + i)) v fl) ∧
        ∀ e < 4096, getField acc (32 * e) 32 =
          if w.imm.getLsbD 2 = true ∧ e0 + (if Ty.isBfp t then 32 * (lo / 32) else lo) ≤ e ∧ e < e0 + vl ∧
            (Ty.isBfp t || activeAt u h (e - e0)) = true then 0 else old e))) ∧
  (∀ (s : State) (k : Nat) (w : VWord),
    let h := s.hart k
    let u := resolveTy h w
    let t := u.ty.toNat
    let vl := (h.rd w.xl).toNat
    let n := w.vs1.toNat % 4
    let r := h.strm n
    let b := unitBits t
    let per := if Ty.isBfp t then 32 else 1
    let i0 := unitsOf t h.elem.toNat
    let m := min (unitsOf t vl - i0) r.elems.length
    let i := per * (i0 + m)
    let x : StreamRead :=
      { vd := w.vd.toNat, strm := n, ty := t, done := h.elem.toNat, vl := vl, pc := h.pc, slot := h.slot,
        next := ((Hart.retireSlot h).pc, (Hart.retireSlot h).slot), count := h.instret + 1 }
    let fits : Prop := r.state ≠ .faulted ∧ (r.state = .unbound ∨ strmWidth t = strmWidth r.fmt.toNat)
    (s.SlotReady k .srd w false → h.VlReady u (vlmax h.vgrant t (tyBits u)) → h.RegReady w.vd →
      (r.state = .faulted → exec (.srd w) s =
        .next (s.trapped k 12 (r.handle.zeroExtend 64) (BitVec.ofNat 64 r.num))) ∧
      (r.state ≠ .faulted → ¬fits → exec (.srd w) s = .next (s.trapped k 18
        (BitVec.ofNat 64 (0x7F00_0000_0000 + k / 9 * 0x100_0000 + 0x11_0000 + 0x4000 * n)) (r.fmt.zeroExtend 64))) ∧
      (fits → vl = 0 → exec (.srd w) s = .next (s.slotDone k { h.hushReads with ffi := 0, vstate := .dirty })) ∧
      (fits → vl ≠ 0 → exec (.srd w) s = .next (s.slotDone k (Hart.advanceReads
        { (h.putV w.vd (h.vreg w.vd)).emptied w.vd.toNat with reads := h.reads ++ [x] }))) ∧
      (fits → vl ≠ 0 → h.reads = [] → h.readsHeld = false → ∃ v,
        let g := (h.putV w.vd v).putStrm n (r.take m)
        (∀ j < i0, elemAt v b j = elemAt (h.vreg w.vd) b j) ∧
        (∀ j < m, elemAt v b (i0 + j) = r.elems.getD j 0 % 2 ^ b) ∧
        (r.state = .bound ∧ i < vl → exec (.srd w) s =
          .next (s.slotDone k { g.emptied w.vd.toNat with reads := [{ x with done := i }] })) ∧
        (r.state ≠ .bound ∨ vl ≤ i → (∀ j, i0 + m ≤ j → j < unitsOf t vl → elemAt v b j = 0) ∧
          exec (.srd w) s = .next (s.slotDone k { g with ffi := BitVec.ofNat 32 i })))) ∧
    (s.SlotReady k .srstat w false →
      let earlier : Prop := h.readsHeld = false ∧ ∃ y ∈ h.reads, y.strm = n
      (earlier → exec (.srstat w) s = .next (s.setHart k { h with life := .stalled })) ∧
      (¬earlier → exec (.srstat w) s = .next (s.slotDone k (h.wr w.vd (BitVec.ofNat 64
        (r.state.code + r.handle.toNat * 2 ^ 16 + min r.avail (2 ^ 32 - 1) * 2 ^ 32)))))))

namespace Sys2Proof.Machine

/-- The units of a run of accesses that are active, from VSTART.ELEM on and below unit `m` (06 R163). -/
def activeUnits (h : Hart) (w : VWord) (m : Nat) : List Nat :=
  let lo := unitsOf w.ty.toNat h.elem.toNat
  (List.range' lo (m - lo)).filter fun j => activeAt w h (perUnit w.ty.toNat * j)

/-- The state once the loads of some units have been counted, whose parts lie at `ps` (18 R401). -/
def State.counted (s : State) (ps : Nat → List (Leaf × Nat)) (js : List Nat) : State :=
  js.foldl (fun c j => spanCount c (ps j)) s

/-- The bytes that the store of unit j writes, in the state before it: those of the unit, with the other bits of a
partly covered byte of a sub-byte strip (06 R166). -/
def unitStored (c : State) (h : Hart) (w : VWord) (st : Option Word) (ps : List (Leaf × Nat)) (j : Nat) : List Byte :=
  let t := w.ty.toNat
  let p := unitSpan h w st j
  toBytes p.2.1 (putBits (if Ty.isSub t then ofBytes (spanBytes c ps) else 0) p.2.2 (unitBits t)
    (elemAt (h.vreg w.vd) (unitBits t) j))

/-- The state once the stores of some units have been performed, each at its parts `ps`. -/
def State.stored (s : State) (h : Hart) (w : VWord) (st : Option Word) (ps : Nat → List (Leaf × Nat)) (js : List Nat) :
    State :=
  js.foldl (fun c j => spanStore c (ps j) (unitStored c h w st (ps j) j)) s

/-- What a peer is asked for bytes `b` to `b + c` of the store of unit j: a write, or for a sub-byte strip a merge of
the bits of the unit (log 18). -/
def unitAsk (h : Hart) (w : VWord) (st : Option Word) (j b c : Nat) : PodOp :=
  let t := w.ty.toNat
  let p := unitSpan h w st j
  let bs := toBytes p.2.1 (elemAt (h.vreg w.vd) (unitBits t) j * 2 ^ p.2.2)
  if Ty.isSub t then .merge ((bs.drop b).take c) (((toBytes p.2.1 ((2 ^ unitBits t - 1) * 2 ^ p.2.2)).drop b).take c)
  else .write ((bs.drop b).take c)

/-- The hart has done with the answers of peers about the parts of some units. -/
def State.answered (s : State) (ps : Nat → List (Leaf × Nat)) (js : List Nat) : State :=
  podsUsed s (js.reverse.flatMap fun j => spanPods (ps j))

end Sys2Proof.Machine

/-- R160 to R168, for every type that the word may have: with no trap to take, VLD and VLDS all of whose active units from VSTART.ELEM pass their checks in turn (aligned, translated and correctable, in the state that the counting of the earlier ones leaves) complete with each active unit of vd the bits read, from the block that holds VSTART.ELEM in a BFP type (log 26), an inactive one zero with POL 1 and as before with POL 0. VLDFF does so up to the first active unit, but not the first of all, that fails, and leaves FFI at it, or at vl. VST and VSTS all of whose active units pass in the state that the stores of the earlier ones leave complete with those stores. VLDX reads and checks its active elements as it issues (log 15, the model's choice) and completes with vd empty and the gather in flight; VSTX completes with its active elements stored. With vl 0 each completes and changes no register, but VLDFF sets FFI to 0. Other registers are as before, and so are bytes but for access counters (18 R401) and used answers of peers (19 R416): where no counter counts and memory is canonical, VST, VSTS and VSTX to DRAM, scratchpads or the pool leave every byte below the pod space outside those of the stored units or elements, and any other name of them, as before. -/
def Obligations.VectorLoadsAndStoresComplete : Prop :=
  ∀ (s : State) (k : Nat) (w : VWord),
    let h := s.hart k
    let u := resolveTy h w
    let t := u.ty.toNat
    let vl := (h.rd w.xl).toNat
    let units := unitsOf t vl
    let lo := unitsOf t h.elem.toNat
    let strided : Option Word := some (h.rd w.vs3)
    let first := ((List.range units).find? fun j => activeAt u h (perUnit t * j)).getD 0
    let nothing (i : Instr) : Prop := vl = 0 → exec i s = .next (s.slotDone k h)
    let ready (i : VWord → Instr) : Prop := s.SlotReady k i w false ∧ h.VlReady u (vlmax h.vgrant t (tyBits u))
    let aligned (st : Option Word) (j : Nat) : Prop := misaligned t (unitSpan h u st j).1 = false
    let parts (c : State) (st : Option Word) (j : Nat) : Except Stop (List (Leaf × Nat)) :=
      span c h .load (perUnit t * j) (unitSpan h u st j).1 (unitSpan h u st j).2.1
    let reads (ps : Nat → List (Leaf × Nat)) (st : Option Word) (m : Nat) : Prop := ∀ j ∈ activeUnits h u m,
      let c := s.counted ps (activeUnits h u j)
      parts c st j = .ok (ps j) ∧ spanBad c (ps j) = false
    let bits (ps : Nat → List (Leaf × Nat)) (st : Option Word) (j : Nat) : Option Nat :=
      some (ofBytes (spanBytes (s.counted ps (activeUnits h u j)) (ps j)) / 2 ^ (unitSpan h u st j).2.2)
    let after (ps : Nat → List (Leaf × Nat)) (m : Nat) : State :=
      (s.counted ps (activeUnits h u m)).answered ps (activeUnits h u m)
    let loads (i : VWord → Instr) (st : Option Word) : Prop := ready i → nothing (i w) ∧
      ∀ ps, vl ≠ 0 → (∀ j ∈ activeUnits h u units, aligned st j) → reads ps st units →
        ∃ v, exec (i w) s = .next ((after ps units).slotDone k (h.putV w.vd v)) ∧
          UnitsWritten h u lo vl (fun j => activeAt u h (perUnit t * j)) (bits ps st) v
    let keeps (t : State) (ps : List (Leaf × Nat)) : Prop :=
      memWf s.mem = true → h.life ≠ .free → s.host.acen = false →
      (∀ p ∈ ps, ∀ i < p.2, ∃ key, physHome s (p.1.pa + i) = .mem key ∧ isRowZero key = false) →
      ∀ a < 2 ^ 50, (∀ p ∈ ps, ∀ i < p.2, homeKey s a ≠ homeKey s (p.1.pa + i)) → physByte t a = physByte s a
    let stores (i : VWord → Instr) (st : Option Word) : Prop := ready i → nothing (i w) ∧
      ∀ ps, vl ≠ 0 → (∀ j ∈ activeUnits h u units, aligned st j ∧
          span (s.stored h u st ps (activeUnits h u j)) h .store (perUnit t * j) (unitSpan h u st j).1
            (unitSpan h u st j).2.1 (unitAsk h u st j) = .ok (ps j)) →
        let t := ((s.stored h u st ps (activeUnits h u units)).answered ps (activeUnits h u units)).modHart k Hart.retireSlot
        exec (i w) s = .next t ∧ keeps t ((activeUnits h u units).flatMap ps)
    h.RegReady w.vd →
    loads .vld none ∧ loads .vlds strided ∧ stores .vst none ∧ stores .vsts strided ∧
    (ready .vldff →
      (vl = 0 → exec (.vldff w) s = .next (s.slotDone k { h.hushReads with ffi := 0, vstate := .dirty })) ∧
      ∀ ps m, vl ≠ 0 → (first ∈ activeUnits h u m → aligned none first) → reads ps none m →
        (m = units ∨ lo ≤ m ∧ m < units ∧ activeAt u h (perUnit t * m) = true ∧ m ≠ first ∧
          ((∃ e, parts (s.counted ps (activeUnits h u m)) none m = .error (.trap e)) ∨
           ∃ p, parts (s.counted ps (activeUnits h u m)) none m = .ok p ∧
             spanBad (s.counted ps (activeUnits h u m)) p = true)) →
        ∃ v, exec (.vldff w) s = .next ((after ps m).slotDone k { (h.putV w.vd v).hushReads with
            ffi := BitVec.ofNat 32 (if m = units then vl else perUnit t * m) }) ∧
          UnitsWritten h u lo (if m = units then vl else perUnit t * m) (fun j => activeAt u h (perUnit t * j)) (bits ps none) v) ∧
    (let act := (List.range' h.elem.toNat (vl - h.elem.toNat)).filter (activeAt u h)
     let n := tyBits u
     let far (l : Nat → Leaf) : List Nat := (act.filter fun i => decide (2 ^ 50 ≤ (l i).pa)).map fun i => (l i).pa
     h.VlReady u (vlmax h.vgrant t (max n 32)) → h.RegReady w.vs2 → ∀ l : Nat → Leaf,
      (s.SlotReady k .vldx w false → nothing (.vldx w) ∧
        (vl ≠ 0 → (∀ i ∈ act, misaligned t (indexedAddr h u i) = false ∧
            hartAddr s h (indexedAddr h u i) (n / 8) .load i = .ok (l i)) →
          ∃ v, exec (.vldx w) s = .next ((podsUsed (act.foldl (fun c i => countHart c (l i)) s) (far l)).slotDone k
              { (h.putV w.vd v).emptied w.vd.toNat with
                gathers := h.gathers ++ [gatherOf s u (act.map fun i => (i, l i, indexedAddr h u i))] }) ∧
            (∀ i, elemAt v n i = if h.elem.toNat ≤ i ∧ i < vl ∧ activeAt u h i = false ∧ w.pol = true then 0
              else elemAt (h.vreg w.vd) n i) ∧
            ((∀ i ∈ act, uncorrectable s (l i).pa (n / 8) = false) →
              gatherOf s u (act.map fun i => (i, l i, indexedAddr h u i)) =
                { vd := w.vd.toNat, width := n, elems := act.map fun i => ⟨i, physRead s (l i).pa (n / 8)⟩, bad := none }))) ∧
      (s.SlotReady k .vstx w false → nothing (.vstx w) ∧
        ((∀ i ∈ act, misaligned t (indexedAddr h u i) = false ∧
            hartAddr s h (indexedAddr h u i) (n / 8) .store i = .ok (l i) ∧
            (2 ^ 50 ≤ (l i).pa → ∃ q a, s.asked (indexedAddr h u i)
              (.write (toBytes (n / 8) (elemAt (h.vreg w.vd) n i))) = some q ∧ q.answer = some a)) →
          let t := (podsUsed (act.foldl (fun c i => store (countHart c (l i)) (l i).pa
            (toBytes (n / 8) (elemAt (h.vreg w.vd) n i)) none) s) (far l)).modHart k Hart.retireSlot
          exec (.vstx w) s = .next t ∧ keeps t (act.map fun i => (l i, n / 8)))))

/-- R160, R164 for VLD of a format of 8 to 64 bits, eoff 0 and no access counters: where each active element e below vl lies at an aligned address base + e × bytes that passes its checks at a leaf outside the pod space and can be corrected, the slot completes with each active element of vd equal to the bytes at that leaf, least significant first; inactive elements follow POL, memory is as before, and so is every register but vd. -/
def Obligations.UnitStrideLoadReadsConsecutiveElements : Prop :=
  ∀ (s : State) (k : Nat) (w : VWord) (l : Nat → Leaf), s.SlotReady k .vld w false →
    let h := s.hart k
    let u := resolveTy h w
    let n := tyBits u
    let vl := (h.rd w.xl).toNat
    let va (e : Nat) : Word := BitVec.ofNat 64 ((h.rd w.vs1).toNat + e * (n / 8))
    Ty.isWhole u.ty.toNat = true → bitsAt w.imm.toNat 4 12 = 0 → s.host.acen = false → h.elem = 0 →
    h.VlReady u (vlmax h.vgrant u.ty.toNat n) → h.RegReady w.vd → vl ≠ 0 →
    (∀ e < vl, activeAt u h e = true → (va e).toNat % (n / 8) = 0 ∧ hartAddr s h (va e) (n / 8) .load e = .ok (l e) ∧
      (l e).pa < 2 ^ 50 ∧ uncorrectable s (l e).pa (n / 8) = false) →
    ∃ v, exec (.vld w) s = .next (s.slotDone k (h.putV w.vd v)) ∧
      ElementsWritten h u n vl (fun e => (ofBytes (physBytes s (l e).pa (n / 8)), 0)) v 0

/-- R107, R135: at its turn a vector word with VSTATE OFF takes VEC_ABSENT (10) with TVAL2 the slot before any effect, here for VADD, VFADD, VLD, VPERM, VXQADD, PAND and SRD; VADD with a legal type and vl above VLMAX takes VL_RANGE (9) with TVAL vl and TVAL2 the slot. -/
def Obligations.SlotTrapsInOrder : Prop :=
  ∀ (s : State) (k : Nat) (w : VWord), s.HartTurn k →
    let h := s.hart k
    (h.vstate = .off → ∀ mk ∈ [Instr.vadd, .vfadd, .vld, .vperm, .vxqadd, .pand, .srd],
      exec (mk w) s = .next (s.trapped k 10 0 (h.slot.zeroExtend 64))) ∧
    (s.SlotReady k .vadd w false → vlmax h.vgrant (resolveTy h w).ty.toNat (tyBits (resolveTy h w)) < (h.rd w.xl).toNat →
      exec (.vadd w) s = .next (s.trapped k 9 (h.rd w.xl) (h.slot.zeroExtend 64)))

namespace Sys2Proof.Machine

/-- The state after a matrix word of the sequencer at place `k` that leaves the machine as in `t`: the array is busy with
it, `acc` being what MATRIX_WORD_COMPLETE gives its accumulator, and the slot is done. -/
def State.matrixDone (t : State) (k : Nat) (w : MWord) (acc : Option (Nat × BitVec 131072)) : State :=
  (t.setCore (k / 9) { t.core (k / 9) with job := some ⟨acc, w.imm.getLsbD 15⟩ }).modHart k Hart.retireSlot

/-- The state after a word that takes its turn of accumulator ad, and leaves the machine otherwise as in `t`. -/
def State.accDone (t : State) (k : Nat) (w : MWord) (v : BitVec 131072) : State :=
  let c := t.core (k / 9)
  (t.setCore (k / 9) (c.putQueue w.ad.toNat (c.queue w.ad.toNat).tail)).matrixDone k w (some (w.ad.toNat, v))

/-- A word whose result is `x` with flags `fl` completes with md = x where its granules fit, and else takes
TILE_STORE_FULL (12 R321); `srcs` are its source registers. The granules `gs` that md takes are none of another register's,
nor, where md is a source, of md (12 R320); which ones is free. -/
def State.Writes (s : State) (k : Nat) (w : MWord) (i : Instr) (srcs : List (BitVec 4)) (x : Tile) (fl : Flags) : Prop :=
  let c := s.core (k / 9)
  let room := c.freeGranules + if w.md ∈ srcs then 0 else (c.tileAt w.md).granules
  (x.granules ≤ room → ∃ gs : List Nat,
    exec i s = .next ((({ s.setCore (k / 9) (c.putTile w.md x gs) with free := s.free + 1 } : State).modHart k
      fun h => h.addFlags fl).matrixDone k w none) ∧
    ∀ g ∈ gs, g < 256 ∧ ∀ m : BitVec 4, m ≠ w.md ∨ w.md ∈ srcs → g ∉ c.grans[m.toNat]) ∧
  (room < x.granules → exec i s = .next (s.trapped k 16 (w.md.zeroExtend 64) (BitVec.ofNat 64 x.granules)))

/-- The flags of `n` results together. -/
def RaisedBy (fl : Flags) (n : Nat) (f : Nat → Flags) : Prop :=
  ∀ b, fl.getLsbD b = true ↔ ∃ e < n, (f e).getLsbD b = true

/-- The same for a DENSE result of type 8 or 9, whose element e and its flags are `r e`. -/
def State.WritesDense (s : State) (k : Nat) (w : MWord) (i : Instr) (srcs : List (BitVec 4)) (t : Nat)
    (r : Nat → Nat × Flags) : Prop :=
  ∃ x fl, s.Writes k w i srcs x fl ∧ RaisedBy fl 4096 (fun e => (r e).2) ∧
    match x with
    | .dense16 m => t = 8 ∧ ∀ e < 4096, getField m (16 * e) 16 = (r e).1 % 2 ^ 16
    | .dense32 m => t = 9 ∧ ∀ e < 4096, getField m (32 * e) 32 = (r e).1 % 2 ^ 32
    | _ => False

/-- Element e of U times the transpose of V, from +0 and in order (12 R322, 02 R58). -/
def productElem (mode : RMode) (u v : List (List Nat)) (e : Nat) : Nat × Flags :=
  dotFrom mode 0 (((u.getD (e / 64) []).map f32).zip ((v.getD (e % 64) []).map f32))

/-- Element e of the dense value of a tile register (12 R322), with the flags of its computation. -/
def denseElem (x : Tile) (e : Nat) : Val × Flags :=
  match x with
  | .empty => (.fin false 0 0, 0)
  | .dense32 m => (f32 (getField m (32 * e) 32), 0)
  | .dense16 m => (decodeF 8 (getField m (16 * e) 16), 0)
  | .maquette r u v => let p := productElem .rne (factorRows r u) (factorRows r v) e; (f32 p.1, p.2)

end Sys2Proof.Machine

/-- R311, R312, R314, R319, R324, R325: with the array free and the sequencer first in the order of a[ad], MZERO completes with the value +0 for every element. MMA, its operands within the scratchpad, matching their headers and correctable, completes: element (i, j) is that of a[ad] plus the products of row i of A, sparse or not, and row j of B, or column j of the dense value of ms2 with BR, summed in order with one rounding in the mode of RM; where ms2 is a maquette, row i of A times U first; an EMPTY ms2 gives a[ad], whatever A holds (log 28, the model's choice). FFLAGS gets the flags of all sums, and NV with the lowest element in TVAL2 where a structural zero hides an infinity or NaN (02 R66). With the array busy a word WAITS; behind earlier members it is STALLED. MATRIX_WORD_COMPLETE gives the accumulator its value, frees the array and counts FIN. ACC_HANDOFF makes the STALLED head of the order READY. That the value appears at MATRIX_WORD_COMPLETE is the model's choice (log 14). -/
def Obligations.AccumulatorMatrixWords : Prop :=
  ∀ (s : State) (k : Nat) (w : MWord),
    let h := s.hart k
    let cn := k / 9
    let c := s.core cn
    let n := w.ad.toNat
    let ta := w.ta.toNat
    let tb := w.tb.toNat
    let br := w.imm.getLsbD 0
    let sw := w.sw.toNat
    let kk := mmaK ta
    let mode := arithMode h.frm w.rm
    let xa := (h.rd w.xa).toNat
    let xb := (h.rd w.xb).toNat
    let rowA := if w.sp then opRowBytes ta / 2 else opRowBytes ta
    let na := 64 * rowA + if w.sp then 8 * kk else 0
    let nb := 64 * opRowBytes tb
    let first : Prop := c.queue n = [] ∨ (c.queue n).head? = some k
    let clean (off m : Nat) : Prop := ∀ i < m, uncorrectable s (coreBase cn + off + i) 1 = false
    let vals (t off bytes r : Nat) : List Val := rowVals t (swzRow sw r (physBytes s (coreBase cn + off + 16 + bytes * r) bytes))
    let arow (i : Nat) : ARow := if w.sp
      then sparseRow kk (vals ta xa rowA i) (ofBytes (physBytes s (coreBase cn + xa + 16 + 64 * rowA + kk / 8 * i) (kk / 8)))
      else (vals ta xa rowA i).map some
    let brow (j : Nat) : List Val := if br then (List.range 64).map fun i => (denseElem (c.tileAt w.ms2) (64 * i + j)).1
      else vals tb xb (opRowBytes tb) j
    let old (e : Nat) : Nat := getField (c.accAt n) (32 * e) 32
    let marked (fl : Flags) (hid : Option Nat) : Hart :=
      match hid with
      | none => h.addFlags fl
      | some e =>
        let v : Word := BitVec.ofNat 64 (e + n * 2 ^ 12)
        let g := h.addFlags (fl ||| fNV)
        if h.tstat.prv then { g with s := { h.s with tval2 := v } } else { g with u := { h.u with tval2 := v } }
    let lowest (hid : Option Nat) (p : Nat → Prop) : Prop :=
      (hid = none → ∀ e < 4096, ¬p e) ∧ (∀ e, hid = some e → e < 4096 ∧ p e ∧ ∀ f < e, ¬p f)
    (s.HartTurn k → c.job = none → first → exec (.mzero w) s = .next (s.accDone k w 0)) ∧
    (s.HartTurn k → c.job.isSome = true →
      (∀ i ∈ [Instr.mma w, .mzero w, .mtld w, .mtst w, .mthdr w], ∃ t, exec i s = .next t ∧
        (t.hart k).life = .waiting ∧ (t.hart k).pc = h.pc ∧ t.mem = s.mem) ∧
      (s.variant.hasMaquette = true →
        ∀ mk ∈ [Instr.mqld, .mqst, .mqadd, .mqmul, .chisel, .mqcast, .mqrank, .mqfree, .mqscl],
          exec (mk w) s = .next (s.setHart k { h with life := .waiting }))) ∧
    (s.HartTurn k → c.job = none → ¬ first → ∀ mk ∈ [Instr.mma, .mzero], ∃ t, exec (mk w) s = .next t ∧
      (t.hart k).life = .stalled ∧ (t.hart k).pc = h.pc ∧ t.mem = s.mem) ∧
    (∀ (ha hb : OpHeader), s.HartTurn k → c.job = none → first →
      xa % 16 = 0 → xa + 16 + na ≤ 0x8_0000 → clean xa (16 + na) →
      readHeader s cn xa = .ok ha → ha.fmt = ta → ha.rows = 64 → ha.cols = (if w.sp then kk / 2 else kk) →
      ha.swz = sw → (w.sp = true → sparseBad s cn xa ta = false) →
      (br = false → xb % 16 = 0 ∧ xb + 16 + nb ≤ 0x8_0000 ∧ clean xb (16 + nb) ∧ readHeader s cn xb = .ok hb ∧
        hb.fmt = tb ∧ hb.rows = 64 ∧ hb.cols = kk ∧ hb.swz = sw) →
      ∃ v fl hid, exec (.mma w) s = .next ((s.setHart k (marked fl hid)).accDone k w v) ∧
        (br = true → c.tileAt w.ms2 = .empty → v = c.accAt n ∧ fl = 0 ∧ hid = none) ∧
        (br = false ∨ (c.tileAt w.ms2).isDense = true →
          let sum (e : Nat) : Nat × Flags := dotFrom mode (old e) (mmaPairs (arow (e / 64)) (brow (e % 64)))
          (∀ e < 4096, getField v (32 * e) 32 = (sum e).1 % 2 ^ 32) ∧ RaisedBy fl 4096 (fun e => (sum e).2) ∧
          lowest hid fun e => sparseHidden (arow (e / 64)) (brow (e % 64)) = true) ∧
        (∀ r u v', br = true → c.tileAt w.ms2 = .maquette r u v' →
          let ucol (l : Nat) : List Val := (factorRows r u).map fun row => f32 (row.getD l 0)
          let mid (i l : Nat) : Nat × Flags := dotFrom .rne 0 (mmaPairs (arow i) (ucol l))
          let sum (e : Nat) : Nat × Flags := dotFrom mode (old e)
            (((List.range r).map fun l => f32 (mid (e / 64) l).1).zip (((factorRows r v').getD (e % 64) []).map f32))
          (∀ e < 4096, getField v (32 * e) 32 = (sum e).1 % 2 ^ 32) ∧
          (∀ b, fl.getLsbD b = true ↔ ∃ e < 4096, ((sum e).2).getLsbD b = true ∨
            ∃ l < r, ((mid (e / 64) l).2).getLsbD b = true) ∧
          lowest hid fun e => ∃ l < r, sparseHidden (arow (e / 64)) (ucol l) = true)) ∧
    (∀ (cn : Nat) (j : MatrixJob), (s.core cn).job = some j →
      ∃ t, exec (.matrixWordComplete cn) s =
          .next (match s.hostedGroup cn with | some g => settleGroup t g | none => t) ∧
        (t.core cn).job = none ∧ t.mem = s.mem ∧
        (∀ v m, j.acc = some (m, v) → (t.core cn).accAt m = v) ∧
        (j.acc = none → (t.core cn).acc = (s.core cn).acc) ∧
        (t.hart (9 * cn + 8)).finMark = (s.hart (9 * cn + 8)).finMark + (if j.fin then 1 else 0)) ∧
    (∀ (cn a k : Nat), a < 4 → ((s.core cn).queue a).head? = some k → (s.core cn).accBusy a = false →
      (s.hart k).life = .stalled → exec (.accHandoff cn a) s = .next (s.setLife k .ready))

/-- R316 to R318, R320 to R322, R326 to R332: with the array free and operands within the scratchpad and correctable, MTLD makes md DENSE of the tile's rows, MTST stores the dense value of ms1, rounded where its type is another, with its header; MTHDR stores the header of x[xb]. In a variant with MAQUETTE, MQLD loads a maquette and MQST stores one; MQADD adds dense values or joins the columns of two maquettes, MQMUL multiplies dense values or gives a maquette of the smaller rank; a rank beyond MQRMAX traps RANK_OVERFLOW with D 0 and gives the dense product with D 1. CHISEL of EMPTY gives EMPTY, of a maquette with infinity or NaN an exact copy with NV, else the recompression of R330, of a rank not above the old one; of a DENSE one it traps. MQCAST and MQSCL give the converted or scaled elements; MQRANK writes rank, state and granules to x[xa]; MQFREE makes md EMPTY. A result whose granules do not fit takes TILE_STORE_FULL. Nothing else changes but flags. Without MAQUETTE its nine words trap UNIT_ABSENT. The model's choices: tile register, scratchpad and flags are written at issue (log 14), which free granules a result takes (log 16), and CHISEL keeps only NX, UF and OF (log 28). -/
def Obligations.TileMatrixWords : Prop :=
  ∀ (s : State) (k : Nat) (w : MWord), s.HartTurn k → (s.core (k / 9)).job = none →
    let h := s.hart k
    let cn := k / 9
    let c := s.core cn
    let t := w.ta.toNat
    let sw := w.sw.toNat
    let xa := (h.rd w.xa).toNat
    let a := c.tileAt w.ms1
    let b := c.tileAt w.ms2
    let da (e : Nat) : Val × Flags := denseElem a e
    let db (e : Nat) : Val × Flags := denseElem b e
    let rb := 8 * Ty.width t
    let base := coreBase cn + xa + 16
    let mode := arithMode h.frm w.rm
    let d := w.imm.getLsbD 0
    let two := [w.ms1, w.ms2]
    let rmax := h.mqrmax.toNat
    let overflow (i : Instr) (r : Nat) : Prop := exec i s = .next (s.trapped k 15 (w.md.zeroExtend 64) (BitVec.ofNat 64 r))
    let clean (m : Nat) : Prop := ∀ i < m, uncorrectable s (coreBase cn + xa + i) 1 = false
    (∀ hd, t = 8 ∨ t = 9 → xa % 16 = 0 → xa + 16 + 64 * rb ≤ 0x8_0000 → clean (16 + 64 * rb) →
      readHeader s cn xa = .ok hd → hd.fmt = t → hd.rows = 64 → hd.cols = 64 → hd.swz = sw →
      let m := ofBytes (tileRows sw rb (physBytes s base (64 * rb))).flatten
      s.Writes k w (.mtld w) [] (if t = 8 then .dense16 (BitVec.ofNat 65536 m) else .dense32 (BitVec.ofNat 131072 m)) 0) ∧
    (t = 8 ∨ t = 9 → xa % 16 = 0 → xa + 16 + 64 * rb ≤ 0x8_0000 →
      let rounded (e : Nat) : Nat × Flags := let p := cvtVal t mode (da e).1 0; (p.1, (da e).2 ||| p.2)
      let stored (e : Nat) : Nat × Flags :=
        match a with
        | .dense16 m => if t = 8 then (getField m (16 * e) 16, 0) else rounded e
        | .dense32 m => if t = 9 then (getField m (32 * e) 32, 0) else rounded e
        | _ => rounded e
      let bytes := (tileRows sw rb (toBytes (64 * rb) (packElems (Ty.width t)
        ((List.range 4096).map fun e => (stored e).1)))).flatten
      ∃ fl, RaisedBy fl 4096 (fun e => (stored e).2) ∧ exec (.mtst w) s = .next
          (((spadWrite (spadWrite s cn (xa + 16) bytes) cn xa (headerBytes t sw 64 64 (seqHandle s k h) 0)).modHart k
            fun h => h.addFlags fl).matrixDone k w none)) ∧
    ((h.rd w.xb).toNat < 2 ^ 32 → xa % 16 = 0 → xa + 16 ≤ 0x8_0000 → exec (.mthdr w) s = .next
      ((spadWrite s cn xa (headerBytes t sw ((h.rd w.xb).toNat % 2 ^ 16) ((h.rd w.xb).toNat / 2 ^ 16)
        (seqHandle s k h) 0)).matrixDone k w none)) ∧
    (s.variant.hasMaquette = false → ∀ mk ∈ [Instr.mqld, .mqst, .mqadd, .mqmul, .chisel, .mqcast, .mqrank, .mqfree, .mqscl],
      exec (mk w) s = .next (s.trapped k 2 (parcelWord (mk w)) 0x0012)) ∧
    (s.variant.hasMaquette = true →
      (∀ hd, xa % 16 = 0 → readHeader s cn xa = .ok hd → hd.fmt = 9 → hd.rows = 128 → hd.cols ≤ 32 → hd.swz = 0 →
        xa + 16 + 512 * hd.cols ≤ 0x8_0000 → clean (16 + 512 * hd.cols) →
        let word (i : Nat) : BitVec 32 := BitVec.ofNat 32 (ofBytes (physBytes s (base + 4 * i) 4))
        let u := (List.range (64 * hd.cols)).map word
        let v := (List.range (64 * hd.cols)).map fun i => word (64 * hd.cols + i)
        (hd.cols ≤ rmax → s.Writes k w (.mqld w) [] (.maquette hd.cols u v) 0) ∧
        (rmax < hd.cols → d = true → s.WritesDense k w (.mqld w) [] 9
          (productElem .rne (factorRows hd.cols u) (factorRows hd.cols v))) ∧
        (rmax < hd.cols → d = false → overflow (.mqld w) hd.cols)) ∧
      (a.isDense = false → xa % 16 = 0 → xa + 16 + 512 * a.rank ≤ 0x8_0000 → exec (.mqst w) s = .next
        ((spadWrite (spadWrite s cn (xa + 16) ((a.factors.1 ++ a.factors.2).flatMap fun row => row.flatMap (toBytes 4)))
          cn xa (headerBytes 9 0 128 a.rank (seqHandle s k h) 0)).matrixDone k w none)) ∧
      (a.isDense = false → b.isDense = false →
        let u := List.zipWith (· ++ ·) a.factors.1 b.factors.1
        let v := List.zipWith (· ++ ·) a.factors.2 b.factors.2
        let f := maquetteMul a.rank b.rank a.factors b.factors 0
        let r := a.rank + b.rank
        let m := min a.rank b.rank
        (r ≤ rmax → s.Writes k w (.mqadd w) two (mkMaquette r u v) 0) ∧
        (rmax < r → d = true → s.WritesDense k w (.mqadd w) two 9 (productElem mode u v)) ∧
        (rmax < r → d = false → overflow (.mqadd w) r) ∧
        (m ≤ rmax → s.Writes k w (.mqmul w) two (mkMaquette m f.1.1 f.1.2) f.2) ∧
        (rmax < m → d = true → s.WritesDense k w (.mqmul w) two 9 fun e =>
          let p := productElem .rne f.1.1 f.1.2 e; (p.1, f.2 ||| p.2)) ∧
        (rmax < m → d = false → overflow (.mqmul w) m)) ∧
      (a.isDense = true ∨ b.isDense = true →
        s.WritesDense k w (.mqadd w) two 9 (fun e =>
          let p := fAdd 9 mode (da e).1 (db e).1; (p.1, (da e).2 ||| (db e).2 ||| p.2)) ∧
        s.WritesDense k w (.mqmul w) two 9 (fun e =>
          let p := dotFrom mode 0 ((List.range 64).map fun l => ((da (64 * (e / 64) + l)).1, (db (64 * l + e % 64)).1))
          (p.1, (da e).2 ||| (db e).2 ||| p.2))) ∧
      (a = .empty → s.Writes k w (.chisel w) [] .empty 0) ∧
      (∀ r u v, a = .maquette r u v →
        (((u ++ v).any fun b => (f32 b.toNat).isInf || (f32 b.toNat).isNaN) = true → s.Writes k w (.chisel w) [] a fNV) ∧
        (((u ++ v).any fun b => (f32 b.toNat).isInf || (f32 b.toNat).isNaN) = false →
          let x := chiselFactors r a.factors (f32 h.mqtol.toNat) 0
          x.1.1 ≤ r ∧ s.Writes k w (.chisel w) [] (mkMaquette x.1.1 x.1.2.1 x.1.2.2) (x.2 &&& (fNX ||| fUF ||| fOF)))) ∧
      (a.isDense = true → overflow (.chisel w) 64) ∧
      (t = 8 ∨ t = 9 → s.WritesDense k w (.mqcast w) [w.ms1] t fun e =>
        let p := cvtVal t mode (da e).1 0; (p.1, (da e).2 ||| p.2)) ∧
      exec (.mqrank w) s = .next ((s.setHart k (h.wr w.xa (BitVec.ofNat 64 (a.rank +
        (match a with | .empty => 0 | .maquette _ _ _ => 2 | _ => 1) * 2 ^ 6 +
        (match a with | .dense16 _ => 1 | _ => 0) * 2 ^ 8 + a.granules * 2 ^ 9)))).matrixDone k w none) ∧
      s.Writes k w (.mqfree w) [] .empty 0 ∧
      (let x := decodeF 9 ((h.rd w.xa).toNat % 2 ^ 32)
       (a = .empty → s.Writes k w (.mqscl w) [w.ms1] .empty 0) ∧
       (∀ m, a = .dense32 m → s.WritesDense k w (.mqscl w) [w.ms1] 9 fun e =>
         fMul 9 mode x (f32 (getField m (32 * e) 32))) ∧
       (∀ m, a = .dense16 m → s.WritesDense k w (.mqscl w) [w.ms1] 8 fun e =>
         fMul 8 mode x (decodeF 8 (getField m (16 * e) 16))) ∧
       (∀ r u v, a = .maquette r u v → ∃ fl,
         let y (i : Nat) : Nat × Flags := fMul 9 mode x (f32 ((u.getD i 0).toNat))
         RaisedBy fl u.length (fun i => (y i).2) ∧ s.Writes k w (.mqscl w) [w.ms1]
           (.maquette r ((List.range u.length).map fun i => BitVec.ofNat 32 (y i).1) v) fl)))

/-- The bank of index `b` of the pseudo-channel of stream `i`. -/
def bankOf (i b : Nat) : Nat := pcBase i + b

/-- The word of stream `i` has ended at cycle `c` and the stream goes on at word `n`; bank `b` of its pseudo-channel
is as `f b` makes it, and every other bank and memory are as before. -/
def WordEnded (s t : State) (i n c : Nat) (f : Nat → Bank → Bank) : Prop :=
  t.stream i = (s.stream i).wordDone n c ∧ (∀ b < 16, t.bank (bankOf i b) = f b (s.bank (bankOf i b))) ∧
    (∀ key, (∀ b < 16, key ≠ bankOf i b) → t.bank key = s.bank key) ∧ t.mem = s.mem

/-- A row arithmetic word: its constructor, its source slots, and element e of its result from the scalar operand and
the elements of sd, sa and sb. -/
structure RowOp where
  ctor : BWord → Instr
  srcs : BWord → List Nat
  elem : BWord → Word → Nat → Nat → Nat → Nat

/-- A row sum, difference or product: wrapped for integers, rounded once, RNE, for floats. -/
def rowTwo (mk : BWord → Instr) (fi : Int → Int → Int) (ff : Nat → Val → Val → Nat × Flags) : RowOp :=
  { ctor := mk, srcs := fun w => [w.saN, w.sbN],
    elem := fun w _ _ a b =>
      let t := w.ty.toNat
      if Ty.isF t then (ff t (decodeF t a) (decodeF t b)).1 else wrapInt (Ty.width t) (fi (intElem t a) (intElem t b)) }

/-- The table of R275 but for RCVT. -/
def rowOps : List RowOp :=
  let two (mk : BWord → Instr) (f : Nat → Nat → Nat → Nat) : RowOp :=
    { ctor := mk, srcs := fun w => [w.saN, w.sbN], elem := fun w _ _ a b => f w.ty.toNat a b }
  [rowTwo .radd (· + ·) fun t x y => fAdd t .rne x y, rowTwo .rsub (· - ·) fun t x y => fAdd t .rne x y.neg,
   rowTwo .rmul (· * ·) fun t x y => fMul t .rne x y,
   two .rmax fun t a b => if Ty.isF t then (minMaxElem t true a b).1 else if intElem t a < intElem t b then b else a,
   two .rmin fun t a b => if Ty.isF t then (minMaxElem t false a b).1 else if intElem t a < intElem t b then a else b,
   two .rand fun _ a b => a &&& b, two .rior fun _ a b => a ||| b, two .rxor fun _ a b => a ^^^ b,
   { ctor := .rshr, srcs := fun w => [w.saN],
     elem := fun w _ _ a _ => wrapInt w.tw (intElem w.ty.toNat a / (2 ^ bitsAt w.imm.toNat 0 6 : Nat)) },
   { ctor := .rscadd, srcs := fun w => [w.saN, w.sbN],
     elem := fun w c _ a b =>
       let t := w.ty.toNat
       if Ty.isF t then (fFma t .rne (decodeF 9 (c.toNat % 2 ^ 32)) (decodeF t b) (decodeF t a)).1
       else wrapInt (Ty.width t) (clampTo t (intElem t a + signedOf 32 c.toNat * intElem t b)) },
   { ctor := .rcmp, srcs := fun w => [w.saN, w.sbN],
     elem := fun w _ _ a b => if rowCmp w.ty.toNat (bitsAt w.imm.toNat 0 3) a b then 2 ^ w.tw - 1 else 0 },
   { ctor := .rsel, srcs := fun w => [w.saN, w.sbN, w.sdN], elem := fun _ _ old a b => if old ≠ 0 then a else b }]

/-- The source and destination slots of a lane word are open, with every line of `lines` correctable in the sources,
and the lanes are free, in every executing bank. -/
def Sys2Proof.Machine.State.LanesReady (s : State) (i : Nat) (pr : Bool) (srcs : List Nat) (lines : BitVec 128)
    (dest : List Nat) : Prop :=
  ∀ b ∈ s.exBanks i pr, (s.bank (bankOf i b)).lanesFree = true ∧
    (∀ n ∈ srcs ++ dest, (s.bank (bankOf i b)).isOpen n = true) ∧
    ∀ n ∈ srcs, ((s.bank (bankOf i b)).slotAt n).bad &&& lines = 0

/-- R253, R255, R275 to R278, R283: a row arithmetic word of a stream whose slots are open, correctable and free begins a row pass of 32 cycles in every executing bank, leaving sd OPEN-DIRTY; every element of the slot at the end of that pass is the result of the elements of the sources, with the scalar operand of the bank; RZERO writes zero to every byte of sd. RCVT converts the elements R277 names, for each pair of widths and H; the rest of sd stands. The stream goes on at the next word a cycle later; other banks, and memory, are as before. (ROW_PASS_END writes the slot.) -/
def Obligations.RowArithmeticWords : Prop :=
  ∀ (s : State) (i : Nat) (w : BWord), s.WordTurn i w.pr →
    let st := s.stream i
    let c := streamNow s i st
    let ex := s.exBanks i w.pr
    let begun (srcs : List Nat) (bits : Nat → Bank → BitVec 65536) (bad : Bank → BitVec 128) (b : Nat) (x : Bank) : Bank :=
      if b ∈ ex then
        { x.putSlot w.sdN { x.slotAt w.sdN with state := .openDirty } with
          pass := some { due := c + 32, reads := srcs ++ [w.sdN], target := .slot w.sdN (bits b x) (bad x) } }
      else x
    (∀ op ∈ rowOps, s.LanesReady i w.pr (op.srcs w) allLines [w.sdN] → w.tw ∣ 65536 →
      ∃ t bits, exec (op.ctor w) s = .next t ∧
        WordEnded s t i (st.pos + 1) c (begun (op.srcs w) bits fun _ => 0) ∧
        ∀ b ∈ ex, ∀ e < 65536 / w.tw,
          let x := s.bank (bankOf i b)
          let at_ (n : Nat) : Nat := getField (x.slotAt n).bits (w.tw * e) w.tw
          getField (bits b x) (w.tw * e) w.tw =
            op.elem w (bRead s st i b w.bs1) (at_ w.sdN) (at_ w.saN) (at_ w.sbN) % 2 ^ w.tw) ∧
    (s.LanesReady i w.pr [] 0 [w.sdN] →
      ∃ t, exec (.rzero w) s = .next t ∧ WordEnded s t i (st.pos + 1) c (begun [] (fun _ _ => 0) fun _ => 0)) ∧
    (let sf := bitsAt w.imm.toNat 0 5
     let ws := Ty.width sf
     let n := 65536 / max ws w.tw
     let h := bitsAt w.imm.toNat 5 1
     let so := if ws < w.tw then n * h else 0
     let d0 := if w.tw < ws then n * h else 0
     let mode : RMode := if w.imm.getLsbD 6 then .rtz else .rne
     (ws = 8 ∨ ws = 16 ∨ ws = 32) → (w.tw = 8 ∨ w.tw = 16 ∨ w.tw = 32) →
     s.LanesReady i w.pr [w.saN] (lineMask (ws * so / 512) (ws * n / 512)) [w.sdN] →
      ∃ t bits bad, exec (.rcvt w) s = .next t ∧ WordEnded s t i (st.pos + 1) c (begun [w.saN] bits bad) ∧
        ∀ b ∈ ex,
          let x := s.bank (bankOf i b)
          let y := x.slotAt w.sdN
          (∀ e < n, getField (bits b x) (w.tw * (d0 + e)) w.tw =
            (cvtVal w.ty.toNat mode (decodeElem sf (getField (x.slotAt w.saN).bits (ws * (so + e)) ws)) 0).1 % 2 ^ w.tw) ∧
          (∀ k < 65536, k < w.tw * d0 ∨ w.tw * (d0 + n) ≤ k → (bits b x).getLsbD k = y.bits.getLsbD k) ∧
          ∀ l < 128, (bad x).getLsbD l =
            (y.bad.getLsbD l && !decide (w.tw * d0 ≤ 512 * l ∧ 512 * l < w.tw * (d0 + n))))

/-- R265 to R267, R279: with open, correctable and free slots in every executing bank, each begins a row pass of 32 cycles. QZERO makes every element of q zero; QACC adds the widened row element to each paired accumulator element, QMAC the exact product with m (sb[i], or the scalar operand with S) in one rounding, and QLD loads the widened element; accumulator elements without a pair are as before. QWB writes the paired elements of sd, converted, and leaves the others. The other accumulator and the other banks are as before; the stream goes on at the next word. -/
def Obligations.AccumulatorRowWords : Prop :=
  ∀ (s : State) (i : Nat) (w : BWord), s.WordTurn i w.pr →
    let st := s.stream i
    let c := streamNow s i st
    let ex := s.exBanks i w.pr
    let t := w.ty.toNat
    let p := accPairs w.tw w.h0
    let scalar := w.imm.getLsbD 1
    let begun (reads : List Nat) (acc : Nat → Bank → BitVec 131072) (b : Nat) (x : Bank) : Bank :=
      if b ∈ ex then { x with pass := some { due := c + 32, reads := reads, target := .acc w.q (acc b x) } } else x
    let paired (reads : List Nat) (i' : Instr) (f : Nat → Nat → Nat → Nat → Nat) : Prop :=
      s.LanesReady i w.pr reads (accLines w.tw w.h0) [] →
      ∃ u acc, exec i' s = .next u ∧ WordEnded s u i (st.pos + 1) c (begun reads acc) ∧
        ∀ b ∈ ex, ∀ e < 4096,
          let x := s.bank (bankOf i b)
          let g := getField (x.qAt w.q) (32 * e) 32
          let at_ (n : Nat) : Nat := widen32 t (getField (x.slotAt n).bits (w.tw * (p.2.1 + (e - p.2.2))) w.tw)
          getField (acc b x) (32 * e) 32 =
            if p.2.2 ≤ e ∧ e < p.2.2 + p.1 then f b g (at_ w.saN) (at_ w.sbN) % 2 ^ 32 else g
    w.tw = 8 ∨ w.tw = 16 ∨ w.tw = 32 →
    (s.LanesReady i w.pr [] 0 [] →
      ∃ u, exec (.qzero w) s = .next u ∧ WordEnded s u i (st.pos + 1) c (begun [] fun _ _ => 0)) ∧
    paired [w.saN] (.qacc w) (fun _ g r _ => if Ty.isF t then (fAdd 9 .rne (decodeF 9 g) (decodeF 9 r)).1 else g + r) ∧
    (scalar = true → paired [w.saN] (.qmac w) (fun b g r _ =>
      let m := (bRead s st i b w.bs1).toNat % 2 ^ 32
      if Ty.isF t then (fFma 9 .rne (decodeF 9 r) (decodeF 9 m) (decodeF 9 g)).1 else g + r * m)) ∧
    (scalar = false → paired [w.saN, w.sbN] (.qmac w) (fun _ g r m =>
      if Ty.isF t then (fFma 9 .rne (decodeF 9 r) (decodeF 9 m) (decodeF 9 g)).1 else g + r * m)) ∧
    paired [w.saN] (.qld w) (fun _ _ r _ => r) ∧
    (s.LanesReady i w.pr [] 0 [w.sdN] → ∃ (u : State) (bits : Nat → Bank → BitVec 65536) (bad : Nat → Bank → BitVec 128),
      exec (.qwb w) s = .next u ∧
      WordEnded s u i (st.pos + 1) c (fun b x =>
        if b ∈ ex then
          { x.putSlot w.sdN { x.slotAt w.sdN with state := .openDirty } with
            pass := some { due := c + 32, reads := [w.sdN], target := .slot w.sdN (bits b x) (bad b x) } }
        else x) ∧
      (∀ b ∈ ex, ∀ e < p.1,
        let x := s.bank (bankOf i b)
        getField (bits b x) (w.tw * (p.2.1 + e)) w.tw =
          qwbElem t (getField (x.qAt w.q) (32 * (p.2.2 + e)) 32) % 2 ^ w.tw) ∧
      ∀ b ∈ ex,
        let x := s.bank (bankOf i b)
        let y := x.slotAt w.sdN
        bad b x = y.bad &&& ~~~accLines w.tw w.h0 ∧
        ∀ k < 65536, k < w.tw * p.2.1 ∨ w.tw * (p.2.1 + p.1) ≤ k → (bits b x).getLsbD k = y.bits.getLsbD k)

/-- R252, R254 to R258, R269 to R274: PRE of open slots past tAPR begins their precharge, of 12 cycles, and leaves CLOSED slots alone; WB of open slots of writable rows begins WRITING of dirty ones; REFB with every slot CLOSED begins 280 cycles of refresh; REFQ writes its snapshot to b[bd]; ACT of a CLOSED slot latches the row, bank by bank, in each at the first cycle at which an activate is allowed, RCOPY begins there with two activates. A PRE without .x traps DIRTY_PRECHARGE where some executing bank has a dirty slot, WB SLOT_CLOSED where one has a CLOSED slot and ACT SLOT_BUSY where one has an open slot, no bank having a row trap, which comes first (R283); the trap names exactly those banks. That time and the order of turns make the cycle is log 19, the model's choice. -/
def Obligations.SlotWords : Prop :=
  ∀ (s : State) (i : Nat) (w : BWord), s.WordTurn i w.pr →
    let st := s.stream i
    let c := streamNow s i st
    let ex := s.exBanks i w.pr
    let bk (b : Nat) : Bank := s.bank (bankOf i b)
    let n := w.sdN
    let at1 (i' : Instr) (f : Bank → Bank) : Prop := ∃ t, exec i' s = .next t ∧
      WordEnded s t i (st.pos + 1) c fun b x => if b ∈ ex then f x else x
    ((∀ b ∈ ex, (bk b).refb = none ∧ ((bk b).projected n = none ∨ (bk b).isOpen n = true ∧ (bk b).passOn n = false ∧
        ((bk b).slotAt n).actAt + 28 ≤ c ∧ (((bk b).slotAt n).state = .openDirty → w.imm.getLsbD 0 = true))) →
      at1 (.pre w) fun x => if (x.projected n).isNone then x
        else x.putSlot n { x.slotAt n with state := .precharging, due := c + 12 }) ∧
    ((∀ b ∈ ex, (bk b).lanesFree = true ∧ (bk b).isOpen n = true ∧
        rowTrap s st (bankOf i b) n ((bk b).slotAt n).row true = none) →
      at1 (.wb w) fun x => if (x.slotAt n).state = .openDirty
        then x.putSlot n { x.slotAt n with state := .writing, due := c + 12 } else x) ∧
    ((∀ b ∈ ex, (bk b).lanesFree = true ∧ (bk b).allClosed = true) →
      at1 (.refb w) fun x => { x with refb := some (c + 280) }) ∧
    (at1 (.refq w) fun x => x.wrB w.bd (BitVec.ofNat 64 (match bitsAt w.imm.toNat 0 3 with
      | 0 => x.debt + if x.deadline || x.handling then 16 else 0
      | 5 => st.swc.toNat
      | k => slotReport x (k - 1) c))) ∧
    -- the word begins first in bank b, at cycle a
    (let first (two : Bool) (b a : Nat) : Prop := b ∈ ex ∧ actReady s (bankOf i b) n c two = some a ∧
       timeOk s (i / 256) a = true ∧ noneBefore s i a = true ∧ s.NoStep (i / 256) a ∧
       ∀ b' ∈ ex, ∀ a', actReady s (bankOf i b') n c two = some a' → a < a' ∨ (a = a' ∧ b ≤ b')
     let begun (t : State) (b a : Nat) : Prop := t.mem = s.mem ∧ (∃ l, l.contains a = true ∧
         (t.bank (bankOf i b)).acts = l ∧ (t.bank (bankOf i b)).q = (bk b).q ∧ (t.bank (bankOf i b)).b = (bk b).b) ∧
       (t.stream i = st.wordDone (st.pos + 1) a ∨ (t.stream i).bpc = st.bpc ∧ (t.stream i).begun.getLsbD b = true) ∧
       (ex = [b] → t.stream i = st.wordDone (st.pos + 1) a)
     (∀ b a, (∀ b' ∈ ex, (bk b').projected n = none ∧
         rowTrap s st (bankOf i b') n (actRow s i st (bankOf i b') w) false = none) → first false b a →
       ∃ t, exec (.act w) s = .next t ∧ begun t b a ∧
        (t.bank (bankOf i b)).slotAt n =
          { state := .opening, row := (actRow s i st (bankOf i b) w).toNat, due := a + 16, actAt := a,
            bits := (rowRead s (bankOf i b) n (actRow s i st (bankOf i b) w).toNat).1,
            bad := (rowRead s (bankOf i b) n (actRow s i st (bankOf i b) w).toNat).2 }) ∧
     (let src := bitsAt w.imm.toNat 0 12
      let dst := bitsAt w.imm.toNat 12 12
      ∀ b a, (∀ b' ∈ ex, (bk b').projected n = none ∧ rowTrap s st (bankOf i b') n src false = none ∧
         rowTrap s st (bankOf i b') n dst true = none) → first true b a →
       ∃ t, exec (.rcopy w) s = .next t ∧ begun t b a ∧ (a + 28 ∈ (t.bank (bankOf i b)).acts) ∧
        (t.bank (bankOf i b)).slotAt n = { (bk b).slotAt n with row := src, actAt := a } ∧
        (t.bank (bankOf i b)).rcopy = (bk b).rcopy ++
          [⟨n, src, dst, a, (rowRead s (bankOf i b) n src).1, (rowRead s (bankOf i b) n src).2⟩])) ∧
    -- the banks `bs` in which `p` holds, if any, take cause `k`
    (let traps (i' : Instr) (k : Nat) (p : Nat → Bool) : Prop := ex.filter p ≠ [] →
       exec i' s = .next (bankTrap (reach s (i / 256) c) i k (ex.filter p))
     (w.imm.getLsbD 0 = false → traps (.pre w) 4 fun b => (bk b).projected n == some true) ∧
     ((∀ b ∈ ex, (bk b).projected n ≠ none → rowTrap s st (bankOf i b) n ((bk b).slotAt n).row true = none) →
       traps (.wb w) 2 fun b => (bk b).projected n == none) ∧
     ((∀ b ∈ ex, rowTrap s st (bankOf i b) n (actRow s i st (bankOf i b) w) false = none) →
       traps (.act w) 3 fun b => (bk b).projected n != none))

/-- R252, R253, R256, R271, R272, R274, R299: where nothing of the tower ends earlier, no stream of it may act earlier, none is to stop and no step of a yield begins by then, the end of OPENING leaves the slot OPEN-CLEAN, that of WRITING writes the slot's contents to its row and leaves it OPEN-CLEAN, that of PRECHARGING leaves it CLOSED; the end of a row pass writes its slot or accumulator; RCOPY_COMPLETE writes the destination row and leaves the slot CLOSED with that row; REFB_COMPLETE lowers the debt by one, from 0 not at all, is followed by the next REFB of a forced refresh until the debt is 8, and reactivates the slots of a transparent refresh; the yield-row copies save and restore the slot, at the save also where the slot's next step begins with it; the ends of tAPR, tAAD, tFAW and of a plinth-buffer crossing change no bank. The tower's time reaches the end's cycle. Every other slot is as before. That time is the cycle of such ends is the model's choice (log 19). -/
def Obligations.BankTimersComeAbout : Prop :=
  ∀ (s : State) (key n : Nat),
    let x := s.bank key
    let y := x.slotAt n
    let tw := s.tower (key / 1024)
    let due (d : Nat) : Prop := s.Due (key / 1024) d
    let after (i : Instr) (d : Nat) (mem : State → State) (z : Bank) : Prop :=
      ∃ t, exec i s = .next t ∧ t.bank key = z ∧ t.mem = (mem s).mem ∧ t.bad = (mem s).bad ∧
        (t.tower (key / 1024)).now = max tw.now d ∧ ∀ j, j ≠ key → t.bank j = s.bank j
    (n < 4 → x.copying n = false → due y.due →
      (y.state = .opening → after (.tacuElapsed key n) y.due id (x.putSlot n { y with state := .openClean })) ∧
      (y.state = .writing → after (.twbkElapsed key n) y.due (fun s => rowWrite s key n y.row y.bits y.bad)
        (x.putSlot n { y with state := .openClean })) ∧
      (y.state = .precharging → after (.tpreElapsed key n) y.due id (x.putSlot n { y with state := .closed }))) ∧
    (∀ p, x.pass = some p → p.move = false → due p.due →
      (∀ m bits bad, p.target = .slot m bits bad → after (.rowPassEnd key) p.due id
        ({ x with pass := none }.putSlot m { x.slotAt m with bits := bits, bad := bad })) ∧
      (∀ q bits, p.target = .acc q bits → after (.rowPassEnd key) p.due id ({ x with pass := none }.putQ q bits)) ∧
      (p.target = .nothing → after (.rowPassEnd key) p.due id { x with pass := none })) ∧
    (∀ r, x.rcopy.find? (fun r => r.slot == n) = some r → due (r.start + 56) →
      after (.rcopyComplete key n) (r.start + 56) (fun s => rowWrite s key n r.dst r.bits r.bad)
        { x.putSlot n { y with state := .closed, row := r.dst } with rcopy := x.rcopy.filter fun r => r.slot != n }) ∧
    (∀ d, x.refb = some d → due d →
      (x.reopen.getD [] = [] → (x.forced = false ∨ x.owner ≠ none) →
        after (.refbComplete key) d id { x with refb := none, debt := x.debt - 1, reopen := none }) ∧
      (x.reopen.getD [] = [] → x.forced = true → x.owner = none → after (.refbComplete key) d id
        { x with refb := if 9 < x.debt then some (d + 280) else none, debt := x.debt - 1, reopen := none,
                 forced := decide (9 < x.debt) }) ∧
      (∀ l, x.reopen = some l → l.Nodup → (∀ m ∈ l, m < 4) → x.forced = false → ∃ t, exec (.refbComplete key) s = .next t ∧
        (t.bank key).refb = none ∧ (t.bank key).debt = x.debt - 1 ∧ t.mem = s.mem ∧ ∀ m < 4,
          let z := (t.bank key).slotAt m
          if m ∈ l then z.state = .opening ∧ z.row = (x.slotAt m).row ∧ z.due = z.actAt + 16 ∧ d ≤ z.actAt ∧
            z.bits = (rowRead s key m (x.slotAt m).row).1
          else z = x.slotAt m)) ∧
    (∀ d m rest, x.yieldCopies = (d, m, false) :: rest → mayPass s (key / 1024) d = true →
      (∀ p ∈ s.streams, p.1 / 256 = key / 1024 → p.2.stopping = false) →
      (∀ q ∈ x.plan, d < q.at_ ∨ q.at_ = d ∧ q.slot = m) →
      ∃ t, exec (.yieldRowCopyEnd key) s = .next t ∧ (t.bank key).yieldRow = (x.slotAt m).bits ∧
        (t.bank key).yieldBad = (x.slotAt m).bad ∧ (t.bank key).yieldCopies = rest ∧ t.mem = s.mem) ∧
    (∀ d m rest, x.yieldCopies = (d, m, true) :: rest → due d → after (.yieldRowCopyEnd key) d id
      { x.putSlot m { x.slotAt m with state := .openDirty, bits := x.yieldRow, bad := x.yieldBad } with
        yieldCopies := rest }) ∧
    (n < 4 → x.projected n ≠ none → tw.now ≤ y.actAt + 28 → due (y.actAt + 28) →
      after (.taprElapsed key n) (y.actAt + 28) id x) ∧
    (∀ a, x.acts.getLast? = some a → tw.now ≤ a + 4 → due (a + 4) → after (.taadElapsed key) (a + 4) id x) ∧
    (∀ a, ((tw.acts.getD n []).filter fun a => decide (tw.now < a + 20)).head? = some a → due (a + 20) →
      after (.tfawWindowElapsed (key / 1024) n) (a + 20) id x) ∧
    (∀ e c, tw.crossing.find? (fun c => c.entry == e) = some c →
      ∃ t, exec (.plinthBufferCrossingEnd (key / 1024) e) s = .next t ∧ t.banks = s.banks ∧ t.mem = s.mem ∧
        (t.tower (key / 1024)).pbuf = tw.pbuf.set e c.bits ∧
        (t.tower (key / 1024)).crossing = tw.crossing.erase c)

/-- R303: BLI sets b[bd] to n sign-extended and BADD to b[bs1] + b[bs2], or b[bs1] + sext(n), modulo 2^64, in each executing bank; with bd 0 the write is discarded. R305: BPSET sets each bank's predicate to whether b[bs1] cc b[bs2] holds; with pr 1 a bank whose predicate is 0 keeps 0; bpset.all sets every predicate to 1. The stream goes on at the next word; other banks and memory are as before. -/
def Obligations.ScalarBankWords : Prop :=
  ∀ (s : State) (i : Nat) (w : BWord), s.StreamTurn i →
    let st := s.stream i
    let c := streamNow s i st
    let ex := s.exBanks i w.pr
    let rd (b : Nat) (r : BitVec 4) : Word := bRead s st i b r
    let imm := w.imm.toNat
    let cc := bitsAt imm 0 3
    let put (v : Nat → Word) (b : Nat) (x : Bank) : Bank :=
      if b ∈ ex ∧ w.bd ≠ 0 then { x with b := x.b.set w.bd.toNat (v b) } else x
    mayAct s i st c false = true → s.NoStep (i / 256) c →
    (∃ t, exec (.bli w) s = .next t ∧
      WordEnded s t i (st.pos + 1) c (put fun _ => BitVec.ofInt 64 w.imm.toInt)) ∧
    (∃ t, exec (.badd w) s = .next t ∧ WordEnded s t i (st.pos + 1) c (put fun b => BitVec.ofNat 64
      ((rd b w.bs1).toNat + if imm % 2 = 1 then (BitVec.ofInt 64 (signedOf 30 (imm / 2))).toNat
        else (rd b w.bs2).toNat))) ∧
    (cc ≤ 6 → ∃ t, exec (.bpset w) s = .next t ∧ WordEnded s t i (st.pos + 1) c fun b x =>
      let u := rd b w.bs1
      let v := rd b w.bs2
      let holds : Bool := decide ((cc = 0 ∧ u = v) ∨ (cc = 1 ∧ u ≠ v) ∨ (cc = 2 ∧ u.toInt < v.toInt) ∨
        (cc = 3 ∧ v.toInt ≤ u.toInt) ∨ (cc = 4 ∧ u.toNat < v.toNat) ∨ (cc = 5 ∧ v.toNat ≤ u.toNat))
      if st.mask.getLsbD b then { x with pred := decide (cc = 6) || ((!w.pr || x.pred) && holds) }
      else x)

/-- R287, R304: BBR goes to its target where its condition holds in every active bank and there is one, or with al, BLOOP where b[bd] after its decrement is not 0 in each, and both else to the next word; a target outside the loaded code traps ILLEGAL. R306: BSIG advances the count of its handle's stream and lands its BUFSTs. R309: BEND with every slot closed ends the stream and frees its banks, traps SLOT_BUSY in every bank with one open, and ILLEGAL inside a split. R310: BRETT in HANDLER goes on at BTEPC with predicates restored, RUNNING, and traps ILLEGAL elsewhere; BNOP goes on. R308: BWAITT goes on at the watermark, faults the stream with 0x8C on a faulted number, and else waits. The model's choices: BEND in HANDLER is ILLEGAL (log 60), an unmet BWAITT in HANDLER leaves the stream in HANDLER (log 42), and BSIG and BEND land the BUFSTs of their own stream alone (log 43). -/
def Obligations.BankBranchesAndSignals : Prop :=
  ∀ (s : State) (i : Nat) (w : BWord), s.StreamTurn i →
    let st := s.stream i
    let c := streamNow s i st
    let act := activeBanks s i st
    let rd (b : Nat) (r : BitVec 4) : Word := bRead s st i b r
    let off : Int := (st.pos : Int) + signedOf 12 (bitsAt w.imm.toNat 3 12)
    let inside : Prop := 0 ≤ off ∧ off < (st.code.length : Int)
    let cc := bitsAt w.imm.toNat 0 3
    let goes (i' : Instr) (n : Nat) (f : Nat → Bank → Bank) : Prop :=
      ∃ t, exec i' s = .next t ∧ WordEnded s t i n c f
    let same (_ : Nat) (x : Bank) : Bank := x
    let ill (i' : Instr) : Prop := exec i' s = .next (bankTrap (reach s (i / 256) c) i 9 (bankList st.mask))
    mayAct s i st c false = true → s.NoStep (i / 256) c →
    (inside → (cc = 6 ∨ act ≠ [] ∧ ∀ b ∈ act, bCond cc (rd b w.bs1) (rd b w.bs2) = true) → goes (.bbr w) off.toNat same) ∧
    (inside → ¬(cc = 6 ∨ act ≠ [] ∧ ∀ b ∈ act, bCond cc (rd b w.bs1) (rd b w.bs2) = true) →
      goes (.bbr w) (st.pos + 1) same) ∧
    (w.bd ≠ 0 → inside → goes (.bloop w) (if act ≠ [] ∧ ∀ b ∈ act, rd b w.bd ≠ 1 then off.toNat else st.pos + 1)
      fun b x => if st.mask.getLsbD b then { x with b := x.b.set w.bd.toNat (rd b w.bd - 1) } else x) ∧
    (¬ inside → ill (.bbr w) ∧ ill (.bloop w) ∧ ill (.bsplit w)) ∧
    (∃ t, exec (.bsig w) s = .next t ∧ t.banks = s.banks ∧ t.mem = s.mem ∧
      (t.stream (rootStream s 4 i)).mark = (s.stream (rootStream s 4 i)).mark + 1 ∧
      (∀ x ∈ (t.tower (i / 256)).crossing, x.stream ≠ i) ∧ (t.stream i).bpc = (st.goTo (st.pos + 1)).bpc) ∧
    (st.split = [] → st.state ≠ .handler →
      (∀ b ∈ bankList st.mask, (s.bank (bankOf i b)).allClosed = true ∧ (s.bank (bankOf i b)).refb = none ∧
        (s.bank (bankOf i b)).owner = some i) →
      ∃ t, exec (.bend w) s = .next t ∧ (t.stream i).state = .ended ∧
        (∀ x ∈ (t.tower (i / 256)).crossing, x.stream ≠ i) ∧
        ∀ b ∈ bankList st.mask, (t.bank (bankOf i b)).owner = none ∧ (t.bank (bankOf i b)).q = Vector.replicate 2 0 ∧
          (t.bank (bankOf i b)).allClosed = true ∧ (t.bank (bankOf i b)).debt = (s.bank (bankOf i b)).debt) ∧
    (let busy := (bankList st.mask).filter fun b => (List.range 4).any fun n => ((s.bank (bankOf i b)).projected n).isSome
     st.split = [] → st.state ≠ .handler → busy ≠ [] →
      exec (.bend w) s = .next (bankTrap (reach s (i / 256) c) i 3 busy)) ∧
    (st.split ≠ [] ∨ st.state = .handler → ill (.bend w)) ∧
    goes (.bnop w) (st.pos + 1) same ∧
    (st.state = .handler → ∃ t, exec (.brett w) s = .next t ∧
      t.stream i = { st.wordDone st.btepc.toNat c with state := .running } ∧ t.mem = s.mem ∧
      ∀ b < 16, t.bank (bankOf i b) = if st.mask.getLsbD b
        then { s.bank (bankOf i b) with pred := (s.bank (bankOf i b)).saved, handling := false } else s.bank (bankOf i b)) ∧
    (st.state ≠ .handler → ill (.brett w)) ∧
    (∀ (lead : Nat) (k : Kernel) (v : TlView), st.state = .running ∨ st.state = .handler →
      (bankList st.mask).head? = some lead → s.kernels.get? st.kernel = some k →
      let h := (rd lead w.bs1).toNat
      let n := (rd lead w.bs2).toNat
      h < 2 ^ 16 → (h / 4096 = 0 ∨ h / 4096 = 1 ∨ h / 4096 = 3 ∨ h / 4096 = 4) → waitView s k.ctx none h st.waitFor = some v →
      ((∀ f ∈ v.faulted, n < f) → n ≤ v.mark → ∃ t, exec (.bwaitt w) s = .next t ∧ t.banks = s.banks ∧ t.mem = s.mem ∧
        t.stream i = { st.wordDone (st.pos + 1) c with waitFor := none }) ∧
      ((∀ f ∈ v.faulted, n < f) → v.mark < n → ∃ t, exec (.bwaitt w) s = .next t ∧ t.banks = s.banks ∧ t.mem = s.mem ∧
        (t.stream i).state = (if st.state = .handler then .handler else .waiting) ∧ (t.stream i).left = st.state ∧
        (t.stream i).bpc = st.bpc ∧ (t.stream i).waitFor = st.waitFor.or (waitBinding s k.ctx h)) ∧
      ((∃ f ∈ v.faulted, f ≤ n) → exec (.bwaitt w) s =
        .next (streamFault (reach s (i / 256) c) i 0x8C (groupMask st.bound [lead]))))

/-- R291 to R293: with fewer than three entries, BSPLIT pushes an entry with P1, P0, predicates and target. With both parts and a free sequencer the primary keeps P1 at the next word and a secondary takes P0 at the target with SWC, BTVEC and stack; with none the split is serialised; with one part empty the other continues, at the next word or the target. Predicates become 1 where both parts are non-empty. BJOIN: a primary of a parallel split waits; the end of P1 of a serialised one makes P0 run from the target; other parts' ends restore every predicate and continue after the BJOIN with all the banks; a secondary's returns its banks to its primary, IDLE. A fourth BSPLIT, and a BJOIN with no entry, trap ILLEGAL. The model's choices: a secondary's BJOIN in HANDLER is ILLEGAL (log 60), a primary's there leaves the stream in HANDLER (log 42), and ENDED and FAULTED sequencers count as free (log 32). -/
def Obligations.SplitAndJoin : Prop :=
  ∀ (s : State) (i : Nat) (w : BWord), s.StreamTurn i →
    let st := s.stream i
    let c := streamNow s i st
    let n : Int := (st.pos : Int) + signedOf 12 (bitsAt w.imm.toNat 3 12)
    let p1 := maskOf (activeBanks s i st)
    let p0 := st.mask &&& ~~~p1
    let entry (k : SplitKind) : Split := ⟨p1, st.mask, p1, p0, n.toNat, k⟩
    let ones (m : BitVec 16) (b : Nat) (x : Bank) : Bank := if m.getLsbD b then { x with pred := true } else x
    let ill (i' : Instr) : Prop := exec i' s = .next (bankTrap (reach s (i / 256) c) i 9 (bankList st.mask))
    mayAct s i st c false = true → s.NoStep (i / 256) c → 0 ≤ n → n < (st.code.length : Int) →
    (3 ≤ st.split.length → ill (.bsplit w)) ∧
    (st.split.length < 3 →
      (p0 = 0 ∨ p1 = 0 → ∃ t, exec (.bsplit w) s = .next t ∧ t.banks = s.banks ∧ t.stream i =
        { st.wordDone (if p1 = 0 then n.toNat else st.pos + 1) c with split := entry .alone :: st.split }) ∧
      (p0 ≠ 0 → p1 ≠ 0 →
        (freeSeq s i = none → ∃ t, exec (.bsplit w) s = .next t ∧ t.mem = s.mem ∧ t.stream i =
          { st.wordDone (st.pos + 1) c with mask := p1, split := entry .serialFirst :: st.split } ∧
          ∀ b < 16, t.bank (bankOf i b) = ones p1 b (s.bank (bankOf i b))) ∧
        (∀ j, freeSeq s i = some j → j ≠ i → ∃ t, exec (.bsplit w) s = .next t ∧ t.mem = s.mem ∧ t.stream i =
          { st.wordDone (st.pos + 1) c with mask := p1, split := entry (.parallel j) :: st.split } ∧
          t.stream j = { state := .running, kernel := st.kernel, bound := st.bound, mask := p0, bpc := BitVec.ofNat 9 n.toNat,
                         swc := st.swc, entry := st.entry, en := st.en, split := entry .returns :: st.split,
                         code := st.code, primary := some i, readyAt := c + 1, window := st.window } ∧
          (∀ k, s.kernels.get? st.kernel = some k →
            t.kernels.get? st.kernel = some { k with streams := k.streams ++ [j] }) ∧
          ∀ b < 16, t.bank (bankOf i b) = (if p0.getLsbD b
            then { ones st.mask b (s.bank (bankOf i b)) with owner := some j } else ones st.mask b (s.bank (bankOf i b)))))) ∧
    (st.split = [] → ill (.bjoin w)) ∧
    (∀ e rest, st.split = e :: rest → st.state = .running ∨ st.state = .handler →
      (∀ j, e.kind = .parallel j → ∃ t, exec (.bjoin w) s = .next t ∧ t.banks = s.banks ∧ t.mem = s.mem ∧
        (t.stream i).state = (if st.state = .handler then .handler else .waiting) ∧ (t.stream i).left = st.state ∧
        (t.stream i).bpc = st.bpc ∧ (t.stream i).split = st.split) ∧
      (e.kind = .serialFirst → ∃ t, exec (.bjoin w) s = .next t ∧ t.mem = s.mem ∧
        t.stream i = { st.wordDone e.target c with mask := e.p0, split := { e with kind := .serialSecond } :: rest,
                                                   waitFor := none } ∧
        ∀ b < 16, t.bank (bankOf i b) = ones e.p0 b (s.bank (bankOf i b))) ∧
      (e.kind = .serialSecond ∨ e.kind = .alone → ∃ t, exec (.bjoin w) s = .next t ∧ t.mem = s.mem ∧
        t.stream i = { st.wordDone (st.pos + 1) c with mask := e.part, split := rest, waitFor := none } ∧
        ∀ b < 16, t.bank (bankOf i b) = (if e.part.getLsbD b then { s.bank (bankOf i b) with pred := e.preds.getLsbD b }
          else s.bank (bankOf i b))) ∧
      (e.kind = .returns → st.state = .handler → ill (.bjoin w)) ∧
      (∀ j, e.kind = .returns → st.state = .running → st.primary = some j → j ≠ i → ∃ t, exec (.bjoin w) s = .next t ∧
        t.mem = s.mem ∧ t.stream i = {} ∧
        (t.stream j).split = (s.stream j).split.map (fun e => if e.kind = .parallel i then { e with kind := .alone } else e) ∧
        (t.stream j).bpc = (s.stream j).bpc ∧ (t.stream j).state = (s.stream j).state ∧
        (∀ k, s.kernels.get? st.kernel = some k →
          t.kernels.get? st.kernel = some { k with streams := k.streams.filter (· != i) }) ∧
        ∀ b < 16, t.bank (bankOf j b) = if st.mask.getLsbD b then { s.bank (bankOf j b) with owner := some j }
          else s.bank (bankOf j b)))

/-- R280, R281, R295 to R297: an RSWEEP of n rows that are combined completes with SWC 0; it activates row start + SWC, and once every executing bank holds it, correctable, a pass combines it into q; then each slot is precharged, and with them CLOSED SWC counts it. An uncorrectable line closes the slots and traps with SWC kept. A move of SHMOV, with bus, lanes and slots free, takes 8 cycles on the bus, its receivers' slots OPEN-DIRTY with what the sender sends; with the last the word is complete, and the lanes of the other executing banks are taken until it ends (log 41). BUS_MOVE_END writes the receivers' slots and counts. BUFST begins its pass and its row crosses to entry e of the grant; BUFLD begins a pass that writes sd from the entry. A check that fails traps first. The model's choices: a row whose activates an arbitration window has cut short is given up (log 42), and a stream's own BUFSTs are seen whole, those of others as old or new by units (log 43). -/
def Obligations.SweepAndMovementWords : Prop :=
  ∀ (s : State) (i : Nat) (w : BWord),
    let st := s.stream i
    let c := streamNow s i st
    let ex := s.exBanks i w.pr
    let bk (b : Nat) : Bank := s.bank (bankOf i b)
    let n := w.sdN
    let done : State → Prop := fun t => t.stream i = { st.wordDone (st.pos + 1) c with swc := 0 }
    let acc (b : Nat) : BitVec 131072 := accCombine w.ty.toNat w.sweepH ((bk b).slotAt n).bits ((bk b).qAt w.q)
      fun g r _ => sweepOp w (bRead s st i b w.bs1) g r
    let bad (b : Nat) : Bool := ((bk b).slotAt n).bad &&& sweepLines w (decide (1 < ex.length)) != 0
    let wait (d : Nat) (b : Nat) (x : Bank) : Bank := if b ∈ ex
      then x.putSlot n { x.slotAt n with state := .precharging, due := d } else x
    (s.StreamTurn i → timeOk s (i / 256) c = true → noneBefore s i c = true → s.NoStep (i / 256) c →
      -- between rows
      (st.late c = false → st.checked = true ∨ wordTrap s i ex (sweepCauses w st) = none → st.phase = 0 →
        ((ex = [] ∨ w.sweepRows ≤ st.swc.toNat) →
          ∃ t, exec (.rsweep w) s = .next t ∧ done t ∧ t.banks = s.banks ∧ t.mem = s.mem) ∧
        (∀ b a, b ∈ ex → st.begun = 0 → st.window = none → st.swc.toNat < w.sweepRows →
          actReady s (bankOf i b) n c false = some a →
          timeOk s (i / 256) a = true → noneBefore s i a = true → s.NoStep (i / 256) a →
          (∀ b' ∈ ex, ∀ a', actReady s (bankOf i b') n c false = some a' → a < a' ∨ (a = a' ∧ b ≤ b')) →
          ∃ t, exec (.rsweep w) s = .next t ∧ t.mem = s.mem ∧ (t.stream i).begun.getLsbD b = true ∧
            (t.stream i).swc = st.swc ∧ (t.stream i).bpc = st.bpc ∧
            (t.bank (bankOf i b)).slotAt n =
              { state := .opening, row := w.sweepStart + st.swc.toNat, due := a + 16, actAt := a,
                bits := (rowRead s (bankOf i b) n (w.sweepStart + st.swc.toNat)).1,
                bad := (rowRead s (bankOf i b) n (w.sweepStart + st.swc.toNat)).2 })) ∧
      -- within a row, and before a trap
      (st.checked = true → ex ≠ [] →
        (st.phase = 0 → st.swc.toNat < w.sweepRows → (∀ b ∈ ex, st.begun.getLsbD b = true) →
          exec (.rsweep w) s = .next (s.modStream i fun x => { x with phase := 1, begun := 0 })) ∧
        (st.phase = 0 → st.swc.toNat < w.sweepRows → st.begun ≠ 0 → st.window ≠ none → (∃ b ∈ ex, st.begun.getLsbD b = false) →
          exec (.rsweep w) s = .next (s.modStream i fun x => { x with phase := 3 })) ∧
        (st.phase = 1 → st.begun = 0 → (∀ b ∈ ex, (bk b).isOpen n = true) →
          ((∃ b ∈ ex, bad b = true) → exec (.rsweep w) s = .next (s.modStream i fun x => { x with phase := 2 })) ∧
          ((∀ b ∈ ex, bad b = false ∧ (bk b).lanesFree = true) → ∃ t, exec (.rsweep w) s = .next t ∧ t.mem = s.mem ∧
            (t.stream i).phase = 1 ∧ (t.stream i).swc = st.swc ∧ (∀ b ∈ ex, (t.stream i).begun.getLsbD b = true) ∧
            ∀ b < 16, t.bank (bankOf i b) =
              if b ∈ ex then { bk b with pass := some ⟨c + 32, [n], .acc w.q (acc b), false⟩ } else bk b)) ∧
        ((∀ b ∈ ex, (bk b).isOpen n = true ∧ (bk b).passOn n = false ∧ (bk b).refb = none ∧
            ((bk b).slotAt n).actAt + 28 ≤ c) → (st.phase = 1 ∧ ∀ b ∈ ex, st.begun.getLsbD b = true) ∨ st.phase = 2 ∨
            st.phase = 3 →
          ∃ t, exec (.rsweep w) s = .next t ∧ t.mem = s.mem ∧ (t.stream i).phase = st.phase ∧ (t.stream i).swc = st.swc ∧
            ∀ b < 16, t.bank (bankOf i b) = wait (c + 12) b (bk b)) ∧
        ((∀ b ∈ ex, ((bk b).slotAt n).state = .closed) →
          (st.phase = 1 → (∀ b ∈ ex, st.begun.getLsbD b = true) →
            exec (.rsweep w) s = .next (s.modStream i fun x => { x with phase := 0, begun := 0, swc := x.swc + 1 })) ∧
          (st.phase = 2 → exec (.rsweep w) s = .next (bankTrap s i 7 (ex.filter bad))) ∧
          (st.phase = 3 → exec (.rsweep w) s = .next (s.modStream i fun x => { x with phase := 0, begun := 0 }))))) ∧
    (s.StreamTurn i → st.checked = false → mayAct s i st c false = true → ∀ k bs,
      wordTrap s i ex (sweepCauses w st) = some (k, bs) →
      exec (.rsweep w) s = .next (bankTrap (reach s (i / 256) c) i k bs)) ∧
    (let moves := shmovMoves w st ex
     s.StreamTurn i → mayAct s i st c false = true → s.NoStep (i / 256) c → st.phase = 0 →
     (st.checked = true ∨ wordTrap s i ex (shmovCauses w i st moves) = none) →
       (moves[st.swc.toNat]? = none →
         ∃ t, exec (.shmov w) s = .next t ∧ done t ∧ t.banks = s.banks ∧ t.mem = s.mem) ∧
       (∀ m, moves[st.swc.toNat]? = some m →
         (∀ d, (s.tower (i / 256)).bus.get? (i % 256 / 4) = some d → d ≤ c) → (bk m.1).lanesFree = true →
         (shmovAcc w = false → (bk m.1).isOpen w.saN = true) →
         (∀ b ∈ m.2, (bk b).lanesFree = true ∧ (bk b).isOpen n = true) →
         let reads := if shmovAcc w then [] else [w.saN]
         ∃ t, exec (.shmov w) s = .next t ∧ t.mem = s.mem ∧ (t.tower (i / 256)).bus.get? (i % 256 / 4) = some (c + 8) ∧
           (st.swc.toNat + 1 = moves.length → done t) ∧
           (st.swc.toNat + 1 ≠ moves.length → (t.stream i).phase = 1 ∧ (t.stream i).swc = st.swc ∧ (t.stream i).bpc = st.bpc) ∧
           ∀ b < 16, t.bank (bankOf i b) =
             if b ∈ m.2 then
               { (bk b).putSlot n { (bk b).slotAt n with state := .openDirty } with
                 pass := some ⟨c + 8, n :: reads, .slot n (shmovBits w (bk m.1)) 0, true⟩ }
             else if b = m.1 then { bk b with pass := some ⟨c + 8, reads, .nothing, true⟩ }
             else if st.swc.toNat + 1 = moves.length ∧ b ∈ ex ∧ (bk b).lanesFree = true then
               { bk b with pass := some ⟨c + 8, n :: reads, .nothing, true⟩ }
             else bk b)) ∧
    (s.StreamTurn i → st.checked = false → mayAct s i st c false = true → ∀ k bs,
      wordTrap s i ex (shmovCauses w i st (shmovMoves w st ex)) = some (k, bs) →
      exec (.shmov w) s = .next (bankTrap (reach s (i / 256) c) i k bs)) ∧
    (s.WordTurn i w.pr → (∀ b ∈ ex, bufTrap s i st (bankOf i b) w = none) →
      let entry (b : Nat) : Nat := (bufGrant s st).2 + (bufEntry s i st (bankOf i b) w).toNat
      (s.LanesReady i w.pr [w.saN] allLines [] →
        (∀ b ∈ ex, ∀ b' ∈ ex, bufEntry s i st (bankOf i b) w = bufEntry s i st (bankOf i b') w → b = b') →
        ∃ t, exec (.bufst w) s = .next t ∧
          WordEnded s t i (st.pos + 1) c (fun b x =>
            if b ∈ ex then { x with pass := some ⟨c + 32, [w.saN], .nothing, false⟩ } else x) ∧
          (t.tower (i / 256)).crossing = (s.tower (i / 256)).crossing ++
            ex.map fun b => ⟨entry b, i, ((bk b).slotAt w.saN).bits⟩) ∧
      -- the units of other streams' BUFSTs that each bank's read meets are old or new by the free value
      (let met (b : Nat) : Nat := (bufMet s i (entry b)).length
       let before (b : Nat) : Nat := ((ex.takeWhile (· < b)).map met).sum
       s.LanesReady i w.pr [] 0 [n] → ∃ t, exec (.bufld w) s = .next t ∧ t.free = s.free + (ex.map met).sum ∧
        WordEnded s t i (st.pos + 1) c (fun b x =>
          if b ∈ ex then { x.putSlot n { x.slotAt n with state := .openDirty } with
            pass := some ⟨c + 32, [n], .slot n (bufRead { s with free := s.free + before b } i (entry b)) 0, false⟩ }
          else x)) ∧
      (∀ e, bufMet s i e = [] → bufRead s i e =
        match ((s.tower (i / 256)).crossing.filter fun x => x.entry == e && x.stream == i).getLast? with
        | some x => x.bits | none => (s.tower (i / 256)).pbuf.getD e 0)) ∧
    (∀ k ks p, movingBanks s i = k :: ks → (s.bank k).pass = some p →
      s.Due (i / 256) p.due →
      ∃ t, exec (.busMoveEnd i) s = .next t ∧ t.mem = s.mem ∧
        (∀ j ∈ k :: ks, ∀ q, (s.bank j).pass = some q →
          (q.target = .nothing → t.bank j = { s.bank j with pass := none }) ∧
          ∀ m bits, q.target = .slot m bits 0 → t.bank j =
            { s.bank j with pass := none }.putSlot m { (s.bank j).slotAt m with bits := bits, bad := 0 }) ∧
        (st.phase = 1 → (t.stream i).phase = 0 ∧ (t.stream i).swc = st.swc + 1) ∧
        (st.phase ≠ 1 → (t.stream i).phase = st.phase ∧ (t.stream i).swc = st.swc))

/-- R289, R290, R263: with a handler installed and the stream outside it, a trap with cause c in banks K sets BTCAUSE to c plus 2^16 times the mask of K by group index, BTEPC to BPC and BPC to ENTRY, the state to HANDLER, and in every bank of the stream saves the predicate, sets it to 1 and writes BTCAUSE to b15, its first word a cycle later; SWC, the slots and the accumulators stand. Without a handler REFRESH_DEADLINE refreshes the banks of K: dirty slots are written back, REFB ends 280 cycles after every slot is closed, and the slots that were open are to open again. In every other case the stream is faulted: FAULTED, and its banks are released. That a dirty slot of row 0 is not written back is the model's choice (log 31). -/
def Obligations.BankTrapEntry : Prop :=
  ∀ (s : State) (i c : Nat) (k : List Nat),
    let st := s.stream i
    let t := bankTrap s i c k
    let cause := c + groupMask st.bound k * 2 ^ 16
    let now := (s.tower (i / 256)).now
    (st.en = true → st.state ≠ .handler → t.mem = s.mem ∧
      t.stream i = { st with btcause := BitVec.ofNat 32 cause, btepc := st.bpc, bpc := st.entry, ranOff := false,
                             state := .handler, begun := 0, checked := false, phase := 0, waitFor := none,
                             held := false, readyAt := streamNow s i st + 1 } ∧
      ∀ b < 16,
        let x := s.bank (bankOf i b)
        t.bank (bankOf i b) =
          if st.mask.getLsbD b then
            { x with saved := x.pred, pred := true, b := x.b.set 15 (BitVec.ofNat 64 cause),
                     handling := x.handling || (decide (c = 1) && k.contains b),
                     deadline := x.deadline && !(decide (c = 1) && k.contains b) }
          else x) ∧
    (st.en = false → st.state ≠ .handler → c = 1 → k.Nodup → (∀ b ∈ k, b < 16) →
      t.mem = s.mem ∧ t.stream i = { st with btcause := BitVec.ofNat 32 cause } ∧
      ∀ b < 16,
        let x := s.bank (bankOf i b)
        let y := t.bank (bankOf i b)
        if b ∈ k then
          y.refb = some (x.closedBy now + 280) ∧ y.reopen = some ((List.range 4).filter x.reopens) ∧ y.deadline = false ∧
            y.debt = x.debt ∧ y.q = x.q ∧ y.b = x.b ∧ y.pred = x.pred ∧ ∀ n < 4, y.slotAt n =
              if (x.slotAt n).state = .openDirty ∧ (x.slotAt n).row ≠ 0
              then { x.slotAt n with state := .writing, due := now + 12 } else x.slotAt n
        else y = x) ∧
    (st.state = .handler ∨ st.en = false ∧ c ≠ 1 →
      (t.stream i).state = .faulted ∧ (∀ b ∈ streamBanks s i, (t.bank b).owner = none) ∧
        ∀ kk, s.kernels.get? st.kernel = some kk → kk.state = .running → ∃ k', t.kernels.get? st.kernel = some k' ∧
          k'.state = .faulted)

/-- R260: REFRESH_INTERVAL, 3,120 cycles after the last, raises the debt by one, to at most 12; past 8 a controlled bank has a deadline pending. R261: the plinth begins a REFB of an uncontrolled bank. R262: REFRESH_DEADLINE at a boundary traps, cause 1. R264: forced refresh writes back in every bank due, faults the stream and begins REFBs. R298 to R301: an ordinary access opens the window of t + 8, at whose end the stream is SUSPENDED at a row boundary, the accesses served; one to a bank no stream holds, or of a SUSPENDED or WAITING stream, is served at once; the stream goes on in the state it left. 06 R174: a hint changes nothing. R286, R293, R308: a WAITING stream whose condition is met completes its word. 14 R351, R355: a stream parks at a boundary, its banks saved and released, and all of a kernel come back in the states they left. The model's choices: a dirty row 0 is not written back (log 31), an ordinary access is an event of its own and a tower's time moves from end to end (log 19), and a resumed kernel takes the sequencers and buffer entries that it has given up again (log 36). -/
def Obligations.RefreshYieldAndParkOfBanks : Prop :=
  (∀ (s : State) (key group row : Nat),
    let x := s.bank key
    let now := (s.tower (key / 1024)).now
    let o : Ordinary := ⟨now, group, row, false⟩
    let d := x.refAt + 3120
    (key / 1024 < s.variant.towers → (x.owner = none → x.debt < 2) → s.Due (key / 1024) d →
      exec (.refreshInterval key) s = .next ((reach s (key / 1024) d).setBank key
        { x with debt := min 12 (x.debt + 1), refAt := d, deadline := x.deadline || (x.owner.isSome && decide (x.debt = 8)),
                 forced := x.forced || (x.owner.isSome && decide (x.debt = 11)) })) ∧
    (x.owner = none → 0 < x.debt → x.refb = none → x.allClosed = true →
      exec (.plinthRefresh key) s = .next (s.setBank key { x with refb := some (now + 280) })) ∧
    exec (.activateHint key group row) s = .next s ∧
    (∀ i, x.owner = some i → x.forced = true → i / 256 = key / 1024 → i % 256 / 4 = key % 1024 / 16 →
      let st := s.stream i
      let due := (streamBanks s i).filter fun b => (s.bank b).forced
      let mask := groupMask st.bound (due.map (· % 16))
      (∀ b ∈ due, (s.bank b).dues = []) → st.state ≠ .suspended → (st.sweeping = true → rowBoundary s i st = true) →
      (∀ e ∈ ends s (i / 256), now < e) → ∃ t,
      exec (.forcedRefresh key) s = .next t ∧ t = streamFault s i 1 mask ∧ (t.stream i).state = .faulted ∧
        (∀ b ∈ streamBanks s i, (t.bank b).owner = none) ∧
        (∀ b ∈ due, (t.bank b).debt = (s.bank b).debt ∧ (t.bank b).forced = true ∧
          (t.bank b).refb = some ((s.bank b).closedBy now + 280)) ∧
        (streamBanks s i = [key] → t.mem = (streamFault (flushBank s key) i 1 mask).mem) ∧
        (flushBank s key).mem = ((List.range 4).foldl (fun (u : State) n =>
          let y := x.slotAt n
          if y.state = .openDirty ∧ y.row ≠ 0 then rowWrite u key n y.row y.bits y.bad else u) s).mem) ∧
    (row ≠ 0 → row < 3072 → group < 4 → bankLive s key = true →
      (x.owner = none → exec (.ordinaryAccess key group row) s = .next (serveClosed s key o now)) ∧
      (∀ i, x.owner = some i →
        ((s.stream i).state = .running ∨ (s.stream i).state = .handler → exec (.ordinaryAccess key group row) s =
          .next ((s.setBank key { x with waiting := x.waiting ++ [o] }).modStream i fun st =>
            { st with window := some (st.window.getD (now + 8)) })) ∧
        ((s.stream i).state = .suspended → exec (.ordinaryAccess key group row) s =
          .next (yieldsTo ((serve s key o now).1.modStream i fun st =>
            { st with yieldDue := max st.yieldDue (serve s key o now).2 }) (key / 1024) now)) ∧
        ((s.stream i).state = .waiting → exec (.ordinaryAccess key group row) s =
          .next (yieldsTo ((serve s key o now).1.modStream i fun st =>
            { st with readyAt := max st.readyAt (serve s key o now).2 }) (key / 1024) now)))) ∧
    -- what a yield plans in a CLOSED slot, in an open one that holds the row, and in any other (R299)
    (group < 4 → ∀ c,
      let u := serveFrom s key o c
      let y := (x.settled group).1
      let plans (l : List YieldStep) : Prop := u.1.mem = s.mem ∧ (u.1.bank key).slot = x.slot ∧ (u.1.bank key).plan = x.plan ++ l
      ((x.settled group).2 = none → ∀ a, actEarliest s key c false = some a →
        u.2.1 = a + 28 + 12 ∧ plans [⟨a, group, .activate row⟩, ⟨a + 28, group, .shut y⟩]) ∧
      ((x.settled group).2 = some false → y.row = row → u.2.1 = c ∧ plans []) ∧
      (∀ dirty, (x.settled group).2 = some dirty → dirty = true ∨ y.row ≠ row →
        let p := max (if dirty then c + 12 else c) (y.actAt + 28)
        ∀ a, actEarliest s key (p + 12) false = some a → ∃ r, a + 40 ≤ r ∧
          plans [⟨p, group, .precharge⟩, ⟨a, group, .activate row⟩, ⟨a + 28, group, .precharge⟩,
            ⟨r, group, .restore { y with actAt := r } dirty⟩] ∧
          u.2.1 = r + 16 + (if dirty then 12 else 0) ∧
          (u.1.bank key).yieldCopies = x.yieldCopies ++
            if dirty then [(c + 12, group, false), (r + 28, group, true)] else []))) ∧
  (∀ (s : State) (i : Nat),
    let st := s.stream i
    let now := (s.tower (i / 256)).now
    let c := streamNow s i st
    (deadlineReady s i st = true →
      exec (.refreshDeadline i) s = .next (bankTrap s i 1 (deadlineBanks s st i))) ∧
    (∀ e, st.window = some e → yieldReady s i st = true →
      let t0 := max now (e + 1)
      s.Due (i / 256) t0 →
      ∃ t, exec (.streamYield i) s = .next t ∧ t.mem = s.mem ∧ (t.stream i).window = none ∧
        (∀ b ∈ streamBanks s i, (t.bank b).waiting = []) ∧
        (st.state ≠ .waiting → (t.stream i).state = .suspended ∧ (t.stream i).left = st.state ∧
          (t.stream i).yieldDue = (serveAll (reach s (i / 256) t0) i t0).2) ∧
        (st.state = .waiting → (t.stream i).state = .waiting)) ∧
    (st.state = .suspended → (∀ b ∈ streamBanks s i, (s.bank b).plan = [] ∧ (s.bank b).yieldCopies = [] ∧
        ∀ d ∈ (s.bank b).dues, st.yieldDue < d) →
      s.Due (i / 256) st.yieldDue →
      ∃ t, exec (.yieldEnd i) s = .next t ∧ t.banks = s.banks ∧ t.mem = s.mem ∧
        t.stream i = { st with state := st.left, readyAt := max st.readyAt st.yieldDue, held := false }) ∧
    (∀ w : BWord, st.state = .waiting → mayAct s i st c false = true → s.NoStep (i / 256) c →
      deadlineReady s i st = false → st.left = .running →
      (∀ e rest, st.word.map decodeBank = some (.ok (.bjoin w)) → st.split = e :: rest → e.kind = .alone →
        ∃ t, exec (.streamWake i) s = .next t ∧ t.mem = s.mem ∧ t.stream i =
          { st.wordDone (st.pos + 1) c with state := .running, mask := e.part, split := rest, waitFor := none } ∧
          ∀ b < 16, t.bank (bankOf i b) = (if e.part.getLsbD b then { s.bank (bankOf i b) with pred := e.preds.getLsbD b }
            else s.bank (bankOf i b))) ∧
      (∀ lead k v, st.word.map decodeBank = some (.ok (.bwaitt w)) → (bankList st.mask).head? = some lead →
        s.kernels.get? st.kernel = some k →
        let h := (bRead s st i lead w.bs1).toNat
        let n := (bRead s st i lead w.bs2).toNat
        h < 2 ^ 16 → (h / 4096 = 0 ∨ h / 4096 = 1 ∨ h / 4096 = 3 ∨ h / 4096 = 4) →
        waitView s k.ctx none h st.waitFor = some v →
        ((∀ f ∈ v.faulted, n < f) → n ≤ v.mark → ∃ t, exec (.streamWake i) s = .next t ∧ t.banks = s.banks ∧ t.mem = s.mem ∧
          t.stream i = { st.wordDone (st.pos + 1) c with state := .running, waitFor := none }) ∧
        ((∃ f ∈ v.faulted, f ≤ n) → exec (.streamWake i) s =
          .next (streamFault (reach s (i / 256) c) i 0x8C (groupMask st.bound [lead]))))) ∧
    (∀ k cx o, streamParkReady s i st = true → s.kernels.get? st.kernel = some k → s.ctxs.get? k.ctx = some cx →
      st.record = some o → ∃ t, exec (.streamPark i) s = .next t ∧ (t.stream i).state = .parked ∧
        (t.stream i).kept = st.state ∧ (t.stream i).preempt = false ∧
        (t.stream i).saved = (streamBanks s i).map (fun b => (b, (settleBank s b).bank b)) ∧
        ∀ b ∈ streamBanks s i, (t.bank b).owner = none) ∧
    (∀ k cx, s.kernels.get? st.kernel = some k → s.ctxs.get? k.ctx = some cx → st.state = .parked →
      schedulerPaused s = false → (cx.state = .runnable ∨ cx.state = .resident) → streamsReady s k = true →
      -- with the sequencers and the buffer entries that it has given up
      let u := takeBuf (k.streams.foldl takeSeq s) st.kernel
      let back := ((u.kernels.get? st.kernel).getD k).streams.filter fun j => (u.stream j).state == .parked
      (back.flatMap fun j => (u.stream j).saved.map (·.1)).Nodup →
      ∃ t, exec (.streamResume i) s = .next t ∧ (∃ cx', t.ctxs.get? k.ctx = some cx' ∧ cx'.state = .resident) ∧
        ∀ j ∈ back, (t.stream j).state = (u.stream j).kept ∧ (t.stream j).swc = (u.stream j).swc ∧
          (t.stream j).bpc = (u.stream j).bpc ∧ ∀ p ∈ (u.stream j).saved,
            let y := t.bank p.1
            y.owner = some j ∧ y.b = p.2.b ∧ y.q = p.2.q ∧ y.pred = p.2.pred ∧ y.debt = (u.bank p.1).debt ∧
              ∀ n < 4, if p.2.isOpen n then (y.slotAt n).state = (p.2.slotAt n).state ∧ (y.slotAt n).row = (p.2.slotAt n).row ∧
                  ((p.2.slotAt n).state = .openDirty → (y.slotAt n).bits = (p.2.slotAt n).bits)
                else (y.slotAt n).state = .closed))

/-- 04 R100: HART_WAKE completes, or traps, a waiting TLWAIT, BWAIT, GSYNC or WAITE whose condition has come, where no PREEMPT comes first, makes a hart that waited for a peer issue again, and a sequencer once the array is free; HART_UNSTALL makes a STALLED hart READY. R116, R117, 14 R349: PREEMPT at its boundary saves pc and cause 0x115 in the S copies, goes to S.TVEC at S with IE 0, the gathers delivered, and brings the request into service with every v register full. 14 R351: CORE_RECORD_SAVE writes the record of a core, and the last makes the group PARKED off its cores. 14 R355: HART_RESUME binds a PARKED member at its resume entry on its new place, at S. 06 R168, R169: GATHER_DELIVERED fills the register with what the gather read, or fails it at its first uncorrectable element. The model's choices: the SRD instructions in flight that PREEMPT stops, and those held through a service (log 23), and the stream registers and failed addresses kept beside the record (log 35). -/
def Obligations.HartStepsComplete : Prop :=
  ∀ (s : State) (k : Nat),
    let h := s.hart k
    let u : State := { s with cur := some (.hart k) }
    (h.life = .stalled → exec (.hartUnstall k) s = .next (s.setHart k { h with life := .ready })) ∧
    -- TLWAIT
    (∀ a b sc v, h.life = .waiting → h.latched = some (.tlwait a b sc) → (h.rd a).toNat < 2 ^ 16 →
      waitView s (s.ctxOf h) ((s.groupOf h).map (·.1)) (h.rd a).toNat h.waitFor = some v → s.preemptFirst k h = false →
      ((∀ f ∈ v.faulted, (h.rd b).toNat < f) → (h.rd b).toNat ≤ v.mark → exec (.hartWake k) s = .next (s.advanced k)) ∧
      ((∃ f ∈ v.faulted, f ≤ (h.rd b).toNat) →
        exec (.hartWake k) s = .next (if s.trapWaits k 12 then s else s.trapped k 12 (h.rd a) (h.rd b)))) ∧
    -- GSYNC
    (∀ id sc g kk ph, h.life = .waiting → h.latched = some (.gsync id sc) → isSeqPlace k = false → sc ≠ 0 →
      s.groupOf h = some (g, kk) → (sc.toNat < 3 ∨ kk.coside = true) →
      let key := gbarKey sc.toNat id.toNat ((g.cores.findIdx? (· == k / 9)).getD 0) (k / 9 / 64)
      h.arrived.get? key.1 = some ph → (gbarGet g kk key).phase ≠ ph →
      exec (.hartWake k) s = .next (s.after k { h with arrived := h.arrived.erase key.1 } (h.pc + 4))) ∧
    -- WAITE
    (∀ d a l m, h.life = .waiting → h.latched = some (.waite d a) → hartAddr u h (h.rd a) 1 .load 0 = .ok l →
      h.monitor = some m → m.line = homeKey u l.pa / 64 → s.preemptFirst k h = false →
      exec (.hartWake k) s = .next { (podUsed u l.pa).wrote k d (if m.seen then 0 else 1) with cur := s.cur }) ∧
    -- BWAIT on an object of this package
    (∀ a sc pa, h.life = .waiting → h.latched = some (.bwait a sc) → h.waitObj = some pa → pa < 2 ^ 50 →
      barAddr u h (BitVec.ofNat 64 (bitsAt (h.rd a).toNat 0 43 * 32)) .barRead (.read 32) = .ok pa → s.preemptFirst k h = false →
      ((barRead u pa).staleFor (h.rd a) = true →
        exec (.hartWake k) s = .next (if s.trapWaits k 14 then s else { u.trapped k 14 (h.rd a) 0 with cur := s.cur })) ∧
      ((barRead u pa).staleFor (h.rd a) = false → (barRead u pa).doneFor (h.rd a) = true →
        exec (.hartWake k) s = .next { (podUsed u pa).advanced k with cur := s.cur })) ∧
    -- a hart that waited for a peer, and a sequencer that waited for the array
    (h.life = .waiting → h.latched = none →
      ((∃ p ∈ s.pod, p.by_ = 4 * k ∧ p.answer.isSome) ∨ (isSeqPlace k = true ∧ (s.core (k / 9)).job = none)) →
      exec (.hartWake k) s = .next (s.setHart k { h with life := .ready })) ∧
    (preemptReady s k h = true → h.tdeleg.getLsbD 21 = false → ∃ t, exec (.preempt k) s = .next t ∧
      (let g := t.hart k
       let d := h.deliverAll.stopReads
       g.pc = h.s.tvec ∧ g.s = { h.s with tepc := d.pc, tcause := 0x115, tval := 0, tval2 := 0 } ∧ g.u = h.u ∧
       g.tstat = { h.tstat with pprv := h.tstat.prv, pie := h.tstat.ie, ie := false, prv := true } ∧ g.service = true ∧
       g.full = BitVec.allOnes 32 ∧ g.failed = [] ∧ g.emptyAt = ~~~d.undrained ∧ g.failedAt = d.failed ∧ g.gathers = [] ∧
       g.reads = d.reads ∧ g.readsHeld = true ∧ g.monitor = none ∧ g.x = h.x ∧ g.life = .ready) ∧ t.mem = s.mem) ∧
    (∀ vd g, h.gathers.find? (fun g => g.vd == vd) = some g → vd < 32 →
      let r := h.deliver g
      let bits := r.v.toList.getD vd 0
      exec (.gatherDelivered k vd) s =
        .next (s.setHart k { r with gathers := h.gathers.filter fun g => g.vd != vd }) ∧
      ((g.elems.map (·.idx)).Nodup → ∀ e ∈ g.elems, g.width * (e.idx + 1) ≤ 16384 → (∀ b, g.bad = some b → e.idx < b.1) →
        getField bits (g.width * e.idx) g.width = e.bits % 2 ^ g.width) ∧
      (g.bad = none → r.full.getLsbD vd = true ∧ r.failed = h.failed) ∧
      (∀ i va, g.bad = some (i, va) → r.failed.get? vd = some (va, i) ∧ r.full = h.full ∧
        ∀ j < 16384, g.width * i ≤ j → bits.getLsbD j = false)) ∧
    (∀ gid core g kk slot o cx, s.groups.get? gid = some g → s.kernels.get? g.kernel = some kk →
      g.cores.findIdx? (· == core) = some slot → g.records.get? slot = some o → s.ctxs.get? kk.ctx = some cx →
      g.state = .parking → g.allParked = true → slot ∉ g.written → xferInto s kk.ctx g.cores = false →
      ∃ t g', exec (.coreRecordSave gid core) s = .next t ∧ t.groups.get? gid = some g' ∧
        t.mem = (writeCore s gid slot core (cx.parkbase + o) false).mem ∧
        (g.written.length + 1 = g.cores.length → kk.state = .running → g'.state = .parked ∧ g'.cores = []) ∧
        (g.written.length + 1 = g.cores.length → kk.state ≠ .running → g'.state = .ended ∧ g'.cores = []) ∧
        (g.written.length + 1 ≠ g.cores.length → g'.state = .parking ∧ g'.written = g.written ++ [slot])) ∧
    (∀ gid n core g kk m cx, s.groups.get? gid = some g → s.kernels.get? g.kernel = some kk →
      g.members.get? n = some m → s.ctxs.get? kk.ctx = some cx → m.at_ = .parked → kk.state = .running →
      schedulerPaused s = false → (cx.state = .runnable ∨ cx.state = .resident) →
      let pa := cx.parkbase + m.parkAt.getD 0
      let rel := decide (n < 64) && recordRel s pa
      let own := m.slotOf n kk.perCore
      let ok (l : List Nat) : Bool := if rel then l.contains core else l[own]? == some core
      -- the cores: those reserved, or with the first member those now chosen
      ∀ u cores place grant,
        (g.state = .binding ∧ u = s ∧ cores = g.placing.map (·.2) ∨
          g.state = .parked ∧ resumeCores s g kk core ok = some cores ∧
            reserveSiblings (reserveCores s gid cores) gid g kk = some u) → ok cores = true →
        placeAgain u g kk n m core ((cores.findIdx? (· == core)).getD own) (grantsAgain u kk pa) = some (place, grant) →
        ∃ t, exec (.hartResume gid n core) s = .next t ∧
        (let h := t.hart place
         h.pc = cx.resume &&& ~~~3 ∧ h.tstat = { prv := true, uie := true } ∧ h.s.tvec = cx.stvec &&& ~~~3 ∧ h.group = gid ∧
         h.index = (if n < 64 then n else 0) ∧ h.rd 1 = cx.parkva + BitVec.ofNat 64 (m.parkAt.getD 0) ∧
         h.rd 2 = boolWord (bitsAt (physRead u pa 8) 2 1 == 1) ∧ h.vgrant = grant ∧ h.vstate = .off ∧
         ~~~h.full = BitVec.ofNat 32 (physRead u (pa + 0x10) 8 % 2 ^ 32) ∧ h.failed = m.failed ∧ h.st = m.st ∧ h.reads = m.reads ∧ h.readsHeld = true))

/-- 15 R365, R366, 16 R373, R374: a readable record that passes its checks, with no dependence unmet, leaves the ring as a RUNNING kernel with the next number, a bank kernel with its code copied and, where there is room, its streams bound; one that fails a check, or waits on a faulted number, becomes a FAULTED kernel. 15 R368, 16 R376, 17 R380: a tile of the queue whose turn it is (all of a COSIDE kernel), placed on free cores of a quad, becomes a RUNNING group whose harts are READY at the entry with their index in x14. R369: aging marks the queue. 14 R348, 15 R370: a group on a hot column, of a FAULTED context, or in the way of higher priority is asked to park, and so is a bank kernel. 16 R377: a kernel whose members have ended is COMPLETE, a faulted one whose record is consumed SKIPPED, its number ended. 16 R378: a tile on failed hardware is placed again if its kernel is replayable and it has been fewer than two times, and else its kernel faults with reason 3. The model's choices: a bank kernel is admitted whatever its banks and bound by TILE_PLACEMENT where it has no room yet (log 33), which queue and which victim come next (log 36), and what admission does with a ring that cannot be read (log 44). -/
def Obligations.SchedulerStepsComplete : Prop :=
  ∀ (s : State),
    (∀ c qn cx q, s.ctxs.get? c = some cx → cx.queues.get? qn = some q →
      (let q' := lookAgain s c qn q
       let u0 := s.setCtx c { cx with queues := cx.queues.set qn q' }
       -- a queue that has run out amid its turn passes it
       let u := if q.turn ≠ 0 ∧ nextTile u0 c qn = none then passTurn u0 (c, qn) else u0
       let k := (headKernel u c qn q').1
       let taken (t : State) (n : BitVec 64) : Prop := ∃ cx' x, t.ctxs.get? c = some cx' ∧ cx'.queues.get? qn = some x ∧
         x.rd = (q'.rd + 1) % q'.size ∧ x.base = q.base + 1 ∧ x.admitted = n
       let faults (t : State) : Prop := ∃ k', t.kernels.get? s.fresh = some k' ∧ k'.state = .faulted ∧ k'.num = q.base + 1
       q.state = .active → schedulerPaused s = false → q'.rd ≠ q'.wr →
       ((headKernel u c qn q').2 = false → ∃ t, exec (.kernelAdmission c qn) s = .next t ∧ faults t) ∧
       ((headKernel u c qn q').2 = true →
         (k.faultedWait u q'.waits ≠ none → ∃ t, exec (.kernelAdmission c qn) s = .next t ∧ faults t) ∧
         (k.faultedWait u q'.waits = none → k.unmet u q'.waits = true → (q'.wr ≠ q.wr ∨ q'.waits ≠ q.waits) →
           exec (.kernelAdmission c qn) s = .next u) ∧
         (k.faultedWait u q'.waits = none → k.unmet u q'.waits = false →
           ((k.badWait u = true ∨ recordOk k = false ∨ k.isBank = false ∧ hartRecordOk u k = false ∨
               k.isBank = true ∧ remapHolds u k = false ∧ bankRecordOk u k = false) →
             ∃ t, exec (.kernelAdmission c qn) s = .next t ∧ faults t) ∧
           (k.badWait u = false → recordOk k = true →
             (k.isBank = true → remapHolds u k = true → (q'.wr ≠ q.wr ∨ q'.waits ≠ q.waits) →
               exec (.kernelAdmission c qn) s = .next u) ∧
             (k.isBank = false → hartRecordOk u k = true → ∃ t, exec (.kernelAdmission c qn) s = .next t ∧
               taken t (q.admitted + 1) ∧ ∃ k', t.kernels.get? s.fresh = some k' ∧ k'.num = q.base + 1 ∧
                 k'.record = k.record ∧ k'.state = if k.tiles = 0 then .complete else .running) ∧
             (∀ code pas, k.isBank = true → bankRecordOk u k = true → remapHolds u k = false →
               copyCode u (codeWho c qn) c k.prv (BitVec.ofNat 64 (recField k 0x88 0 64)) k.codeLen = .ok (code, pas) →
               ∃ t, exec (.kernelAdmission c qn) s = .next t ∧ taken t (q.admitted + 1) ∧
                 ∃ k', t.kernels.get? s.fresh = some k' ∧ k'.num = q.base + 1 ∧ k'.state = .running ∧ k'.code = code ∧
                 ∀ d ∈ k.streamDecls.zip k'.streams, (t.stream d.2).state = .running ∧ (t.stream d.2).kernel = s.fresh ∧
                   (t.stream d.2).mask = d.1.2.2 ∧ (t.stream d.2).bpc = BitVec.ofNat 9 (recField k 0x90 0 9) ∧
                   (t.stream d.2).mark = 0))))) ∧
      (q.starve ≠ 0 → q.aged = false → placeable cx q = true → nextTile s c qn ≠ none →
        exec (.queueAging c qn) s =
          .next (s.setCtx c { cx with queues := cx.queues.set qn { q with aged := true } })) ∧
      (∀ tr k cores, nextQueue s = some (c, qn) → schedulerPaused s = false → tileFits s c qn = some (tr, k) →
        k.isBank = false →
        let n := tr.count k
        let parts := chunks k.hosting n cores
        let starts (t : State) (gid tile : Nat) (l : List Nat) : Prop :=
          (∃ g, t.groups.get? gid = some g ∧ g.kernel = tr.kid ∧ g.tile = tile ∧ g.cores = l ∧ g.state = .running) ∧
          (∀ i < k.gsize,
            let h := t.hart (9 * l.getD (i / k.perCore) 0 + i % k.perCore)
            h.pc = BitVec.ofNat 64 k.entry &&& ~~~3 ∧ h.life = .ready ∧ h.group = gid ∧ h.rd 14 = BitVec.ofNat 64 i ∧
              h.rd 16 = BitVec.ofNat 64 k.arg ∧ h.tstat.prv = false ∧ h.vgrant = k.vlen) ∧
          (k.seqEntry ≠ 0 → ∀ x ∈ l, (t.hart (9 * x + 8)).pc = BitVec.ofNat 64 k.seqEntry &&& ~~~3 ∧
            (t.hart (9 * x + 8)).life = .ready) ∧ ∀ x ∈ l, (t.core x).acc = Vector.replicate 4 0
        cores.length = n * k.hosting → cores.eraseDups.length = cores.length →
        (∀ l ∈ parts, coresOk s (tr.want k) k.hosting (tr.avoid s) l = true) →
        (tr.gid = none → ∃ t, exec (.tilePlacement c qn cores) s = .next t ∧
          ∀ p < n, starts t (s.fresh + 2 * p) (tr.tile + p) (parts.getD p [])) ∧
        (∀ gid g, tr.gid = some gid → s.groups.get? gid = some g → g.tile = tr.tile →
          ∃ t, exec (.tilePlacement c qn cores) s = .next t ∧ starts t gid tr.tile cores)) ∧
      (∀ tr k seqs buf, nextQueue s = some (c, qn) → schedulerPaused s = false → tileFits s c qn = some (tr, k) →
        k.isBank = true → bankRoom s k = some (seqs, buf) →
        exec (.tilePlacement c qn []) s = .next (turnTaken (bindStreams s tr.kid k seqs buf) c qn 1))) ∧
    (∀ kid k, s.kernels.get? kid = some k →
      (let ends (t : State) : Prop := ∀ cx q, s.ctxs.get? k.ctx = some cx → cx.queues.get? k.queue = some q →
         ∃ cx' q', t.ctxs.get? k.ctx = some cx' ∧ cx'.queues.get? k.queue = some q' ∧ q'.line = q.line.endNum k.num
       (k.state = .running → kernelDone s kid k = true → ∃ t k', exec (.kernelComplete kid) s = .next t ∧
         t.kernels.get? kid = some k' ∧ k'.state = .complete ∧ ends t) ∧
       (k.state = .faulted → consumed s k = true → ∃ t k', exec (.kernelSkipped kid) s = .next t ∧
         t.kernels.get? kid = some k' ∧ k'.state = .skipped ∧ t.mem = s.mem ∧ ends t)) ∧
      (∀ s', s.groups.get? kid = none → k.isBank = true → k.state = .running →
        (∀ i ∈ k.streams, (s.stream i).preempt = false) →
        (∃ i ∈ k.streams, (s.stream i).isLive = true ∧ (s.stream i).kernel = kid ∧ (s.stream i).state ≠ .parked) →
        reserveStreams k.ctx k.streams s = some s' →
        (ctxFaulted s k.ctx = true → exec (.preemptionRequest kid) s = .next (requestStreams none s' kid)) ∧
        (∀ w, ctxFaulted s k.ctx = false → bankVictimOf s kid k = some w →
          exec (.preemptionRequest kid) s = .next (requestStreams (some w) s' kid)))) ∧
    (∀ gid g k, s.groups.get? gid = some g → s.kernels.get? g.kernel = some k →
      (∀ s', g.state = .running → reserveParking s gid = some s' →
        let asked (w : Option Want) (mig : Bool) : Prop := ∃ t, exec (.preemptionRequest gid) s = .next t ∧
          t = (parkedWith s gid).foldl (requestGroup w mig) s' ∧
          (∃ g', t.groups.get? gid = some g' ∧ g'.state = .parking ∧ g'.forWork = w ∧ g'.migrating = mig) ∧
          ∀ n m key, g.members.get? n = some m → m.at_ = .place key →
            (t.hart key).preempt = decide ((s.hart key).life ≠ .retired)
        (ctxFaulted s k.ctx = true → asked none false) ∧
        (ctxFaulted s k.ctx = false → (∃ c ∈ g.cores, hotCore s c = true) → asked none true) ∧
        (∀ w, ctxFaulted s k.ctx = false → (∀ c ∈ g.cores, hotCore s c = false) → victimOf s gid g = some w →
          asked (some w) false)) ∧
      (∀ core, g.state ≠ .ended → core ∈ g.cores →
        (∀ lost, k.replay = true → g.replays < 2 → ∃ t, exec (.tileHardwareFault gid core lost) s = .next t ∧
          (lost = true → (t.core core).lost = true) ∧
          t.groups.get? gid = some { kernel := g.kernel, tile := g.tile, replays := g.replays + 1, avoid := [core] }) ∧
        (¬(k.replay = true ∧ g.replays < 2) → exec (.tileHardwareFault gid core false) s =
          .next (kernelFault s g.kernel 3 g.tile core)))) ∧
    (∀ gid core, s.groups.get? gid = none → core < 64 * s.variant.towers → coreFree s core = true →
      exec (.tileHardwareFault gid core true) s = .next (s.setCore core { s.core core with lost := true }))

/-- Sixty-four bytes from a physical address are distinct memory bytes outside row 0 (01 R22), which a write changes. -/
def Sys2Proof.Machine.State.PlainLine (s : State) (pa : Nat) : Prop :=
  (∀ i < 64, ∃ key, physHome s (pa / 64 * 64 + i) = .mem key ∧ isRowZero key = false) ∧
  ∀ i < 64, ∀ j < 64, homeKey s (pa / 64 * 64 + i) = homeKey s (pa / 64 * 64 + j) → i = j

/-- 08 R216, R221 to R224: a QUEUED operation that need not wait for an earlier one of its channel starts RUNNING; with a register destination it holds its hart, with a free stream destination it binds the stream register. 06 R175: the bytes of the destination in the next line of memory, or in the next group of 64 bytes of registers, land as the operation's elements give them, and are counted. Once every byte has landed the operation completes: the header is written, the bytes are counted at its barrier, the number leaves the channel and its timeline ends it, the next number in turn raising the watermark. 08 R227, R228: an operation that meets a failure is faulted: its number is held in the timeline, its stream FAULTED, and a KIND 4 record with the cause, the address and the bytes landed is written. The model's choices: bytes land in destination order, a line or a group a step (log 38), and which destinations fault, and when (log 39). -/
def Obligations.TransferStepsComplete : Prop :=
  (∀ (s : State) (c chan num : Nat) (cx : Context) (op : XferOp), s.ctxs.get? c = some cx → findOp s c chan num = some op →
    let w : Shadow := op.shadow
    let who := xferWho c chan num
    let running (o : XferOp) : State := setOp s c chan { o with state := .running }
    (op.state = .queued → xferMustWait s c (cx.chan chan).ops op = false →
      (∀ pa cnt, dstHome s who c op w[1] = .ok (.plain pa cnt) → exec (.transferOpStart c chan num) s = .next (running op)) ∧
      (∀ k0 off, dstHome s who c op w[1] = .ok (.vreg k0 off) → w.hdr = false →
        let k := op.hart.getD k0
        boundAt s c k = true → isSeqPlace k = false → (s.hart k).readsHeld = false → (s.hart k).vstate ≠ .off →
        let op' := { op with hart := some k, home := if op.hart.isSome then op.home else blockOf s c op.prv w[1] }
        exec (.transferOpStart c chan num) s =
          .next (running { op' with fail := (boundBeyond s c op' k).map fun va => (cAccess, va) })) ∧
      (∀ core n, dstHome s who c op w[1] = .ok (.ingress core n 0) → w.hdr = false → w[4].toNat < 8 → n < 4 →
        let k := 9 * core + w[4].toNat
        boundAt s c k = true → ((s.hart k).strm n).state = .unbound →
        ∃ t, exec (.transferOpStart c chan num) s = .next t ∧ ((t.hart k).strm n).state = .bound ∧
          ((t.hart k).strm n).handle = BitVec.ofNat 16 chan ∧ ((t.hart k).strm n).elems = [] ∧ t.mem = s.mem ∧
          findOp t c chan num = some { op with state := .running, hart := some k, strm := some n }) ∧
      (∀ cause va, dstHome s who c op w[1] = .error (.fault cause va) →
        exec (.transferOpStart c chan num) s = .next (running { op with fail := some (cause, va) }))) ∧
    (op.state = .running → op.fail = none → op.landed < op.total →
      let va := op.dstVa (op.landed / op.rowBytes) (op.landed % op.rowBytes)
      -- a line of memory
      (∀ pa cnt bss reads, dstHome s who c op va = .ok (.plain pa cnt) → pa < 2 ^ 50 → s.PlainLine pa →
        let ps := op.linePieces (va.toNat / 64) op.landed
        let at_ (v : Word) : Nat := pa / 64 * 64 + v.toNat % 64
        xferPieceBytes s who c op ps = .ok (bss, reads) →
        ∃ t op', exec (.elementGroupLands c chan num) s = .next t ∧ findOp t c chan num = some op' ∧
          op'.landed = (op.landLine (va.toNat / 64)).landed ∧ op.landed < op'.landed ∧ op'.landed ≤ op.total ∧
          op'.ahead = (op.landLine (va.toNat / 64)).ahead ∧ op'.state = .running ∧
          (∀ pre p post i, bss = pre ++ p :: post → i < p.2.length →
            (∀ q ∈ post, ∀ j < q.2.length, at_ q.1 + j ≠ at_ p.1 + i) → physByte t (at_ p.1 + i) = p.2.getD i 0) ∧
          (s.host.acen = false → ∀ a key, physHome s a = .mem key →
            (∀ p ∈ bss, ∀ i < p.2.length, homeKey s (at_ p.1 + i) ≠ key) → physByte t a = physByte s a)) ∧
      -- registers
      (∀ k off bss reads, dstHome s who c op va = .ok (.vreg k off) →
        let ps := op.pieces 64 op.landed (64 - op.landed % 64)
        let n := (ps.map (·.2.2)).sum
        let h := s.hart k
        (∀ p ∈ ps, ∃ o, dstHome s who c op (op.dstVa p.1 p.2.1) = .ok (.vreg k o) ∧ o + p.2.2 ≤ 4 * h.vgrant) →
        xferPieceBytes s who c op ps = .ok (bss, reads) →
        ∃ t op', exec (.elementGroupLands c chan num) s = .next t ∧ findOp t c chan num = some op' ∧
          op'.landed = op.landed + n ∧ op'.state = .running ∧
          (t.hart k).v = (bss.foldl (fun h p => putVregs h (p.1.toNat % 0x1_0000) p.2) h).v ∧
          ∀ i < 32, (t.hart k).full.getLsbD i = (h.full.getLsbD i || (!stillComes op h.vgrant i (op.landed + n) &&
            ps.any fun p => (regsOf h.vgrant ((op.dstVa p.1 p.2.1).toNat % 0x1_0000) p.2.2).contains i))) ∧
      -- a stream register
      (∀ core n off k es reads, dstHome s who c op va = .ok (.ingress core n off) → n < 4 → op.bound s = some (k, n) →
        let h := s.hart k
        let g := h.strm n
        let i := 8 * (op.landed % op.rowBytes) / op.unit
        let m := min (if op.sh.dfmt = 14 then 64 else max 1 (512 / op.unit)) (op.units - i)
        (g.elems.length + m) * op.unit ≤ 131072 → h.reads = [] →
        xferElems s who c op (op.landed / op.rowBytes) i m = .ok (es, reads) →
        ∃ t op', exec (.elementGroupLands c chan num) s = .next t ∧ findOp t c chan num = some op' ∧
          op'.landed = (if i + m = op.units then (op.landed / op.rowBytes + 1) * op.rowBytes
            else op.landed / op.rowBytes * op.rowBytes + op.unit * (i + m) / 8) ∧
          (t.hart k).strm n = { g with elems := g.elems ++ es, state := if op'.landed = op.total then .ended else .bound })) ∧
    (op.state = .running → op.fail = none → op.landed = op.total →
      (∀ s1 s2, xferHead s c chan op = .ok s1 → barCount s1 who c chan num op.bytes op.prv op.bar = .ok s2 →
        exec (.transferOpComplete c chan num) s = .next (endOp s2 c chan num fun l => l.endNum num)) ∧
      (w.hdr = false → op.bar = none → ∃ t cx', exec (.transferOpComplete c chan num) s = .next t ∧
        t.mem = s.mem ∧ t.ctxs.get? c = some cx' ∧ (cx'.chan chan).line = (cx.chan chan).line.endNum num ∧
        findOp t c chan num = none) ∧
      (∀ pa cnt, w.hdr = true → op.headed = false → op.bar = none → w[1].toNat % 64 ≤ 48 → engAddr s who c op.group op.prv w[1] .store = .ok (.plain pa cnt) →
        pa < 2 ^ 50 → pa % 64 = w[1].toNat % 64 → s.PlainLine pa →
        ∃ t, exec (.transferOpComplete c chan num) s = .next t ∧ findOp t c chan num = none ∧
          ∀ i < 16, physByte t (pa + i) = (xferHeader op chan).getD i 0)) ∧
    (∀ cause va, op.state = .running ∨ (op.state = .suspended ∧ hartGone s c op = true) →
      xferFailure s c chan op = some (cause, va) →
      (op.bound s = none → exec (.transferOpFault c chan num) s =
        .next (faultRecord (endOp (s.leaveAsks who) c chan num fun l => l.fault num) c
          (record4 (4 + c * 2 ^ 16 + chan * 2 ^ 32 + cause * 2 ^ 48) num va.toNat op.landed))) ∧
      (∀ k n, op.bound s = some (k, n) → n < 4 → ∃ t, exec (.transferOpFault c chan num) s = .next t ∧
        ((t.hart k).strm n).state = .faulted ∧ ((t.hart k).strm n).elems = [] ∧ findOp t c chan num = none))) ∧
  (∀ l : Timeline, l.ended = [] → l.faulted = [] → (l.endNum (l.mark + 1)).mark = l.mark + 1)

/-- 13 R340 to R344: an operation that passes its checks is admitted with its activations, and joins, forms or awaits an entry of its weights' tower; one that fails them is faulted with a KIND 7 record. At its deadline a FORMING entry is DISPATCHED; a DISPATCHED entry computes, its weight rows read, and counted once for the batch (log 40, the model's reading of 18 R401), when none that meets its banks computes or stands ahead; at the end of computing each output of a member is the sum of the products of its activation row and a weight row, rounded as R338 gives, and the entry splits; an uncorrectable weight faults every member and frees the entry. A member that splits has its outputs written and its number ended; members that have to wait are left, and with none the entry is FREE. That a weight row unmapped since the admission faults the batch, and which translations of weights and outputs are kept, is the model's choice (log 51). -/
def Obligations.LaminationStepsComplete : Prop :=
  ∀ (s : State) (tw e : Nat),
    let x := s.tower tw
    let en := x.lam.getD e {}
    (∀ c chan num op, findLam s c chan num = some op → op.admitted = false →
      let who := lamWho c chan num
      (∀ p0 outs acts, lamAdmit s who c op = .ok (p0, outs, acts) →
        let t0 := bitsAt p0 37 3
        let y := s.tower t0
        let a : Arrival := ⟨⟨c, chan, num, op.h, op.x⟩, op.key p0, y.now + op.hold, op.prio⟩
        computePending y = false →
        ∃ t op', exec (.lamAdmission c chan num) s = .next t ∧ findLam t c chan num = some op' ∧ op'.admitted = true ∧
          op'.p0 = p0 ∧ op'.tower = t0 ∧ op'.arrival = y.now ∧ op'.acts = acts.map (·.1) ∧ op'.outs = outs ∧
          (∀ i, joinEntry y a = some i → (t.tower t0).lam.getD i {} = (y.lam.getD i {}).add a) ∧
          (∀ i, joinEntry y a = none → freeEntry y = some i →
            let en' := (t.tower t0).lam.getD i {}
            en'.members = [⟨c, chan, num, op.h, op.x⟩] ∧ en'.key = op.key p0 ∧ en'.height = op.h ∧
            en'.deadline = y.now + op.hold ∧ en'.prio = op.prio ∧
            en'.state = (if op.h = 64 then .dispatched else .forming)) ∧
          (joinEntry y a = none → freeEntry y = none → (t.tower t0).lamWait = y.lamWait ++ [a.m] ∧
            (t.tower t0).lam = y.lam)) ∧
      (∀ cause va, lamAdmit s who c op = .error (.fault cause va) →
        exec (.lamAdmission c chan num) s = .next (lamFault s c chan num cause false va op.h))) ∧
    (en.state = .forming → computePending x = false → s.Due tw en.deadline →
      ∃ t, exec (.lamDeadline tw e) s = .next t ∧ (t.tower tw).lam.getD e {} = { en with state := .dispatched } ∧
        (t.tower tw).now = max x.now en.deadline ∧ t.mem = s.mem) ∧
    (en.state = .dispatched →
      (∀ p ∈ x.lam, p.1 = e ∨ banksMeet p.2.key en.key = false ∨
        p.2.state ≠ .computing ∧ (p.2.state = .dispatched → ahead p.1 p.2 e en = false)) →
      exec (.lamComputeStart tw e) s =
        .next ((readWeights (countWeights s en) en.key).modLam tw e fun y => { y with state := .computing })) ∧
    (let banks := en.key.bankKeys.map s.bank
     en.state = .computing → badWeight s en.key = none → (∀ y ∈ banks, y.waiting = []) →
     s.Due tw ((banks.map (·.readBy)).foldl max x.now) →
     (en.members.map fun m => (m.ctx, m.chan, m.num)).Nodup →
      ∃ t, exec (.lamComputeEnd tw e) s = .next t ∧ (t.tower tw).lam.getD e {} = { en with state := .splitting } ∧
        t.mem = s.mem ∧ ∀ m ∈ en.members, ∀ op, findLam s m.ctx m.chan m.num = some op →
          ∃ op', findLam t m.ctx m.chan m.num = some op' ∧
            ∀ i < op.h, ∀ n < en.key.n, op'.result[i * en.key.n + n]? = some (lamElem op
              (((op.acts.drop (op.k * i)).take op.k).map (decodeElem op.afmt)) (weightRow s en.key n))) ∧
    (∀ n cause, en.state = .computing → computePending x = false → badWeight s en.key = some (n, cause) → ∃ t,
      exec (.lamWeightFault tw e) s = .next (freeLam t tw e) ∧
      (∀ m op, en.members = [m] → findLam s m.ctx m.chan m.num = some op →
        t = lamFault s m.ctx m.chan m.num cause true (op.rowVa n) en.height) ∧
      t = en.members.foldl (fun s m => match findLam s m.ctx m.chan m.num with
        | some op => lamFault s m.ctx m.chan m.num cause true (op.rowVa n) en.height
        | none => s) s) ∧
    (en.state = .splitting → computePending x = false →
      (∀ s1 ms, splitMembers s en.height en.members = (s1, ms) →
        (ms = [] → exec (.lamSplitComplete tw e) s = .next (freeLam s1 tw e)) ∧
        (ms ≠ [] → ms ≠ en.members ∨ s1.pod ≠ s.pod →
          exec (.lamSplitComplete tw e) s = .next (s1.modLam tw e fun y => { y with members := ms }))) ∧
      (∀ m op s1 s2, en.members = [m] → findLam s m.ctx m.chan m.num = some op →
        let who := lamWho m.ctx m.chan m.num
        let bs := op.result.flatMap fun v => toBytes (Ty.width op.ofmt / 8) v
        lamWrite who m.ctx op (bs.length / 64 + 2) 0 bs s = .ok s1 →
        barCount (setLam s1 m.ctx m.chan { op with result := [] }) who m.ctx (0x1000 + m.chan) m.num op.bytes op.prv op.bar = .ok s2 →
        exec (.lamSplitComplete tw e) s = .next (freeLam (endLam s2 m.ctx m.chan m.num fun l => l.endNum m.num) tw e))) ∧
    -- outputs within one line
    (∀ who c op f o bs pa cnt, bs ≠ [] → bs.length ≤ 64 - (op.outVa o).toNat % 64 →
      lamOutAddr s who c op (op.outVa o) = .ok (.plain pa cnt) → pa < 2 ^ 50 → pa % 64 = (op.outVa o).toNat % 64 → s.PlainLine pa →
      ∃ t, lamWrite who c op (f + 1) o bs s = .ok t ∧ ∀ i < bs.length, physByte t (pa + i) = bs.getD i 0)

/-- A command of HQCMD has ended (15 R362): HQCMD holds it with its ERR bit, and vector 0 is raised. -/
def CommandDone (s t : State) (cmd : Nat) (addr : BitVec 58) (err : Bool) : Prop :=
  t.host.hqcmd = BitVec.ofNat 64 (cmd + (if err then 8 else 0) + addr.toNat * 2 ^ 6) ∧
    t.raised.getD 0 0 = s.raised.getD 0 0 + 1

/-- 15 R362, R364, R471, 14 R346, R347: CREATE_CONTEXT of a number not in use, with a descriptor that passes its checks, makes it CREATED with the descriptor's fields; ENABLE_QUEUE makes the queue ACTIVE with its fields, its numbers continuing; DISABLE_QUEUE discards the records in the ring and leaves it DISABLED; SUSPEND_CONTEXT, with room for the records of its members, leaves it SUSPENDED; RESUME_CONTEXT leaves a SUSPENDED one RUNNABLE with the descriptor read again; CLEAR_CONTEXT_FAULT leaves a FAULTED one RESIDENT or RUNNABLE; DESTROY_CONTEXT leaves it DESTROYED; RING_NOTIFY reads WR of a host-fed queue. HQCMD then holds the command and vector 0 is raised. A command that names no such context or queue changes nothing else, and HQCMD holds it with ERR. That DISABLE_QUEUE of a host-fed queue discards up to the WR last read is the model's choice (log 44). -/
def Obligations.HostCommandsComplete : Prop :=
  ∀ (s : State) (a : BitVec 58),
    let pa := a.toNat * 64
    let rd (o n : Nat) : Nat := physRead s (pa + o) n
    let ctx (t : State) (c : Nat) (p : Context → Prop) : Prop := ∃ cx, t.ctxs.get? c = some cx ∧ p cx
    let queue (t : State) (c q : Nat) (p : Queue → Prop) : Prop := ctx t c fun cx => ∃ x, cx.queues.get? q = some x ∧ p x
    let refused (cmd : Nat) (i : Instr) : Prop := ∃ t, exec i s = .next t ∧ CommandDone s t cmd a true ∧ t.mem = s.mem ∧
      t.ctxs = s.ctxs ∧ t.harts = s.harts ∧ t.groups = s.groups ∧ t.kernels = s.kernels
    (∀ fq, (∀ c, s.ctxs.get? (rd 0 2) = some c → c.state = .destroyed) → descriptorOk s pa = true → rd 8 8 % 2 ^ 18 = 0 →
      rd 0x10 8 % 2 ^ 20 = 0 → rd 0x18 8 ≠ 0 → rd 0x18 8 % 2 ^ 20 = 0 → rd 0x28 4 = 2 ^ fq → 3 ≤ fq → fq ≤ 20 →
      ∃ t, exec (.createContext a) s = .next t ∧ CommandDone s t 0 a false ∧ ctx t (rd 0 2) fun cx =>
        cx.state = .created ∧ cx.desc = pa ∧ cx.ptroot = rd 8 8 ∧ cx.parkbase = rd 0x10 8 ∧ cx.parksize = rd 0x18 8 ∧
        cx.fqsize = rd 0x28 4 ∧ cx.queues = []) ∧
    (let qn := rd 0 8 % 2 ^ 16
     let c := rd 0 8 / 2 ^ 16 % 2 ^ 16
     ∀ cx, s.ctxs.get? c = some cx → enableOk cx (cx.queues.get? qn) (rd 0x10 8 % 2 ^ 32) (rd 0x10 8 / 2 ^ 32 % 2 ^ 16)
         (rd 8 8) = true →
       ∃ t, exec (.enableQueue a) s = .next t ∧ CommandDone s t 1 a false ∧ queue t c qn fun q =>
         q.state = .active ∧ q.desc = pa ∧ q.ring = rd 8 8 ∧ q.size = rd 0x10 8 % 2 ^ 32 ∧ q.rd = 0 ∧ q.wr = 0 ∧
         q.prio = rd 0 8 / 2 ^ 32 % 8 ∧ q.base = (cx.queues.getD qn {}).base ∧ q.line = (cx.queues.getD qn {}).line) ∧
    (∀ c qn q, queueAt s pa = some (c, qn, q) →
      (∃ t, exec (.disableQueue a) s = .next t ∧ CommandDone s t 2 a false ∧ queue t c qn fun q' =>
        q'.state = .disabled ∧ q'.rd = q'.wr ∧ q'.base = q.base + q.held) ∧
      (q.feed = false → ∃ t, exec (.ringNotify a) s = .next t ∧ CommandDone s t 7 a false ∧ t.mem = s.mem ∧
        queue t c qn fun q' => q' = { q with wr := physRead s (q.desc + 0x24) 4 % q.size })) ∧
    (∀ c cx, ctxAt s pa = some (c, cx) →
      (cx.state = .runnable ∨ cx.state = .resident → ∀ s', reserveCtx ((ctxGroups s c).foldl unbindGroup s) c = some s' →
        ∃ t, exec (.suspendContext a) s = .next t ∧ CommandDone s t 3 a false ∧ ctx t c fun x => x.state = .suspended) ∧
      (cx.state = .suspended → ∃ t, exec (.resumeContext a) s = .next t ∧ CommandDone s t 4 a false ∧ ctx t c fun x =>
        x.state = .runnable ∧ x.ptroot = physRead s (cx.desc + 8) 8 ∧ x.resume = BitVec.ofNat 64 (physRead s (cx.desc + 0x38) 8)) ∧
      (cx.state = .faulted → ∃ t, exec (.clearContextFault a) s = .next t ∧ CommandDone s t 5 a false ∧
        ctx t c fun x => x.state = .resident ∨ x.state = .runnable) ∧
      (∃ t, exec (.destroyContext a) s = .next t ∧ CommandDone s t 6 a false ∧
        ctx t c fun x => x.state = .destroyed ∧ x.xfer = [] ∧ x.lam = [])) ∧
    (queueAt s pa = none → refused 2 (.disableQueue a) ∧ refused 7 (.ringNotify a)) ∧
    (ctxAt s pa = none → refused 3 (.suspendContext a) ∧ refused 4 (.resumeContext a) ∧ refused 5 (.clearContextFault a) ∧
      refused 6 (.destroyContext a))

/-- 18 R400 to R405, 19 R406 to R408: TLBINV of a context clears DONE and TLBINV_DONE, when every access by what it dropped has been performed, sets it and raises vector 0; one of no context sets ERR. That what has to be performed is the requests to peers and the batches that have not read their weights, since every other access performs at the step that translates it, is the model's (log 6). ACCTR selects or clears the counter of its frame. A remap write starts a step with MOVING set, or sets ERR; REMAP_DONE sets the floor, or retires the bank once no stream holds it, clears MOVING and raises vector 0. HOSTERR clears. PODID is written while no port is linked. A BAR2 read gives the bytes, all ones where nothing is mapped, and notes it in HOSTERR; a BAR2 write stores them. A register write stores the RW fields of its register; HQCMD, TLBVA, TLBINV and PODID read their fields, an offset not listed reads zero, and so does every management register while the management component is committed (20 R427). -/
def Obligations.HostRegistersAndBar2 : Prop :=
  ∀ (s : State),
    let h := s.host
    let irq (t : State) (v : Nat) : Prop := t.raised.getD v 0 = s.raised.getD v 0 + 1
    let put (off : Nat) (v : Word) (h' : HostRegs) : Prop := exec (.registerWrite false off v) s = .next { s with host := h' }
    (∀ c cx, h.tlbdone = true → s.ctxs.get? c.toNat = some cx → cx.state ≠ .destroyed →
      (∃ t, exec (.tlbinvVa c) s = .next t ∧
        t.host = { h with tlbctx := c, tlball := false, tlberr := false, tlbdone := false } ∧ t.mem = s.mem) ∧
      (∃ t, exec (.tlbinvAll c) s = .next t ∧
        t.host = { h with tlbctx := c, tlball := true, tlberr := false, tlbdone := false } ∧ t.mem = s.mem)) ∧
    (∀ c, h.tlbdone = true → s.ctxs.get? c.toNat = none → ∃ t, exec (.tlbinvVa c) s = .next t ∧ t.host.tlberr = true ∧
      t.host.tlbdone = true ∧ irq t 0 ∧ t.ctxs = s.ctxs) ∧
    (h.tlbdone = false →
      ((∀ p ∈ s.pod, p.dropped = true → p.answer ≠ none) →
        (∀ p ∈ s.ctxs, ∀ q ∈ p.2.lam, ∀ o ∈ q.2.ops, o.dropped = false) →
        ∃ t, exec .tlbinvDone s = .next t ∧ t.host = { h with tlbdone := true, pending := t.host.pending } ∧
          (h.masked 0 = false → t.host.pending = h.pending) ∧ irq t 0) ∧
      (droppedWaits s = true → exec .tlbinvDone s = .next s)) ∧
    exec .acctrSelect s = .next { s with host := { h with acclear := false, account := s.counters.getD h.acfrm.toNat 0 } } ∧
    (∃ t, exec .acctrClear s = .next t ∧ t.counters.get? h.acfrm.toNat = none ∧
      ∀ f, f ≠ h.acfrm.toNat → t.counters.get? f = s.counters.get? f) ∧
    (∀ (tw : BitVec 3) (pc : BitVec 6) (b : BitVec 4), h.remapBusy = false →
      (tw.toNat < s.variant.towers → (s.tower tw.toNat).isLive pc.toNat b.toNat = true → 1 < (s.tower tw.toNat).live →
        ∃ t, exec (.remapRetireBank tw pc b) s = .next t ∧ t.host.remapBusy = true ∧ (t.tower tw.toNat).moving = true ∧
          t.mem = s.mem) ∧
      ((s.tower tw.toNat).isLive pc.toNat b.toNat = false → ∃ t, exec (.remapRetireBank tw pc b) s = .next t ∧
        t.host.remapErr = true ∧ t.host.remapBusy = false ∧ irq t 0 ∧ t.towers = s.towers)) ∧
    (∀ (tw : BitVec 3) (f : BitVec 12), h.remapBusy = false → tw.toNat < s.variant.towers → 1 ≤ f.toNat → f.toNat ≤ 3072 →
      heldBelow s tw.toNat f.toNat = false → ∃ t, exec (.remapSetFloor tw f) s = .next t ∧ t.host.remapBusy = true ∧
        (t.tower tw.toNat).moving = true ∧ t.mem = s.mem) ∧
    (h.remapBusy = true →
      let w := h.remap.toNat
      let x := s.tower (w % 8)
      (bitsAt w 3 1 = 1 → ∃ t, exec .remapDone s = .next t ∧ t.tower (w % 8) =
        { x with floor := bitsAt w 14 12, moving := false } ∧ t.host.remapBusy = false ∧ irq t 0 ∧ t.mem = s.mem) ∧
      (bitsAt w 3 1 = 0 → (s.bank (1024 * (w % 8) + 16 * bitsAt w 4 6 + bitsAt w 10 4)).owner = none →
        ∃ t, exec .remapDone s = .next t ∧ (t.tower (w % 8)).moving = false ∧ t.host.remapBusy = false ∧ irq t 0 ∧
          (t.tower (w % 8)).retired = insertNat x.retired (64 * bitsAt w 10 4 + bitsAt w 4 6))) ∧
    exec .hosterrClear s = .next { s with host := { h with unmapped := false } } ∧
    (∀ v, (∀ p ∈ s.ulports, p.2.linked = false) →
      exec (.podidWrite v) s = .next { s with host := { h with podid := v.extractLsb' 0 12 } }) ∧
    (∀ addr len, addr + len ≤ 2 ^ 40 → ∃ t, exec (.hostBar2Read addr len) s = .next t ∧ t.mem = s.mem ∧
      t.hostData.length = len ∧ (∀ i < len, (physHome s (addr + i) = .none → t.hostData[i]? = some 0xFF) ∧
        (physHome s (addr + i) ≠ .none → uncorrectable s (addr + i) 1 = false →
          t.hostData[i]? = some (physByte s (addr + i)))) ∧
      t.host.unmapped = (h.unmapped || anyUnmapped s addr len)) ∧
    (∀ addr data, addr + data.length ≤ 2 ^ 40 → memWf s.mem = true → (∀ i < data.length, ∃ k, physHome s (addr + i) = .mem k ∧ isRowZero k = false) →
      (∀ i < data.length, ∀ j < data.length, homeKey s (addr + i) = homeKey s (addr + j) → i = j) →
      ∃ t, exec (.hostBar2Write addr data) s = .next t ∧ ∀ i < data.length, physByte t (addr + i) = data.getD i 0) ∧
    (∀ v, put 0x10 v { h with tlbva := v &&& 0x01FF_FFFF_FFFF_0000 } ∧
      put 0x20 v { h with thresh := v.extractLsb' 0 16, acen := v.getLsbD 16 } ∧
      put 0x28 v { h with log2n := v.extractLsb' 0 5, ringBase := v.extractLsb' 12 40 } ∧
      put 0x30 v { h with acRd := v.extractLsb' 0 32 } ∧ put 0x48 v { h with acfrm := v.extractLsb' 16 36 } ∧
      exec (.registerWrite true 0x88 v) s = .next { s with svc := { s.svc with fwsrc := v.extractLsb' 0 52 } }) ∧
    (readHost s 0x00 = h.hqcmd ∧ readHost s 0x10 = h.tlbva ∧ (readHost s 0x18).extractLsb' 0 16 = h.tlbctx ∧
      (readHost s 0x18).getLsbD 17 = h.tlbdone ∧ (readHost s 0x18).getLsbD 18 = h.tlberr ∧
      readHost s 0x50 = h.podid.zeroExtend 64 ∧ ∀ off, 0x60 ≤ off → off < 0x1000 → readHost s off = 0) ∧
    (s.svc.fwbusy = true → s.svc.fwcmd = 1 → s.svc.fwcomp = 4 → ∀ off, readMgmt s off = 0)

/-- 19 R411 to R417: a pool port comes up with its width and size, or goes down, each raising vector 3. ULPORT_ENABLE takes a port DOWN or QUIESCED to TRAINING, ULPORT_DRAIN an ACTIVE or DEGRADED one to DRAINING, and each is ignored elsewhere but for CMD. Training ends ACTIVE with four lanes, DEGRADED with fewer and DOWN with none; a lane retired, or past its error threshold, leaves the port DEGRADED with the others; a lost partner takes it DOWN; a DRAINING port with nothing outstanding becomes QUIESCED. A flit in sequence advances SEQ and takes what it acknowledges out of the replay buffer; one with a bad CRC is counted as replayed. A peer's request is performed at its home in one step, a read, a write, an atomic or a barrier operation, and answered with the line, or refused where the address is unmapped or the data cannot be corrected; a peer's answer is kept with its request. The model's choices: a peer's request is performed whole in one step (log 18), and when REPLAYS counts, and the CRC's polynomial (log 50). -/
def Obligations.PortStepsComplete : Prop :=
  ∀ (s : State) (n : Nat),
    let p := s.ulport n
    let port (i : Instr) (q : UlPort) : Prop := ∃ t, exec i s = .next t ∧ t.ulport n = q ∧ t.mem = s.mem ∧
      t.raised.getD 3 0 = s.raised.getD 3 0 + (if p.state = q.state then 0 else 1)
    let pool (i : Instr) (q : PoolPort) : Prop := ∃ t, exec i s = .next t ∧ t.poolports.getD n {} = q ∧ t.mem = s.mem ∧
      t.raised.getD 3 0 = s.raised.getD 3 0 + 1
    (∀ w z, n < 2 → s.variant.hasPool = true → portsFrozen s = false → (s.poolports.getD n {}).up = false → w ≤ 16 → z ≤ 2 ^ 25 →
      pool (.poolPortUp n w z) ⟨true, BitVec.ofNat 8 w, BitVec.ofNat 48 z⟩) ∧
    ((s.poolports.getD n {}).up = true → portsFrozen s = false → pool (.poolPortDown n) { s.poolports.getD n {} with up := false }) ∧
    (n < 36 → portsFrozen s = false →
      port (.ulportEnable n) { p with cmd := 1, state := if p.state = .down ∨ p.state = .quiesced then .training else p.state } ∧
      port (.ulportDrain n) { p with cmd := 2, state := if p.linked then .draining else p.state } ∧
      (p.linked = false → ∀ l, port (.ulportRetireLane n l) { p with cmd := 3, lane := l }) ∧
      (∀ l : BitVec 2, p.linked = true → p.lanes.getLsbD l.toNat = true → p.lanes ≠ (1 : BitVec 4) <<< l.toNat →
        let p' : UlPort := { p with lanes := p.lanes &&& ~~~((1 : BitVec 4) <<< l.toNat), state := .degraded,
                                    replays := BitVec.ofNat 16 (min (p.replays.toNat + p.replay.length) 0xFFFF) }
        port (.ulportRetireLane n l) { p' with cmd := 3, lane := l } ∧ port (.laneErrorThreshold n l) p') ∧
      (p.state = .training → ∀ (lanes : BitVec 4) (peer : BitVec 11) (pp : BitVec 6),
        (lanes = 0 → port (.laneTrainingDone n lanes peer pp) { p with state := .down, lanes := 0 }) ∧
        (lanes ≠ 0 → port (.laneTrainingDone n lanes peer pp)
          { p with state := if lanes = 15 then .active else .degraded, lanes := lanes, peer := peer, peerPort := pp })) ∧
      (p.linked = true → port (.partnerLost n) { p with state := .down, lanes := 0, replay := [] }) ∧
      (p.state = .draining → (∀ x ∈ s.pod, x.answer ≠ none ∨ x.port ≠ n) → port (.portDrained n) { p with state := .quiesced })) ∧
    (∀ f : Flit, p.linked = true ∨ p.state = .draining →
      (f.crc = Config.crc64 f.covered → f.seq = p.seq + 1 → port (.flitReceived n f)
        { p with seq := f.seq, replay := p.replay.filter fun g => decide (2048 ≤ (f.ack - g.seq).toNat) }) ∧
      (f.crc = Config.crc64 f.covered → f.seq ≠ p.seq + 1 → exec (.flitReceived n f) s = .next s) ∧
      (f.crc ≠ Config.crc64 f.covered → p.replays ≠ 0xFFFF → port (.flitReceived n f) { p with replays := p.replays + 1 })) ∧
    (∀ (l : BitVec 2) , n < 36 → portsFrozen s = false → p.linked = true → p.lanes = (1 : BitVec 4) <<< l.toNat →
      port (.laneErrorThreshold n l) { p with lanes := 0, state := .down, replay := [] }) ∧
    (∀ peer addr op, peer ≤ 1151 → peer ≠ s.host.podid.toNat % 2 ^ 11 → addr % 64 + op.bytes ≤ 64 → addr + op.bytes ≤ 2 ^ 40 →
      s.host.podid.getLsbD 11 = true →
      let i : Instr := .podRequestReceived peer addr op
      let line : PodReply := .line (physBytes s (addr / 64 * 64) 64)
      let out (t : State) (r : PodReply) : Prop := exec i s = .next (answerPeer t peer r) ∧
        (answerPeer t peer r).podOut = some r ∧ (answerPeer t peer r).mem = t.mem
      -- a request that is performed may be counted here (18 R401)
      let answers (t : State) : Prop := out (countPeer t addr) line ∧ (s.host.acen = false → countPeer t addr = t)
      (anyUnmapped s addr op.bytes = true → out s .unmapped) ∧
      (anyUnmapped s addr op.bytes = false → (∀ d, op = .write d → answers (store s addr d none)) ∧
        ((∀ d, op ≠ .write d) → uncorrectable s addr op.bytes = true → out (countPeer s addr) .bad) ∧
        (uncorrectable s addr op.bytes = false →
          (∀ m, op = .read m → answers s) ∧
          (∀ d m, op = .merge d m → answers (store s addr ((List.range d.length).map fun j =>
            (physByte s (addr + j) &&& ~~~(m.getD j 0)) ||| (d.getD j 0 &&& m.getD j 0)) none)) ∧
          (∀ f w b c, op = .amo f w b c → answers (match amoResult f w (physRead s addr (if w then 4 else 8)) b c with
            | some v => store s addr (toBytes (if w then 4 else 8) v) none
            | none => s)) ∧
          ((op = .binval ∨ op = .barrive ∨ (∃ k, op = .binit k) ∨ (∃ k, op = .bexp k) ∨ ∃ g k, op = .count g k) →
            answers (match (barRead s addr).podStep op with
              | some o => store s addr o.bytes none
              | none => s))))) ∧
    (∀ peer req reply x, s.pod[req]? = some x → x.answer = none → (x.addr - 2 ^ 50) / 2 ^ 40 = peer →
      (x.by_ ≠ orphan → exec (.podResponseReceived peer req reply) s =
        .next { s with pod := s.pod.set req { x with answer := some reply } }) ∧
      (x.by_ = orphan → exec (.podResponseReceived peer req reply) s = .next { s with pod := s.pod.eraseIdx req }))

/-- 20 R418 to R428, 14 R357, R358: a lane rate changes while the controller runs, but not to full rate in a throttled column; a droop changes nothing architectural; ways are gated down to 4 and enabled up to 16; a HOT or THROTTLE trip or clear sets or clears its column, at the temperatures of R422, a throttled column running at half rate with its caps at their floors; CRIT and loss of supply begin the emergency; HARD_POWER_OFF removes power, and a context with members not committed is LOST; a watchdog restart counts, with every cap at its floor; BIST starts on a live bank with a spare and ends with its result; a firmware commit is refused for a component that does not match (3), a bad signature (1) or a version below the floor (2), and changes nothing then; else it pauses the component, the power controller at the safe point, and its next step installs version and SHA-256 digest; a write that fails in place waits for the boot ROM, which installs an image that verifies (4) and goes on waiting after one that does not; attest ends with result 0; DEVICE_RESET frees every hart place, gives power and keeps the version floors. That a commit is two steps, what ends RESTARTING and when BIST gives RESULT 2 are the model's choices (log 48); the signature's keys and salt are free values (log 17). -/
def Obligations.PowerHeatAndServiceSteps : Prop :=
  ∀ (s : State),
    let v := s.svc
    (∀ c half, c < 64 * s.variant.towers →
      exec (.voltageDroop c) s = .next s ∧
      (v.ctrl ≠ 2 → (half = true ∨ (s.thermOf (c / 64)).throt.getLsbD (c / 4 % 4) = false) →
        let t := if v.ctrl = 1 then controllerRuns s else s
        exec (.laneRateChange c half) s = .next (t.setCore c { t.core c with halfRate := half }))) ∧
    (∀ t, t < s.variant.towers →
      (4 < (s.tower t).ways → exec (.wayGate t) s = .next (s.setTower t { s.tower t with ways := (s.tower t).ways - 1 })) ∧
      ((s.tower t).ways < 16 → exec (.wayEnable t) s = .next (s.setTower t { s.tower t with ways := (s.tower t).ways + 1 }))) ∧
    (∀ d col, d < s.variant.towers → col < 4 →
      let th := s.thermOf d
      let bit : BitVec 4 := (1 : BitVec 4) <<< col
      (th.hot.getLsbD col = false → ∃ t, exec (.hotTrip d col) s = .next t ∧ (t.thermOf d).hot = th.hot ||| bit ∧
        (v.hotAt ≤ 255 → v.hotAt ≤ (t.thermOf d).tmax)) ∧
      (th.hot.getLsbD col = true → ∃ t, exec (.hotClear d col) s = .next t ∧ (t.thermOf d).hot = th.hot &&& ~~~bit ∧
        (5 < v.hotAt → ∀ x, (t.thermOf d).temp[col]? = some x → x.toNat < v.hotAt - 5)) ∧
      (th.throt.getLsbD col = false → ∃ t, exec (.throttleTrip d col) s = .next t ∧ (t.thermOf d).throt = th.throt ||| bit ∧
        105 ≤ (t.thermOf d).tmax ∧
        ∀ c < 64, c / 4 % 4 = col → (t.core (64 * d + c)).halfRate = true ∧
          (t.core (64 * d + c)).requests = 32 ∧ (t.core (64 * d + c)).gatherCap = 2) ∧
      (th.throt.getLsbD col = true → ∃ t, exec (.throttleClear d col) s = .next t ∧
        (t.thermOf d).throt = th.throt &&& ~~~bit ∧
        (∀ x, (t.thermOf d).temp[col]? = some x → x.toNat < 100) ∧
        ∀ c < 64, c / 4 % 4 = col → (t.core (64 * d + c)).halfRate = v.safe ∧
          (v.ctrl = 0 → (t.core (64 * d + c)).requests = 256 ∧ (t.core (64 * d + c)).gatherCap = 16) ∧
          (v.ctrl ≠ 0 → (t.core (64 * d + c)).requests = (s.core (64 * d + c)).requests ∧
            (t.core (64 * d + c)).gatherCap = (s.core (64 * d + c)).gatherCap)) ∧
      (∃ t, exec (.critTrip d col) s = .next t ∧ (t.thermOf d).crit = true ∧ t.svc.emergency = true)) ∧
    (∃ t, exec .supplyLoss s = .next t ∧ t.svc.emergency = true) ∧
    (v.powered = true → ∃ t, exec .hardPowerOff s = .next t ∧ t.svc.powered = false ∧
      ∀ c cx, s.ctxs.get? c = some cx → uncommitted (unbindAll s) c = true →
        ∃ cx', t.ctxs.get? c = some cx' ∧ cx'.state = .lost) ∧
    (let n := if v.restarts = 0xFFFF then 0xFFFF else v.restarts + 1
     ∃ t, exec .watchdogExpiry s = .next t ∧ t.svc = { v with ctrl := if v.ctrl = 2 then 2 else 1, restarts := n } ∧
       ∀ c < 64 * s.variant.towers, t.core c = { s.core c with requests := 32, gatherCap := 2 }) ∧
    (∀ (tw : BitVec 3) (pc : BitVec 6) (b : BitVec 4), v.bistBusy = false →
      let key := 1024 * tw.toNat + 16 * pc.toNat + b.toNat
      let used := v.spares.getD (64 * tw.toNat + pc.toNat) 0
      (bankLive s key = true → (s.bank key).owner = none → used < Config.spareBanks →
        let sp := v.spares.set (64 * tw.toNat + pc.toNat) (used + 1)
        exec (.bistGo tw pc b) s = .next { s with svc := { v with bist := (1 : BitVec 1) ++ b ++ pc ++ tw, bistBusy := true, spares := sp } }) ∧
      (bankLive s key = false → exec (.bistGo tw pc b) s = .next { s with svc := { v with bist := (1 : BitVec 1) ++ b ++ pc ++ tw, bistResult := 3 } })) ∧
    (v.bistBusy = true → (∃ t, exec (.bistDone true) s = .next t ∧ t.svc.bistBusy = false ∧ t.svc.bistResult = 0) ∧
      (∃ t, exec (.bistDone false) s = .next t ∧ t.svc.bistBusy = false ∧
        (Config.spareHolds s.free = false → t.svc.bistResult = 2) ∧
        (Config.spareHolds s.free = true → t.svc.bistResult = 1 ∧
          let w := v.bist.toNat
          (t.bank (1024 * (w % 8) + 16 * bitsAt w 3 6 + bitsAt w 9 4)).spared = true))) ∧
    (let c := v.fwcomp.toNat
     let refusal (image : List Byte) (r : BitVec 3) : Prop :=
       (5 ≤ c ∨ Config.imageComponent image ≠ c) ∧ r = 3 ∨
       c < 5 ∧ Config.imageComponent image = c ∧ imageSigned image = false ∧ r = 1 ∨
       c < 5 ∧ Config.imageComponent image = c ∧ imageSigned image = true ∧
         (Config.imageVersion image).toNat < (v.floor.getD c 0).toNat ∧ r = 2
     let good (image : List Byte) : Prop := c < 5 ∧ Config.imageComponent image = c ∧ imageSigned image = true ∧
       (v.floor.getD c 0).toNat ≤ (Config.imageVersion image).toNat
     let installed (image : List Byte) (r : BitVec 3) (t : State) : Prop :=
       t.svc.fwresult = r ∧ t.svc.fwbusy = false ∧ t.mem = s.mem ∧
       t.svc.version = v.version.set c (Config.imageVersion image) ∧ t.svc.digest = v.digest.set c (sha256 image) ∧
       (c = 0 → t.svc.safe = false ∧ t.svc.ctrl = 0 ∧ t.svc.hotAt = (Config.hotThreshold image).toNat) ∧
       (c ≠ 0 → t.svc.safe = v.safe ∧ t.svc.ctrl = v.ctrl)
     (v.fwbusy = false →
       let image := physBytes s v.fwsrc.toNat (Config.imageLength v.fwsrc.toNat)
       (∀ r, refusal image r →
         exec .fwCommit s = .next { s with svc := { v with fwcmd := 1, fwbusy := false, fwresult := r, image := none } }) ∧
       (good image → ∃ t, exec .fwCommit s = .next t ∧ t.svc.fwbusy = true ∧ t.mem = s.mem ∧
         t.svc.version = v.version ∧ t.svc.digest = v.digest ∧
         t.svc.image = (if Config.commitFails s.free = true then none else some image) ∧
         (c = 0 → t.svc.ctrl = 2 ∧ t.svc.safe = true ∧ ∀ x < 64 * s.variant.towers,
           t.core x = { s.core x with halfRate := true, requests := 32, gatherCap := 2 }) ∧
         (c ≠ 0 → t.svc.safe = v.safe ∧ t.svc.ctrl = v.ctrl)) ∧
       (∃ t, exec .fwAttest s = .next t ∧ t.svc.fwresult = 0 ∧ t.svc.fwbusy = false ∧ t.svc.version = v.version)) ∧
     (v.fwbusy = true →
       (∀ image, v.image = some image → ∃ t, exec .fwCommit s = .next t ∧ installed image 0 t) ∧
       (v.image = none → exec .fwCommit s = .next s ∧
         (v.fwcmd = 1 →
           (∀ r, refusal (Config.hostImage s.free c) r →
             exec .fwBootromRestore s = .next { s with free := s.free + 1 }) ∧
           (good (Config.hostImage s.free c) → ∃ t, exec .fwBootromRestore s = .next t ∧
             installed (Config.hostImage s.free c) 4 t))))) ∧
    (∃ t, exec .deviceReset s = .next t ∧ (∀ k, (t.hart k).life = .free) ∧ t.svc.powered = true ∧ t.svc.emergency = false ∧
      t.svc.floor = v.floor ∧ ∀ b, (t.bank b).debt = 0)

/-- 03 R68 to R74, R83 to R89 with the tables of the families: one word or more of each family, built field by field from its encoding table, decodes to its instruction; a parcel of an unassigned major opcode, a SYS or ENG word of an unassigned selector, an LD of 8 bytes with sign extension, a vector word of an unassigned vop or with a bit set in an unused field, and bank and matrix words of an unassigned code do not. -/
def Obligations.DecodedWords : Prop :=
  decodeScalar 0xFFFA6282 = .ok (.addi 5 6 0x7FFD) ∧
  decodeScalar 0x154A4180 = .ok (.divnW 3 4 5) ∧
  decodeScalar 0x04C66294 = .ok (.ld 5 6 3 2 true 4) ∧
  decodeScalar 0xFF82A418 = .ok (.bne 8 10 0xFF8) ∧
  decodeScalar 0xCC0E62A0 = .ok (.cas 5 6 7 3 4 true) ∧
  decodeScalar 0x40006022 = .ok (.fence 6 4) ∧
  decodeScalar 0x00400024 = .ok .rett ∧
  decodeScalar 0x006002A6 = .ok (.csrr 5 0x030) ∧
  decodeScalar 0x001284A8 = .ok (.setvl 9 8 9) ∧
  decodeScalar 0x028E62AA = .ok (.klaunch 5 6 7) ∧
  decodeSlot 0x00000003 0 0x0000002A900C4100 = .ok (.vadd ⟨1, 2, 3, 0, 9, true, 2, true, 0, 0, 0, 0⟩) ∧
  decodeSlot 0x00000063 0 0x008212409008C402 = .ok (.vldx ⟨4, 6, 2, 0, 9, false, 0, false, 9, 2, 0, 0x0082⟩) ∧
  decodeSlot 0x00000103 0 0x8000050829000100 = .ok (.mma ⟨1, 0, 0, 0, 4, 5, 8, 8, 1, false, 0, 0x8000⟩) ∧
  decodeBank 0x0000007200000100 = .ok (.act ⟨1, 0, 0, false, false, 0, 0, 0, 0, 57⟩) ∧
  decodeBank 0x000000040401001A = .ok (.qmac ⟨0, 0, 0, false, false, 1, 0, 2, 0, 2⟩) ∧
  decodeBank 0x0204032004010120 = .ok (.rsweep ⟨1, 0, 0, false, false, 1, 0, 2, 0, 0x1020190⟩) ∧
  decodeBank 0x0000000800000628 = .ok (.shmov ⟨2, 1, 0, false, false, 0, 0, 0, 0, 4⟩) ∧
  decodeBank 0xFFFFFFFC00600030 = .ok (.bli ⟨0, 0, 0, false, false, 0, 3, 0, 0, 0x7FFFFFFE⟩) ∧
  decodeTableWord 32 0xFFFA6282 = some (.addi 5 6 0x7FFD) ∧
  decodeTableWord 96 (3 + 0x0000002A900C4100 * 2 ^ 32) = some (.vadd ⟨1, 2, 3, 0, 9, true, 2, true, 0, 0, 0, 0⟩) ∧
  decodeTableWord 64 0x3B = some (.bnop ⟨0, 0, 0, false, false, 0, 0, 0, 0, 0⟩) ∧
  (∀ w ∈ ([0x0000002C, 0x01000024, 0x0380002A, 0x00E00014] : List Parcel), ∀ i, decodeScalar w ≠ .ok i) ∧
  (∀ w ∈ ([0x0000000000000016, 0x0000000000800000] : List (BitVec 64)), ∀ i, decodeSlot 0x00000003 0 w ≠ .ok i) ∧
  (∀ i, decodeSlot 0x00000103 0 0x000000000000000E ≠ .ok i) ∧
  (∀ i, decodeBank 0x0000000000000007 ≠ .ok i)

/-- What the hart or sequencer at place `k` issues from `s`, with the outcome `o`: with slots of a convoy left, the
first of them; else the scalar instruction at its pc; else, for a convoy whose header and words pass their checks, the
slot that VSTART names. An instruction that completes is followed by the settlement of its group and of the peers'
answers that its fetch used. -/
def Issued (s : State) (k : Nat) (o : Host.Outcome State Fault Refusal) : Prop :=
  let s1 := { s with cur := some (.hart k) }
  let h := s.hart k
  let after (r : Host.Outcome State Fault Refusal) (ls : List Leaf) : Host.Outcome State Fault Refusal :=
    match r with
    | .next t => .next (settleSeq (usedCode t k ls) k)
    | r => r
  (∀ i rest, h.slots = i :: rest → o = after (exec i s1) []) ∧
  (h.slots = [] → ∀ l v, fetchBytes s1 h h.pc 4 = .ok (l, v) →
    let p : Parcel := BitVec.ofNat 32 v
    (p.getLsbD 0 = false → ∀ i, decodeScalar p = .ok i →
      o = after (exec i (countCode (s1.modHart k fun h => { h with entering := none }) [l])) [l]) ∧
    (p.getLsbD 0 = true → headerCheck (isSeqPlace k) p = .ok () → h.pc.getLsbD 2 = true →
      ∀ (ws : List (Leaf × BitVec 64)) (is : List Instr) (i : Instr), fetchWords s1 h (h.pc + 4) (headerCount p) = .ok ws → is.length = headerCount p →
        (∀ j x w, is[j]? = some x → ws[j]? = some w → decodeSlot p j w.2 = .ok x ∧ absentUnit s.variant x = none) →
        (headerChain p = true → chainOk h (ws.map (·.2)) = true) → is[h.slot.toNat]? = some i →
        o = after (exec i (countCode (s1.modHart k fun h => h.entered is (headerCount p)) (l :: ws.map (·.1))))
          (l :: ws.map (·.1))))

/-- What a turn of the hart or sequencer at place `k` does from `s`, with the outcome `o`: it issues, unless a
pre-emption that it may take is due, no request of it is with a peer and traps do not wait (20 R427). Then PREEMPT comes first at this boundary, but
for a synchronous trap that the next instruction takes (04 R117); a sequencer waits for its word on the array. -/
def TurnOfHart (s : State) (k : Nat) (o : Host.Outcome State Fault Refusal) : Prop :=
  let h := s.hart k
  let due := h.preemptDue = true ∧ s.asking k h = false ∧ s.runtimePaused = false
  let u := s.uncaught k
  (¬ due → Issued u k o) ∧
  (due → trapsFirst u k = true → Issued u k o) ∧
  (due → trapsFirst u k = false → preemptReady u k (u.hart k) = true →
    o = .next { takePreempt u k with cur := some (.hart k) }) ∧
  (due → trapsFirst u k = false → preemptReady u k (u.hart k) = false → o = .next (u.setLife k .waiting))

/-- 03 R68, R69, R79, 04 R102, R117, 11 R285, R286: a turn of a hart or a sequencer, with the power on, runs the next slot of its convoy; else the instruction that the parcel at its pc decodes to; else the slot that VSTART names of the convoy there. A pre-emption that is due comes first, but for a synchronous trap. A core cycle counts CYCLE and issues the chosen READY hart so; one that stays STALLED keeps its place in the round. A turn of a stream that is RUNNING or in its handler, with nothing due before its next word, runs the word at its BPC. An event of the agenda comes about as exec says. With an empty agenda, the first agent in turn that can issue does so. The agenda is the model's own (log 2). -/
def Obligations.StepRunsDecoded : Prop :=
  ∀ (s : State) (r : List Activity), s.svc.powered = true →
    (∀ k, s.agenda = .slot k :: r → (s.hart k).life = .issuing → TurnOfHart { s with agenda := r } k (step s)) ∧
    (∀ c, s.agenda = .seq c :: r → (s.hart (9 * c + 8)).life = .ready →
      TurnOfHart { s with agenda := r } (9 * c + 8) (step s)) ∧
    (∀ c k, s.agenda = .core c :: r → c < 64 * s.variant.towers → (s.core c).lost = false →
      coreChoice (State.setCore { s with agenda := r } c { s.core c with cycle := (s.core c).cycle + 1 }) c = some k →
      ∃ o, TurnOfHart (noteIssue (State.setCore { s with agenda := r } c
          { s.core c with cycle := (s.core c).cycle + 1 }) k) k o ∧
        step s = match o with
          | .next t => if (t.hart k).life = .stalled
              then .next (t.setCore c { t.core c with last := (s.core c).last, yielded := (s.core c).yielded })
              else .next t
          | r => r) ∧
    (∀ i w x, s.agenda = .stream i :: r → ((s.stream i).state = .running ∨ (s.stream i).state = .handler) →
      beforeWord { s with agenda := r, cur := some (.stream i) } i (s.stream i) = none →
      (s.stream i).word = some w → decodeBank w = .ok x →
      step s = exec x { s with agenda := r, cur := some (.stream i) }) ∧
    (∀ i, s.agenda = .event i :: r → encode i = .none → (∀ k, i ≠ .preempt k) →
      (∀ k, i = .hartUnstall k → wouldGo { s with agenda := r } k = true) → step s = exec i { s with agenda := r }) ∧
    (∀ p t, s.agenda = [] → (runnable s).find? (fun p => decide (agentOrder s.cur ≤ p.1)) = some p →
      step { s with agenda := [p.2.2] } = .next t → step s = .next { t with cur := some p.2.1 })

/-- 03 R71 to R74, R83 to R89: for every well-formed instruction with a word, the decoder reads the instruction back from its parcel, from its slot word under any header that names its unit, or from its bank word, with every operand at every value. A word that decodes gives a well-formed instruction whose words are that word again; a slot of VALU.B decodes as one of VALU.A. -/
def Obligations.EncodeDecodeRoundTrip : Prop :=
  (∀ i : Instr, i.wf = true →
    (∀ w, encode i = .parcel w → w.getLsbD 0 = false ∧ decodeScalar w = .ok i ∧ decodeTableWord 32 w.toNat = some i) ∧
    (∀ u w h j, encode i = .slot u w → headerUnit h j = u → decodeSlot h j w = .ok i) ∧
    (∀ w, encode i = .bank w → decodeBank w = .ok i ∧ decodeTableWord 64 w.toNat = some i)) ∧
  (∀ w i, w.getLsbD 0 = false → decodeScalar w = .ok i → i.wf = true ∧ encode i = .parcel w) ∧
  (∀ h j w i, decodeSlot h j w = .ok i → i.wf = true ∧
    encode i = .slot (if headerUnit h j = 1 then 0 else headerUnit h j) w) ∧
  (∀ w i, decodeBank w = .ok i → i.wf = true ∧ encode i = .bank w)

/-- After reset, as the tables state: CYCLE of every core is 0 (04 R109); every bank's debt is 0 (10 R260) and no stream holds it; RLFLOOR is 0xC00 (01 R23); TLBINV.DONE is 1, the access counters are off with thresholds, indices and DROPS 0 and LOG2N 8 (18 R400, R402); PODID is invalid and HOSTERR clear (19 R408); every ULPORT is DOWN (19 R415); PWRSTAT, THERM and BIST read 0, and the HOT threshold is 95 (20 R422, R424). Every place is FREE, no context exists and no operation runs. Memory is in canonical form with nothing listed (the byte read there is the model's choice, log 3). -/
def Obligations.ResetState : Prop :=
  let s := State.reset
  (∀ c, (s.core c).cycle = 0 ∧ (s.core c).lost = false) ∧ (∀ k, (s.hart k).life = .free) ∧
  (∀ b, (s.bank b).debt = 0 ∧ (s.bank b).owner = none ∧ (s.bank b).deadline = false) ∧
  (∀ t, (s.tower t).floor = 0xC00 ∧ (s.tower t).moving = false) ∧
  (∀ i, (s.stream i).state = .idle) ∧
  s.host.tlbdone = true ∧ s.host.tlberr = false ∧ s.host.acen = false ∧ s.host.thresh = 0 ∧ s.host.drops = 0 ∧
  s.host.log2n = 8 ∧ s.host.acRd = 0 ∧ s.host.acWr = 0 ∧ s.host.podid = 0 ∧ s.host.unmapped = false ∧
  s.host.remapBusy = false ∧ s.host.remapErr = false ∧
  (∀ n, ((s.ulports.getD n {}).state = .down) ∧ (s.poolports.getD n {}).up = false) ∧
  s.svc.ctrl = 0 ∧ s.svc.safe = false ∧ s.svc.restarts = 0 ∧ s.svc.hotAt = 95 ∧ s.svc.bist = 0 ∧ s.svc.bistBusy = false ∧
  (∀ n, s.svc.therm.getD n {} = {}) ∧ s.ctxs = [] ∧ s.groups = [] ∧ s.kernels = [] ∧ s.Canonical ∧ s.mem = []

/-- 01 R18, 07 R180: every step that answers a next state, whatever instruction, engine, bank, scheduler, host or port acted in it, keeps memory a table of addresses strictly rising with no entry equal to what an unlisted address reads as, so that equal memories are equal data. It holds at reset (ResetState). -/
def Obligations.StepKeepsMemoryCanonical : Prop :=
  ∀ s t : State, s.Canonical → step s = .next t → t.Canonical
end

