-- ==== Sys2Proof/Laws/Encode.lean ====
section
/-! SUPPORT. The packed words of Decode read back: every field of a packed word is the field packed, and a word packed
from its own fields is the word. -/
set_option linter.unusedSimpArgs false
namespace Sys2Proof

/-- Adjacent fields of a word are one field. -/
theorem fld_cat {n : Nat} (w : BitVec n) {a b o o' : Nat} (h : o' = o + b) :
    fld w o' a ++ fld w o b = fld w o (a + b) := by
  subst h
  apply BitVec.eq_of_getLsbD_eq
  intro i hi
  simp [fld, BitVec.getLsbD_append, BitVec.getLsbD_extractLsb']
  by_cases h : i < b <;> simp [h] <;> grind

theorem fld_all {n : Nat} (w : BitVec n) : fld w 0 n = w := by simp [fld]

/-- A field of the high part of a word. -/
theorem fld_high {a b o n : Nat} (x : BitVec a) (y : BitVec b) (h : b ≤ o) : fld (x ++ y) o n = fld x (o - b) n := by
  simp only [fld]
  rw [BitVec.extractLsb'_append_eq_of_le h]

/-- A field of the low part of a word. -/
theorem fld_low {a b o n : Nat} (x : BitVec a) (y : BitVec b) (h : o + n ≤ b) : fld (x ++ y) o n = fld y o n := by
  simp only [fld]
  rw [BitVec.extractLsb'_append_eq_of_add_le h]

theorem bit1_fld {n : Nat} (w : BitVec n) (o : Nat) : bit1 (fld w o 1 == 1) = fld w o 1 := by
  unfold bit1; generalize fld w o 1 = x; revert x; decide

theorem bit1_eq (b : Bool) : (bit1 b == 1) = b := by cases b <;> rfl

/-! ## Slot and bank words -/

theorem fld_packV_eq (v : VWord) (op : BitVec 8) (o k : Nat) : fld (packV op v) o k =
    fld (v.imm ++ v.rm ++ v.te ++ v.ty ++ bit1 v.pol ++ v.mp ++ bit1 v.me ++ v.xl ++ v.vs3 ++ v.vs2 ++ v.vs1 ++ v.vd ++
      op) o k := rfl

theorem fld_packM_eq (m : MWord) (op : BitVec 8) (o k : Nat) : fld (packM op m) o k =
    fld (m.imm ++ m.rm ++ bit1 m.sp ++ m.sw ++ m.tb ++ m.ta ++ m.xb ++ m.xa ++ m.ms2 ++ m.ms1 ++ m.md ++ m.ad ++ op)
      o k := rfl

theorem fld_packB_eq (b : BWord) (op : BitVec 8) (o k : Nat) : fld (packB op b) o k =
    fld (b.imm ++ b.bs2 ++ b.bs1 ++ b.bd ++ b.ty ++ bit1 b.pr ++ bit1 b.q ++ b.sb ++ b.sa ++ b.sd ++ op) o k := rfl

@[simp] theorem unpackV_packV (v : VWord) (o : BitVec 8) : unpackV (packV o v) = v := by
  simp (disch := decide) only [unpackV, fld_packV_eq, fld_high, fld_low, Nat.reduceSub, fld_all, bit1_eq]

@[simp] theorem unpackM_packM (m : MWord) (o : BitVec 8) : unpackM (packM o m) = m := by
  simp (disch := decide) only [unpackM, fld_packM_eq, fld_high, fld_low, Nat.reduceSub, fld_all, bit1_eq]

@[simp] theorem unpackB_packB (b : BWord) (o : BitVec 8) : unpackB (packB o b) = b := by
  simp (disch := decide) only [unpackB, fld_packB_eq, fld_high, fld_low, Nat.reduceSub, fld_all, bit1_eq]

@[simp] theorem opcode_packV (v : VWord) (o : BitVec 8) : fld (packV o v) 0 8 = o := by
  simp (disch := decide) only [fld_packV_eq, fld_low, fld_all]

@[simp] theorem opcode_packM (m : MWord) (o : BitVec 8) : fld (packM o m) 0 8 = o := by
  simp (disch := decide) only [fld_packM_eq, fld_low, fld_all]

@[simp] theorem opcode_packB (b : BWord) (o : BitVec 8) : fld (packB o b) 0 8 = o := by
  simp (disch := decide) only [fld_packB_eq, fld_low, fld_all]

theorem packV_unpackV (w : BitVec 64) : packV (fld w 0 8) (unpackV w) = w := by
  simp only [packV, unpackV, bit1_fld]
  repeat rw [fld_cat w (by rfl)]
  exact fld_all w

theorem packM_unpackM (w : BitVec 64) : packM (fld w 0 8) (unpackM w) = w := by
  simp only [packM, unpackM, bit1_fld]
  repeat rw [fld_cat w (by rfl)]
  exact fld_all w

theorem packB_unpackB (w : BitVec 64) : packB (fld w 0 8) (unpackB w) = w := by
  simp only [packB, unpackB, bit1_fld]
  repeat rw [fld_cat w (by rfl)]
  exact fld_all w

/-! ## Parcels -/

/-- Bit 0 of a word whose lowest seven bits are a major opcode is clear (03 R68). -/
theorem getLsbD_majorBits {n : Nat} (x : BitVec n) (m : BitVec 6) : (x ++ majorBits m).getLsbD 0 = false := by
  rw [BitVec.getLsbD_append, if_pos (by decide), majorBits, BitVec.getLsbD_append, if_pos (by decide)]
  rfl

theorem decodeEncoded_parcel (w : Parcel) (h : w.getLsbD 0 = false) : decodeEncoded (.parcel w) = decodeScalar w := by
  rw [decodeEncoded, h]; rfl

theorem need_ok {c : Bool} {r : Reject} {i : Instr} (h : c = true) : need c r i = .ok i := if_pos h

theorem fld_packR (f4 : BitVec 4) (f6 : BitVec 6) (b a d : Reg) (m : BitVec 6) (o k : Nat) :
    fld (packR f4 f6 b a d m) o k = fld (f4 ++ f6 ++ b ++ a ++ d ++ majorBits m) o k := rfl

theorem bit0_packR (f4 : BitVec 4) (f6 : BitVec 6) (b a d : Reg) (m : BitVec 6) : (packR f4 f6 b a d m).getLsbD 0 = false :=
  getLsbD_majorBits (f4 ++ f6 ++ b ++ a ++ d) _

@[simp] theorem packR_28 (f4 : BitVec 4) (f6 : BitVec 6) (b a d : Reg) (m : BitVec 6) : fld (packR f4 f6 b a d m) 28 4 = f4 := by
  simp (disch := decide) only [fld_packR, fld_high, fld_low, Nat.reduceSub, fld_all]

@[simp] theorem packR_22 (f4 : BitVec 4) (f6 : BitVec 6) (b a d : Reg) (m : BitVec 6) : fld (packR f4 f6 b a d m) 22 6 = f6 := by
  simp (disch := decide) only [fld_packR, fld_high, fld_low, Nat.reduceSub, fld_all]

@[simp] theorem packR_17 (f4 : BitVec 4) (f6 : BitVec 6) (b a d : Reg) (m : BitVec 6) : fld (packR f4 f6 b a d m) 17 5 = b := by
  simp (disch := decide) only [fld_packR, fld_high, fld_low, Nat.reduceSub, fld_all]

@[simp] theorem packR_12 (f4 : BitVec 4) (f6 : BitVec 6) (b a d : Reg) (m : BitVec 6) : fld (packR f4 f6 b a d m) 12 5 = a := by
  simp (disch := decide) only [fld_packR, fld_high, fld_low, Nat.reduceSub, fld_all]

@[simp] theorem packR_7 (f4 : BitVec 4) (f6 : BitVec 6) (b a d : Reg) (m : BitVec 6) : fld (packR f4 f6 b a d m) 7 5 = d := by
  simp (disch := decide) only [fld_packR, fld_high, fld_low, Nat.reduceSub, fld_all]

@[simp] theorem packR_1 (f4 : BitVec 4) (f6 : BitVec 6) (b a d : Reg) (m : BitVec 6) : fld (packR f4 f6 b a d m) 1 6 = m := by
  simp (disch := decide) only [fld_packR, fld_high, fld_low, Nat.reduceSub, fld_all]

theorem fld_packI (i : BitVec 15) (a d : Reg) (m : BitVec 6) (o k : Nat) :
    fld (packI i a d m) o k = fld (i ++ a ++ d ++ majorBits m) o k := rfl

theorem bit0_packI (i : BitVec 15) (a d : Reg) (m : BitVec 6) : (packI i a d m).getLsbD 0 = false :=
  getLsbD_majorBits (i ++ a ++ d) _

@[simp] theorem packI_17 (i : BitVec 15) (a d : Reg) (m : BitVec 6) : fld (packI i a d m) 17 15 = i := by
  simp (disch := decide) only [fld_packI, fld_high, fld_low, Nat.reduceSub, fld_all]

@[simp] theorem packI_12 (i : BitVec 15) (a d : Reg) (m : BitVec 6) : fld (packI i a d m) 12 5 = a := by
  simp (disch := decide) only [fld_packI, fld_high, fld_low, Nat.reduceSub, fld_all]

@[simp] theorem packI_7 (i : BitVec 15) (a d : Reg) (m : BitVec 6) : fld (packI i a d m) 7 5 = d := by
  simp (disch := decide) only [fld_packI, fld_high, fld_low, Nat.reduceSub, fld_all]

@[simp] theorem packI_1 (i : BitVec 15) (a d : Reg) (m : BitVec 6) : fld (packI i a d m) 1 6 = m := by
  simp (disch := decide) only [fld_packI, fld_high, fld_low, Nat.reduceSub, fld_all]

theorem fld_packU (i : BitVec 20) (d : Reg) (m : BitVec 6) (o k : Nat) :
    fld (packU i d m) o k = fld (i ++ d ++ majorBits m) o k := rfl

theorem bit0_packU (i : BitVec 20) (d : Reg) (m : BitVec 6) : (packU i d m).getLsbD 0 = false :=
  getLsbD_majorBits (i ++ d) _

@[simp] theorem packU_12 (i : BitVec 20) (d : Reg) (m : BitVec 6) : fld (packU i d m) 12 20 = i := by
  simp (disch := decide) only [fld_packU, fld_high, fld_low, Nat.reduceSub, fld_all]

@[simp] theorem packU_7 (i : BitVec 20) (d : Reg) (m : BitVec 6) : fld (packU i d m) 7 5 = d := by
  simp (disch := decide) only [fld_packU, fld_high, fld_low, Nat.reduceSub, fld_all]

@[simp] theorem packU_1 (i : BitVec 20) (d : Reg) (m : BitVec 6) : fld (packU i d m) 1 6 = m := by
  simp (disch := decide) only [fld_packU, fld_high, fld_low, Nat.reduceSub, fld_all]

theorem fld_packShi (q : BitVec 2) (sh : BitVec 6) (a d : Reg) (o k : Nat) :
    fld (packShi q sh a d) o k = fld ((0 : BitVec 7) ++ q ++ sh ++ a ++ d ++ majorBits 0x07) o k := rfl

theorem bit0_packShi (q : BitVec 2) (sh : BitVec 6) (a d : Reg) : (packShi q sh a d).getLsbD 0 = false :=
  getLsbD_majorBits ((0 : BitVec 7) ++ q ++ sh ++ a ++ d) _

@[simp] theorem packShi_25 (q : BitVec 2) (sh : BitVec 6) (a d : Reg) : fld (packShi q sh a d) 25 7 = 0 := by
  simp (disch := decide) only [fld_packShi, fld_high, fld_low, Nat.reduceSub, fld_all]

@[simp] theorem packShi_23 (q : BitVec 2) (sh : BitVec 6) (a d : Reg) : fld (packShi q sh a d) 23 2 = q := by
  simp (disch := decide) only [fld_packShi, fld_high, fld_low, Nat.reduceSub, fld_all]

@[simp] theorem packShi_17 (q : BitVec 2) (sh : BitVec 6) (a d : Reg) : fld (packShi q sh a d) 17 6 = sh := by
  simp (disch := decide) only [fld_packShi, fld_high, fld_low, Nat.reduceSub, fld_all]

@[simp] theorem packShi_12 (q : BitVec 2) (sh : BitVec 6) (a d : Reg) : fld (packShi q sh a d) 12 5 = a := by
  simp (disch := decide) only [fld_packShi, fld_high, fld_low, Nat.reduceSub, fld_all]

@[simp] theorem packShi_7 (q : BitVec 2) (sh : BitVec 6) (a d : Reg) : fld (packShi q sh a d) 7 5 = d := by
  simp (disch := decide) only [fld_packShi, fld_high, fld_low, Nat.reduceSub, fld_all]

@[simp] theorem packShi_1 (q : BitVec 2) (sh : BitVec 6) (a d : Reg) : fld (packShi q sh a d) 1 6 = 0x07 := by
  simp (disch := decide) only [fld_packShi, fld_high, fld_low, Nat.reduceSub, fld_all]

theorem fld_packBr (off : BitVec 12) (c : BitVec 3) (b a : Reg) (o k : Nat) :
    fld (packBr off c b a) o k = fld (off ++ c ++ b ++ a ++ majorBits 0x0C) o k := rfl

theorem bit0_packBr (off : BitVec 12) (c : BitVec 3) (b a : Reg) : (packBr off c b a).getLsbD 0 = false :=
  getLsbD_majorBits (off ++ c ++ b ++ a) _

@[simp] theorem packBr_20 (off : BitVec 12) (c : BitVec 3) (b a : Reg) : fld (packBr off c b a) 20 12 = off := by
  simp (disch := decide) only [fld_packBr, fld_high, fld_low, Nat.reduceSub, fld_all]

@[simp] theorem packBr_17 (off : BitVec 12) (c : BitVec 3) (b a : Reg) : fld (packBr off c b a) 17 3 = c := by
  simp (disch := decide) only [fld_packBr, fld_high, fld_low, Nat.reduceSub, fld_all]

@[simp] theorem packBr_12 (off : BitVec 12) (c : BitVec 3) (b a : Reg) : fld (packBr off c b a) 12 5 = b := by
  simp (disch := decide) only [fld_packBr, fld_high, fld_low, Nat.reduceSub, fld_all]

@[simp] theorem packBr_7 (off : BitVec 12) (c : BitVec 3) (b a : Reg) : fld (packBr off c b a) 7 5 = a := by
  simp (disch := decide) only [fld_packBr, fld_high, fld_low, Nat.reduceSub, fld_all]

@[simp] theorem packBr_1 (off : BitVec 12) (c : BitVec 3) (b a : Reg) : fld (packBr off c b a) 1 6 = 0x0C := by
  simp (disch := decide) only [fld_packBr, fld_high, fld_low, Nat.reduceSub, fld_all]

theorem fld_packMem (i : BitVec 8) (sx : Bool) (sz : BitVec 2) (c : BitVec 4) (a d : Reg) (m : BitVec 6) (o k : Nat) :
    fld (packMem i sx sz c a d m) o k = fld (i ++ bit1 sx ++ sz ++ c ++ a ++ d ++ majorBits m) o k := rfl

theorem bit0_packMem (i : BitVec 8) (sx : Bool) (sz : BitVec 2) (c : BitVec 4) (a d : Reg) (m : BitVec 6) : (packMem i sx sz c a d m).getLsbD 0 = false :=
  getLsbD_majorBits (i ++ bit1 sx ++ sz ++ c ++ a ++ d) _

@[simp] theorem packMem_24 (i : BitVec 8) (sx : Bool) (sz : BitVec 2) (c : BitVec 4) (a d : Reg) (m : BitVec 6) : fld (packMem i sx sz c a d m) 24 8 = i := by
  simp (disch := decide) only [fld_packMem, fld_high, fld_low, Nat.reduceSub, fld_all]

@[simp] theorem packMem_23 (i : BitVec 8) (sx : Bool) (sz : BitVec 2) (c : BitVec 4) (a d : Reg) (m : BitVec 6) : fld (packMem i sx sz c a d m) 23 1 = bit1 sx := by
  simp (disch := decide) only [fld_packMem, fld_high, fld_low, Nat.reduceSub, fld_all]

@[simp] theorem packMem_21 (i : BitVec 8) (sx : Bool) (sz : BitVec 2) (c : BitVec 4) (a d : Reg) (m : BitVec 6) : fld (packMem i sx sz c a d m) 21 2 = sz := by
  simp (disch := decide) only [fld_packMem, fld_high, fld_low, Nat.reduceSub, fld_all]

@[simp] theorem packMem_17 (i : BitVec 8) (sx : Bool) (sz : BitVec 2) (c : BitVec 4) (a d : Reg) (m : BitVec 6) : fld (packMem i sx sz c a d m) 17 4 = c := by
  simp (disch := decide) only [fld_packMem, fld_high, fld_low, Nat.reduceSub, fld_all]

@[simp] theorem packMem_12 (i : BitVec 8) (sx : Bool) (sz : BitVec 2) (c : BitVec 4) (a d : Reg) (m : BitVec 6) : fld (packMem i sx sz c a d m) 12 5 = a := by
  simp (disch := decide) only [fld_packMem, fld_high, fld_low, Nat.reduceSub, fld_all]

@[simp] theorem packMem_7 (i : BitVec 8) (sx : Bool) (sz : BitVec 2) (c : BitVec 4) (a d : Reg) (m : BitVec 6) : fld (packMem i sx sz c a d m) 7 5 = d := by
  simp (disch := decide) only [fld_packMem, fld_high, fld_low, Nat.reduceSub, fld_all]

@[simp] theorem packMem_1 (i : BitVec 8) (sx : Bool) (sz : BitVec 2) (c : BitVec 4) (a d : Reg) (m : BitVec 6) : fld (packMem i sx sz c a d m) 1 6 = m := by
  simp (disch := decide) only [fld_packMem, fld_high, fld_low, Nat.reduceSub, fld_all]

theorem fld_packAmo (w : Bool) (sc : BitVec 3) (sem : BitVec 2) (op : BitVec 4) (b a d : Reg) (m : BitVec 6) (o k : Nat) :
    fld (packAmo w sc sem op b a d m) o k = fld (bit1 w ++ sc ++ sem ++ op ++ b ++ a ++ d ++ majorBits m) o k := rfl

theorem bit0_packAmo (w : Bool) (sc : BitVec 3) (sem : BitVec 2) (op : BitVec 4) (b a d : Reg) (m : BitVec 6) : (packAmo w sc sem op b a d m).getLsbD 0 = false :=
  getLsbD_majorBits (bit1 w ++ sc ++ sem ++ op ++ b ++ a ++ d) _

@[simp] theorem packAmo_31 (w : Bool) (sc : BitVec 3) (sem : BitVec 2) (op : BitVec 4) (b a d : Reg) (m : BitVec 6) : fld (packAmo w sc sem op b a d m) 31 1 = bit1 w := by
  simp (disch := decide) only [fld_packAmo, fld_high, fld_low, Nat.reduceSub, fld_all]

@[simp] theorem packAmo_28 (w : Bool) (sc : BitVec 3) (sem : BitVec 2) (op : BitVec 4) (b a d : Reg) (m : BitVec 6) : fld (packAmo w sc sem op b a d m) 28 3 = sc := by
  simp (disch := decide) only [fld_packAmo, fld_high, fld_low, Nat.reduceSub, fld_all]

@[simp] theorem packAmo_26 (w : Bool) (sc : BitVec 3) (sem : BitVec 2) (op : BitVec 4) (b a d : Reg) (m : BitVec 6) : fld (packAmo w sc sem op b a d m) 26 2 = sem := by
  simp (disch := decide) only [fld_packAmo, fld_high, fld_low, Nat.reduceSub, fld_all]

@[simp] theorem packAmo_22 (w : Bool) (sc : BitVec 3) (sem : BitVec 2) (op : BitVec 4) (b a d : Reg) (m : BitVec 6) : fld (packAmo w sc sem op b a d m) 22 4 = op := by
  simp (disch := decide) only [fld_packAmo, fld_high, fld_low, Nat.reduceSub, fld_all]

@[simp] theorem packAmo_17 (w : Bool) (sc : BitVec 3) (sem : BitVec 2) (op : BitVec 4) (b a d : Reg) (m : BitVec 6) : fld (packAmo w sc sem op b a d m) 17 5 = b := by
  simp (disch := decide) only [fld_packAmo, fld_high, fld_low, Nat.reduceSub, fld_all]

@[simp] theorem packAmo_12 (w : Bool) (sc : BitVec 3) (sem : BitVec 2) (op : BitVec 4) (b a d : Reg) (m : BitVec 6) : fld (packAmo w sc sem op b a d m) 12 5 = a := by
  simp (disch := decide) only [fld_packAmo, fld_high, fld_low, Nat.reduceSub, fld_all]

@[simp] theorem packAmo_7 (w : Bool) (sc : BitVec 3) (sem : BitVec 2) (op : BitVec 4) (b a d : Reg) (m : BitVec 6) : fld (packAmo w sc sem op b a d m) 7 5 = d := by
  simp (disch := decide) only [fld_packAmo, fld_high, fld_low, Nat.reduceSub, fld_all]

@[simp] theorem packAmo_1 (w : Bool) (sc : BitVec 3) (sem : BitVec 2) (op : BitVec 4) (b a d : Reg) (m : BitVec 6) : fld (packAmo w sc sem op b a d m) 1 6 = m := by
  simp (disch := decide) only [fld_packAmo, fld_high, fld_low, Nat.reduceSub, fld_all]

theorem fld_packCsr (op : BitVec 3) (c : BitVec 12) (a d : Reg) (o k : Nat) :
    fld (packCsr op c a d) o k = fld (op ++ c ++ a ++ d ++ majorBits 0x13) o k := rfl

theorem bit0_packCsr (op : BitVec 3) (c : BitVec 12) (a d : Reg) : (packCsr op c a d).getLsbD 0 = false :=
  getLsbD_majorBits (op ++ c ++ a ++ d) _

@[simp] theorem packCsr_29 (op : BitVec 3) (c : BitVec 12) (a d : Reg) : fld (packCsr op c a d) 29 3 = op := by
  simp (disch := decide) only [fld_packCsr, fld_high, fld_low, Nat.reduceSub, fld_all]

@[simp] theorem packCsr_17 (op : BitVec 3) (c : BitVec 12) (a d : Reg) : fld (packCsr op c a d) 17 12 = c := by
  simp (disch := decide) only [fld_packCsr, fld_high, fld_low, Nat.reduceSub, fld_all]

@[simp] theorem packCsr_12 (op : BitVec 3) (c : BitVec 12) (a d : Reg) : fld (packCsr op c a d) 12 5 = a := by
  simp (disch := decide) only [fld_packCsr, fld_high, fld_low, Nat.reduceSub, fld_all]

@[simp] theorem packCsr_7 (op : BitVec 3) (c : BitVec 12) (a d : Reg) : fld (packCsr op c a d) 7 5 = d := by
  simp (disch := decide) only [fld_packCsr, fld_high, fld_low, Nat.reduceSub, fld_all]

@[simp] theorem packCsr_1 (op : BitVec 3) (c : BitVec 12) (a d : Reg) : fld (packCsr op c a d) 1 6 = 0x13 := by
  simp (disch := decide) only [fld_packCsr, fld_high, fld_low, Nat.reduceSub, fld_all]

theorem fld_packEng (sc : BitVec 3) (f6 : BitVec 6) (b a d : Reg) (o k : Nat) :
    fld (packEng sc f6 b a d) o k = fld ((0 : BitVec 1) ++ sc ++ f6 ++ b ++ a ++ d ++ majorBits 0x15) o k := rfl

theorem bit0_packEng (sc : BitVec 3) (f6 : BitVec 6) (b a d : Reg) : (packEng sc f6 b a d).getLsbD 0 = false :=
  getLsbD_majorBits ((0 : BitVec 1) ++ sc ++ f6 ++ b ++ a ++ d) _

@[simp] theorem packEng_31 (sc : BitVec 3) (f6 : BitVec 6) (b a d : Reg) : fld (packEng sc f6 b a d) 31 1 = 0 := by
  simp (disch := decide) only [fld_packEng, fld_high, fld_low, Nat.reduceSub, fld_all]

@[simp] theorem packEng_28 (sc : BitVec 3) (f6 : BitVec 6) (b a d : Reg) : fld (packEng sc f6 b a d) 28 3 = sc := by
  simp (disch := decide) only [fld_packEng, fld_high, fld_low, Nat.reduceSub, fld_all]

@[simp] theorem packEng_22 (sc : BitVec 3) (f6 : BitVec 6) (b a d : Reg) : fld (packEng sc f6 b a d) 22 6 = f6 := by
  simp (disch := decide) only [fld_packEng, fld_high, fld_low, Nat.reduceSub, fld_all]

@[simp] theorem packEng_17 (sc : BitVec 3) (f6 : BitVec 6) (b a d : Reg) : fld (packEng sc f6 b a d) 17 5 = b := by
  simp (disch := decide) only [fld_packEng, fld_high, fld_low, Nat.reduceSub, fld_all]

@[simp] theorem packEng_12 (sc : BitVec 3) (f6 : BitVec 6) (b a d : Reg) : fld (packEng sc f6 b a d) 12 5 = a := by
  simp (disch := decide) only [fld_packEng, fld_high, fld_low, Nat.reduceSub, fld_all]

@[simp] theorem packEng_7 (sc : BitVec 3) (f6 : BitVec 6) (b a d : Reg) : fld (packEng sc f6 b a d) 7 5 = d := by
  simp (disch := decide) only [fld_packEng, fld_high, fld_low, Nat.reduceSub, fld_all]

@[simp] theorem packEng_1 (sc : BitVec 3) (f6 : BitVec 6) (b a d : Reg) : fld (packEng sc f6 b a d) 1 6 = 0x15 := by
  simp (disch := decide) only [fld_packEng, fld_high, fld_low, Nat.reduceSub, fld_all]

/-- The low seven bits of a parcel are its major opcode and a clear bit. -/
theorem majorBits_fld {w : Parcel} (h : w.getLsbD 0 = false) : majorBits (fld w 1 6) = fld w 0 7 := by
  have e : (0 : BitVec 1) = fld w 0 1 := by
    apply BitVec.eq_of_getLsbD_eq
    intro i hi
    obtain rfl : i = 0 := by omega
    simp [fld, BitVec.getLsbD_extractLsb', ← BitVec.getLsbD_eq_getElem, h]
  unfold majorBits
  rw [e, fld_cat w (by rfl)]

theorem packR_eta (w : Parcel) (h : w.getLsbD 0 = false) :
    packR (fld w 28 4) (fld w 22 6) (fld w 17 5) (fld w 12 5) (fld w 7 5) (fld w 1 6) = w := by
  rw [packR, majorBits_fld h]
  repeat rw [fld_cat w (by rfl)]
  exact fld_all w

theorem packI_eta (w : Parcel) (h : w.getLsbD 0 = false) :
    packI (fld w 17 15) (fld w 12 5) (fld w 7 5) (fld w 1 6) = w := by
  rw [packI, majorBits_fld h]
  repeat rw [fld_cat w (by rfl)]
  exact fld_all w

theorem packU_eta (w : Parcel) (h : w.getLsbD 0 = false) :
    packU (fld w 12 20) (fld w 7 5) (fld w 1 6) = w := by
  rw [packU, majorBits_fld h]
  repeat rw [fld_cat w (by rfl)]
  exact fld_all w

theorem packShi_eta (w : Parcel) (h : w.getLsbD 0 = false) (hz : fld w 25 7 = 0) (hm : fld w 1 6 = 0x07) :
    packShi (fld w 23 2) (fld w 17 6) (fld w 12 5) (fld w 7 5) = w := by
  rw [packShi, ← hz, ← hm, majorBits_fld h]
  repeat rw [fld_cat w (by rfl)]
  exact fld_all w

theorem packBr_eta (w : Parcel) (h : w.getLsbD 0 = false) (hm : fld w 1 6 = 0x0C) :
    packBr (fld w 20 12) (fld w 17 3) (fld w 12 5) (fld w 7 5) = w := by
  rw [packBr, ← hm, majorBits_fld h]
  repeat rw [fld_cat w (by rfl)]
  exact fld_all w

theorem packMem_eta (w : Parcel) (h : w.getLsbD 0 = false) :
    packMem (fld w 24 8) (fld w 23 1 == 1) (fld w 21 2) (fld w 17 4) (fld w 12 5) (fld w 7 5) (fld w 1 6) = w := by
  unfold packMem
  simp only [bit1_fld]
  rw [majorBits_fld h]
  repeat rw [fld_cat w (by rfl)]
  exact fld_all w

theorem packAmo_eta (w : Parcel) (h : w.getLsbD 0 = false) :
    packAmo (fld w 31 1 == 1) (fld w 28 3) (fld w 26 2) (fld w 22 4) (fld w 17 5) (fld w 12 5) (fld w 7 5) (fld w 1 6) = w := by
  unfold packAmo
  simp only [bit1_fld]
  rw [majorBits_fld h]
  repeat rw [fld_cat w (by rfl)]
  exact fld_all w

theorem packCsr_eta (w : Parcel) (h : w.getLsbD 0 = false) (hm : fld w 1 6 = 0x13) :
    packCsr (fld w 29 3) (fld w 17 12) (fld w 12 5) (fld w 7 5) = w := by
  rw [packCsr, ← hm, majorBits_fld h]
  repeat rw [fld_cat w (by rfl)]
  exact fld_all w

theorem packEng_eta (w : Parcel) (h : w.getLsbD 0 = false) (hz : fld w 31 1 = 0) (hm : fld w 1 6 = 0x15) :
    packEng (fld w 28 3) (fld w 22 6) (fld w 17 5) (fld w 12 5) (fld w 7 5) = w := by
  rw [packEng, ← hz, ← hm, majorBits_fld h]
  repeat rw [fld_cat w (by rfl)]
  exact fld_all w

/-! ## Slot words by unit -/

theorem decodeVector_0 (op : BitVec 8) (v : VWord) : decodeVector 0 (packV op v) = decodeValu op.toNat v := by
  simp only [decodeVector, opcode_packV, unpackV_packV]

theorem decodeVector_1 (op : BitVec 8) (v : VWord) : decodeVector 1 (packV op v) = decodeValu op.toNat v := by
  simp only [decodeVector, opcode_packV, unpackV_packV]

theorem decodeVector_2 (op : BitVec 8) (v : VWord) : decodeVector 2 (packV op v) = decodeVfpu op.toNat v := by
  simp only [decodeVector, opcode_packV, unpackV_packV]

theorem decodeVector_3 (op : BitVec 8) (v : VWord) : decodeVector 3 (packV op v) = decodeVmem op.toNat v := by
  simp only [decodeVector, opcode_packV, unpackV_packV]

theorem decodeVector_4 (op : BitVec 8) (v : VWord) : decodeVector 4 (packV op v) = decodeVperm op.toNat v := by
  simp only [decodeVector, opcode_packV, unpackV_packV]

theorem decodeVector_5 (op : BitVec 8) (v : VWord) : decodeVector 5 (packV op v) = decodeVxq op.toNat v := by
  simp only [decodeVector, opcode_packV, unpackV_packV]

theorem decodeVector_6 (op : BitVec 8) (v : VWord) : decodeVector 6 (packV op v) = decodeVacc op.toNat v := by
  simp only [decodeVector, opcode_packV, unpackV_packV]

theorem decodeVector_7 (op : BitVec 8) (v : VWord) : decodeVector 7 (packV op v) = decodeVstr op.toNat v := by
  simp only [decodeVector, opcode_packV, unpackV_packV]

/-! ## Parcels by major opcode -/

theorem decodeScalar_opr (w : Parcel) (h : fld w 1 6 = 0) : decodeScalar w = decodeOpr w := by
  unfold decodeScalar; rw [h]; rfl

theorem decodeScalar_shi (w : Parcel) (h : fld w 1 6 = 7) : decodeScalar w = decodeShi w := by
  unfold decodeScalar; rw [h]; rfl

theorem decodeScalar_br (w : Parcel) (h : fld w 1 6 = 12) : decodeScalar w = decodeBr w := by
  unfold decodeScalar; rw [h]; rfl

theorem decodeScalar_amo (w : Parcel) (h : fld w 1 6 = 15) : decodeScalar w = decodeAmo w := by
  unfold decodeScalar; rw [h]; rfl

theorem decodeScalar_fence (w : Parcel) (h : fld w 1 6 = 17) : decodeScalar w = decodeFence w := by
  unfold decodeScalar; rw [h]; rfl

theorem decodeScalar_sys (w : Parcel) (h : fld w 1 6 = 18) : decodeScalar w = decodeSys w := by
  unfold decodeScalar; rw [h]; rfl

theorem decodeScalar_csr (w : Parcel) (h : fld w 1 6 = 19) : decodeScalar w = decodeCsr w := by
  unfold decodeScalar; rw [h]; rfl

theorem decodeScalar_setvl (w : Parcel) (h : fld w 1 6 = 20) : decodeScalar w = decodeSetvl w := by
  unfold decodeScalar; rw [h]; rfl

theorem decodeScalar_eng (w : Parcel) (h : fld w 1 6 = 21) : decodeScalar w = decodeEng w := by
  unfold decodeScalar; rw [h]; rfl

theorem decodeScalar_addi (w : Parcel) (h : fld w 1 6 = 1) :
    decodeScalar w = .ok (.addi (fld w 7 5) (fld w 12 5) (fld w 17 15)) := by
  unfold decodeScalar; rw [h]; rfl

theorem decodeScalar_andi (w : Parcel) (h : fld w 1 6 = 2) :
    decodeScalar w = .ok (.andi (fld w 7 5) (fld w 12 5) (fld w 17 15)) := by
  unfold decodeScalar; rw [h]; rfl

theorem decodeScalar_ori (w : Parcel) (h : fld w 1 6 = 3) :
    decodeScalar w = .ok (.ori (fld w 7 5) (fld w 12 5) (fld w 17 15)) := by
  unfold decodeScalar; rw [h]; rfl

theorem decodeScalar_xori (w : Parcel) (h : fld w 1 6 = 4) :
    decodeScalar w = .ok (.xori (fld w 7 5) (fld w 12 5) (fld w 17 15)) := by
  unfold decodeScalar; rw [h]; rfl

theorem decodeScalar_slti (w : Parcel) (h : fld w 1 6 = 5) :
    decodeScalar w = .ok (.slti (fld w 7 5) (fld w 12 5) (fld w 17 15)) := by
  unfold decodeScalar; rw [h]; rfl

theorem decodeScalar_sltni (w : Parcel) (h : fld w 1 6 = 6) :
    decodeScalar w = .ok (.sltni (fld w 7 5) (fld w 12 5) (fld w 17 15)) := by
  unfold decodeScalar; rw [h]; rfl

theorem decodeScalar_jalr (w : Parcel) (h : fld w 1 6 = 14) :
    decodeScalar w = .ok (.jalr (fld w 7 5) (fld w 12 5) (fld w 17 15)) := by
  unfold decodeScalar; rw [h]; rfl

theorem decodeScalar_ldhi (w : Parcel) (h : fld w 1 6 = 8) : decodeScalar w = .ok (.ldhi (fld w 7 5) (fld w 12 20)) := by
  unfold decodeScalar; rw [h]; rfl

theorem decodeScalar_addpc (w : Parcel) (h : fld w 1 6 = 9) : decodeScalar w = .ok (.addpc (fld w 7 5) (fld w 12 20)) := by
  unfold decodeScalar; rw [h]; rfl

theorem decodeScalar_jal (w : Parcel) (h : fld w 1 6 = 13) : decodeScalar w = .ok (.jal (fld w 7 5) (fld w 12 20)) := by
  unfold decodeScalar; rw [h]; rfl

theorem decodeScalar_ld (w : Parcel) (h : fld w 1 6 = 10) : decodeScalar w =
    need (!(fld w 23 1 == 1 && fld w 21 2 == 3)) .ldSize
      (.ld (fld w 7 5) (fld w 12 5) (fld w 17 4) (fld w 21 2) (fld w 23 1 == 1) (fld w 24 8)) := by
  unfold decodeScalar; rw [h]; rfl

theorem decodeScalar_st (w : Parcel) (h : fld w 1 6 = 11) : decodeScalar w =
    need (fld w 23 1 == 0) .stSx (.st (fld w 7 5) (fld w 12 5) (fld w 17 4) (fld w 21 2) (fld w 24 8)) := by
  unfold decodeScalar; rw [h]; rfl

theorem decodeScalar_cas (w : Parcel) (h : fld w 1 6 = 0x10) : decodeScalar w =
    if fld w 22 4 ≠ 0 then .error .amoOp
    else need (scopeOk (fld w 28 3)) .scopeReserved
      (.cas (fld w 7 5) (fld w 12 5) (fld w 17 5) (fld w 26 2) (fld w 28 3) (fld w 31 1 == 1)) := by
  unfold decodeScalar; rw [h]; rfl

theorem decodeScalar_hint (w : Parcel) (h : fld w 1 6 = 0x3F) : decodeScalar w = .ok (.hint (fld w 7 25)) := by
  unfold decodeScalar; rw [h]; rfl

end Sys2Proof
end

