-- ==== Sys2Proof/Laws/Exec.lean ====
section
/-! SUPPORT. exec on each constructor: the meaning that its arm calls. -/
namespace Sys2Proof.Machine

@[simp] theorem exec_add (d a b : Reg) (s : State) :
    exec (.add d a b) s = execAdd d a b s := rfl
@[simp] theorem exec_addW (d a b : Reg) (s : State) :
    exec (.addW d a b) s = execAddW d a b s := rfl
@[simp] theorem exec_sub (d a b : Reg) (s : State) :
    exec (.sub d a b) s = execSub d a b s := rfl
@[simp] theorem exec_subW (d a b : Reg) (s : State) :
    exec (.subW d a b) s = execSubW d a b s := rfl
@[simp] theorem exec_and (d a b : Reg) (s : State) :
    exec (.and d a b) s = execAnd d a b s := rfl
@[simp] theorem exec_or (d a b : Reg) (s : State) :
    exec (.or d a b) s = execOr d a b s := rfl
@[simp] theorem exec_xor (d a b : Reg) (s : State) :
    exec (.xor d a b) s = execXor d a b s := rfl
@[simp] theorem exec_andn (d a b : Reg) (s : State) :
    exec (.andn d a b) s = execAndn d a b s := rfl
@[simp] theorem exec_sll (d a b : Reg) (s : State) :
    exec (.sll d a b) s = execSll d a b s := rfl
@[simp] theorem exec_sllW (d a b : Reg) (s : State) :
    exec (.sllW d a b) s = execSllW d a b s := rfl
@[simp] theorem exec_srl (d a b : Reg) (s : State) :
    exec (.srl d a b) s = execSrl d a b s := rfl
@[simp] theorem exec_srlW (d a b : Reg) (s : State) :
    exec (.srlW d a b) s = execSrlW d a b s := rfl
@[simp] theorem exec_sra (d a b : Reg) (s : State) :
    exec (.sra d a b) s = execSra d a b s := rfl
@[simp] theorem exec_sraW (d a b : Reg) (s : State) :
    exec (.sraW d a b) s = execSraW d a b s := rfl
@[simp] theorem exec_rol (d a b : Reg) (s : State) :
    exec (.rol d a b) s = execRol d a b s := rfl
@[simp] theorem exec_ror (d a b : Reg) (s : State) :
    exec (.ror d a b) s = execRor d a b s := rfl
@[simp] theorem exec_slt (d a b : Reg) (s : State) :
    exec (.slt d a b) s = execSlt d a b s := rfl
@[simp] theorem exec_sltn (d a b : Reg) (s : State) :
    exec (.sltn d a b) s = execSltn d a b s := rfl
@[simp] theorem exec_min (d a b : Reg) (s : State) :
    exec (.min d a b) s = execMin d a b s := rfl
@[simp] theorem exec_max (d a b : Reg) (s : State) :
    exec (.max d a b) s = execMax d a b s := rfl
@[simp] theorem exec_minn (d a b : Reg) (s : State) :
    exec (.minn d a b) s = execMinn d a b s := rfl
@[simp] theorem exec_maxn (d a b : Reg) (s : State) :
    exec (.maxn d a b) s = execMaxn d a b s := rfl
@[simp] theorem exec_mul (d a b : Reg) (s : State) :
    exec (.mul d a b) s = execMul d a b s := rfl
@[simp] theorem exec_mulW (d a b : Reg) (s : State) :
    exec (.mulW d a b) s = execMulW d a b s := rfl
@[simp] theorem exec_mulh (d a b : Reg) (s : State) :
    exec (.mulh d a b) s = execMulh d a b s := rfl
@[simp] theorem exec_mulhn (d a b : Reg) (s : State) :
    exec (.mulhn d a b) s = execMulhn d a b s := rfl
@[simp] theorem exec_div (d a b : Reg) (s : State) :
    exec (.div d a b) s = execDiv d a b s := rfl
@[simp] theorem exec_divW (d a b : Reg) (s : State) :
    exec (.divW d a b) s = execDivW d a b s := rfl
@[simp] theorem exec_divn (d a b : Reg) (s : State) :
    exec (.divn d a b) s = execDivn d a b s := rfl
@[simp] theorem exec_divnW (d a b : Reg) (s : State) :
    exec (.divnW d a b) s = execDivnW d a b s := rfl
@[simp] theorem exec_rem (d a b : Reg) (s : State) :
    exec (.rem d a b) s = execRem d a b s := rfl
@[simp] theorem exec_remW (d a b : Reg) (s : State) :
    exec (.remW d a b) s = execRemW d a b s := rfl
@[simp] theorem exec_remn (d a b : Reg) (s : State) :
    exec (.remn d a b) s = execRemn d a b s := rfl
@[simp] theorem exec_remnW (d a b : Reg) (s : State) :
    exec (.remnW d a b) s = execRemnW d a b s := rfl
@[simp] theorem exec_clz (d a : Reg) (s : State) :
    exec (.clz d a) s = execClz d a s := rfl
@[simp] theorem exec_ctz (d a : Reg) (s : State) :
    exec (.ctz d a) s = execCtz d a s := rfl
@[simp] theorem exec_popc (d a : Reg) (s : State) :
    exec (.popc d a) s = execPopc d a s := rfl
@[simp] theorem exec_addi (d a : Reg) (imm : BitVec 15) (s : State) :
    exec (.addi d a imm) s = execAddi d a imm s := rfl
@[simp] theorem exec_andi (d a : Reg) (imm : BitVec 15) (s : State) :
    exec (.andi d a imm) s = execAndi d a imm s := rfl
@[simp] theorem exec_ori (d a : Reg) (imm : BitVec 15) (s : State) :
    exec (.ori d a imm) s = execOri d a imm s := rfl
@[simp] theorem exec_xori (d a : Reg) (imm : BitVec 15) (s : State) :
    exec (.xori d a imm) s = execXori d a imm s := rfl
@[simp] theorem exec_slti (d a : Reg) (imm : BitVec 15) (s : State) :
    exec (.slti d a imm) s = execSlti d a imm s := rfl
@[simp] theorem exec_sltni (d a : Reg) (imm : BitVec 15) (s : State) :
    exec (.sltni d a imm) s = execSltni d a imm s := rfl
@[simp] theorem exec_slli (d a : Reg) (sh : BitVec 6) (s : State) :
    exec (.slli d a sh) s = execSlli d a sh s := rfl
@[simp] theorem exec_srli (d a : Reg) (sh : BitVec 6) (s : State) :
    exec (.srli d a sh) s = execSrli d a sh s := rfl
@[simp] theorem exec_srai (d a : Reg) (sh : BitVec 6) (s : State) :
    exec (.srai d a sh) s = execSrai d a sh s := rfl
@[simp] theorem exec_rori (d a : Reg) (sh : BitVec 6) (s : State) :
    exec (.rori d a sh) s = execRori d a sh s := rfl
@[simp] theorem exec_ldhi (d : Reg) (imm : BitVec 20) (s : State) :
    exec (.ldhi d imm) s = execLdhi d imm s := rfl
@[simp] theorem exec_addpc (d : Reg) (imm : BitVec 20) (s : State) :
    exec (.addpc d imm) s = execAddpc d imm s := rfl
@[simp] theorem exec_ld (d a : Reg) (cls : BitVec 4) (size : BitVec 2) (sx : Bool) (imm : BitVec 8) (s : State) :
    exec (.ld d a cls size sx imm) s = execLd d a cls size sx imm s := rfl
@[simp] theorem exec_st (b a : Reg) (cls : BitVec 4) (size : BitVec 2) (imm : BitVec 8) (s : State) :
    exec (.st b a cls size imm) s = execSt b a cls size imm s := rfl
@[simp] theorem exec_beq (a b : Reg) (off : BitVec 12) (s : State) :
    exec (.beq a b off) s = execBeq a b off s := rfl
@[simp] theorem exec_bne (a b : Reg) (off : BitVec 12) (s : State) :
    exec (.bne a b off) s = execBne a b off s := rfl
@[simp] theorem exec_blt (a b : Reg) (off : BitVec 12) (s : State) :
    exec (.blt a b off) s = execBlt a b off s := rfl
@[simp] theorem exec_bge (a b : Reg) (off : BitVec 12) (s : State) :
    exec (.bge a b off) s = execBge a b off s := rfl
@[simp] theorem exec_bltn (a b : Reg) (off : BitVec 12) (s : State) :
    exec (.bltn a b off) s = execBltn a b off s := rfl
@[simp] theorem exec_bgen (a b : Reg) (off : BitVec 12) (s : State) :
    exec (.bgen a b off) s = execBgen a b off s := rfl
@[simp] theorem exec_jal (d : Reg) (off : BitVec 20) (s : State) :
    exec (.jal d off) s = execJal d off s := rfl
@[simp] theorem exec_jalr (d a : Reg) (imm : BitVec 15) (s : State) :
    exec (.jalr d a imm) s = execJalr d a imm s := rfl
@[simp] theorem exec_amoswap (d a b : Reg) (sem : BitVec 2) (scope : BitVec 3) (w : Bool) (s : State) :
    exec (.amoswap d a b sem scope w) s = execAmoswap d a b sem scope w s := rfl
@[simp] theorem exec_amoadd (d a b : Reg) (sem : BitVec 2) (scope : BitVec 3) (w : Bool) (s : State) :
    exec (.amoadd d a b sem scope w) s = execAmoadd d a b sem scope w s := rfl
@[simp] theorem exec_amoand (d a b : Reg) (sem : BitVec 2) (scope : BitVec 3) (w : Bool) (s : State) :
    exec (.amoand d a b sem scope w) s = execAmoand d a b sem scope w s := rfl
@[simp] theorem exec_amoor (d a b : Reg) (sem : BitVec 2) (scope : BitVec 3) (w : Bool) (s : State) :
    exec (.amoor d a b sem scope w) s = execAmoor d a b sem scope w s := rfl
@[simp] theorem exec_amoxor (d a b : Reg) (sem : BitVec 2) (scope : BitVec 3) (w : Bool) (s : State) :
    exec (.amoxor d a b sem scope w) s = execAmoxor d a b sem scope w s := rfl
@[simp] theorem exec_amomin (d a b : Reg) (sem : BitVec 2) (scope : BitVec 3) (w : Bool) (s : State) :
    exec (.amomin d a b sem scope w) s = execAmomin d a b sem scope w s := rfl
@[simp] theorem exec_amomax (d a b : Reg) (sem : BitVec 2) (scope : BitVec 3) (w : Bool) (s : State) :
    exec (.amomax d a b sem scope w) s = execAmomax d a b sem scope w s := rfl
@[simp] theorem exec_amominn (d a b : Reg) (sem : BitVec 2) (scope : BitVec 3) (w : Bool) (s : State) :
    exec (.amominn d a b sem scope w) s = execAmominn d a b sem scope w s := rfl
@[simp] theorem exec_amomaxn (d a b : Reg) (sem : BitVec 2) (scope : BitVec 3) (w : Bool) (s : State) :
    exec (.amomaxn d a b sem scope w) s = execAmomaxn d a b sem scope w s := rfl
@[simp] theorem exec_cas (d a b : Reg) (sem : BitVec 2) (scope : BitVec 3) (w : Bool) (s : State) :
    exec (.cas d a b sem scope w) s = execCas d a b sem scope w s := rfl
@[simp] theorem exec_fence (mask : BitVec 16) (scope : BitVec 3) (s : State) :
    exec (.fence mask scope) s = execFence mask scope s := rfl
@[simp] theorem exec_fenceI (s : State) :
    exec (.fenceI) s = execFenceI s := rfl
@[simp] theorem exec_trap (code : BitVec 10) (s : State) :
    exec (.trap code) s = execTrap code s := rfl
@[simp] theorem exec_rett (s : State) :
    exec (.rett) s = execRett s := rfl
@[simp] theorem exec_yield (v : Bool) (s : State) :
    exec (.yield v) s = execYield v s := rfl
@[simp] theorem exec_waite (d a : Reg) (s : State) :
    exec (.waite d a) s = execWaite d a s := rfl
@[simp] theorem exec_csrr (d : Reg) (csr : BitVec 12) (s : State) :
    exec (.csrr d csr) s = execCsrr d csr s := rfl
@[simp] theorem exec_csrw (a : Reg) (csr : BitVec 12) (s : State) :
    exec (.csrw a csr) s = execCsrw a csr s := rfl
@[simp] theorem exec_csrs (a : Reg) (csr : BitVec 12) (s : State) :
    exec (.csrs a csr) s = execCsrs a csr s := rfl
@[simp] theorem exec_csrc (a : Reg) (csr : BitVec 12) (s : State) :
    exec (.csrc a csr) s = execCsrc a csr s := rfl
@[simp] theorem exec_csrx (d a : Reg) (csr : BitVec 12) (s : State) :
    exec (.csrx d a csr) s = execCsrx d a csr s := rfl
@[simp] theorem exec_setvl (d a : Reg) (ty : BitVec 5) (s : State) :
    exec (.setvl d a ty) s = execSetvl d a ty s := rfl
@[simp] theorem exec_setvlDistance (d a b : Reg) (ty : BitVec 5) (s : State) :
    exec (.setvlDistance d a b ty) s = execSetvlDistance d a b ty s := rfl
@[simp] theorem exec_cpw (idx : BitVec 5) (a : Reg) (s : State) :
    exec (.cpw idx a) s = execCpw idx a s := rfl
@[simp] theorem exec_cpgo (d a : Reg) (s : State) :
    exec (.cpgo d a) s = execCpgo d a s := rfl
@[simp] theorem exec_tlwait (a b : Reg) (scope : BitVec 3) (s : State) :
    exec (.tlwait a b scope) s = execTlwait a b scope s := rfl
@[simp] theorem exec_tlread (d a : Reg) (s : State) :
    exec (.tlread d a) s = execTlread d a s := rfl
@[simp] theorem exec_binit (a b : Reg) (s : State) :
    exec (.binit a b) s = execBinit a b s := rfl
@[simp] theorem exec_barrive (d a : Reg) (s : State) :
    exec (.barrive d a) s = execBarrive d a s := rfl
@[simp] theorem exec_bexp (a b : Reg) (s : State) :
    exec (.bexp a b) s = execBexp a b s := rfl
@[simp] theorem exec_bwait (a : Reg) (scope : BitVec 3) (s : State) :
    exec (.bwait a scope) s = execBwait a scope s := rfl
@[simp] theorem exec_btest (d a : Reg) (s : State) :
    exec (.btest d a) s = execBtest d a s := rfl
@[simp] theorem exec_binval (a : Reg) (s : State) :
    exec (.binval a) s = execBinval a s := rfl
@[simp] theorem exec_klaunch (d a b : Reg) (s : State) :
    exec (.klaunch d a b) s = execKlaunch d a b s := rfl
@[simp] theorem exec_gsync (id : BitVec 5) (scope : BitVec 3) (s : State) :
    exec (.gsync id scope) s = execGsync id scope s := rfl
@[simp] theorem exec_gexit (s : State) :
    exec (.gexit) s = execGexit s := rfl
@[simp] theorem exec_mxgo (d a : Reg) (s : State) :
    exec (.mxgo d a) s = execMxgo d a s := rfl
@[simp] theorem exec_hint (imm : BitVec 25) (s : State) :
    exec (.hint imm) s = execHint imm s := rfl
@[simp] theorem exec_vadd (w : VWord) (s : State) :
    exec (.vadd w) s = execVadd w s := rfl
@[simp] theorem exec_vsub (w : VWord) (s : State) :
    exec (.vsub w) s = execVsub w s := rfl
@[simp] theorem exec_vmul (w : VWord) (s : State) :
    exec (.vmul w) s = execVmul w s := rfl
@[simp] theorem exec_vmulh (w : VWord) (s : State) :
    exec (.vmulh w) s = execVmulh w s := rfl
@[simp] theorem exec_vmin (w : VWord) (s : State) :
    exec (.vmin w) s = execVmin w s := rfl
@[simp] theorem exec_vmax (w : VWord) (s : State) :
    exec (.vmax w) s = execVmax w s := rfl
@[simp] theorem exec_vand (w : VWord) (s : State) :
    exec (.vand w) s = execVand w s := rfl
@[simp] theorem exec_vor (w : VWord) (s : State) :
    exec (.vor w) s = execVor w s := rfl
@[simp] theorem exec_vxor (w : VWord) (s : State) :
    exec (.vxor w) s = execVxor w s := rfl
@[simp] theorem exec_vsll (w : VWord) (s : State) :
    exec (.vsll w) s = execVsll w s := rfl
@[simp] theorem exec_vsrl (w : VWord) (s : State) :
    exec (.vsrl w) s = execVsrl w s := rfl
@[simp] theorem exec_vsra (w : VWord) (s : State) :
    exec (.vsra w) s = execVsra w s := rfl
@[simp] theorem exec_vsadd (w : VWord) (s : State) :
    exec (.vsadd w) s = execVsadd w s := rfl
@[simp] theorem exec_vssub (w : VWord) (s : State) :
    exec (.vssub w) s = execVssub w s := rfl
@[simp] theorem exec_vabsd (w : VWord) (s : State) :
    exec (.vabsd w) s = execVabsd w s := rfl
@[simp] theorem exec_vmerge (w : VWord) (s : State) :
    exec (.vmerge w) s = execVmerge w s := rfl
@[simp] theorem exec_vmovx (w : VWord) (s : State) :
    exec (.vmovx w) s = execVmovx w s := rfl
@[simp] theorem exec_vidx (w : VWord) (s : State) :
    exec (.vidx w) s = execVidx w s := rfl
@[simp] theorem exec_vcmp (w : VWord) (s : State) :
    exec (.vcmp w) s = execVcmp w s := rfl
@[simp] theorem exec_vwmul (w : VWord) (s : State) :
    exec (.vwmul w) s = execVwmul w s := rfl
@[simp] theorem exec_vwadd (w : VWord) (s : State) :
    exec (.vwadd w) s = execVwadd w s := rfl
@[simp] theorem exec_vnarrow (w : VWord) (s : State) :
    exec (.vnarrow w) s = execVnarrow w s := rfl
@[simp] theorem exec_pand (w : VWord) (s : State) :
    exec (.pand w) s = execPand w s := rfl
@[simp] theorem exec_por (w : VWord) (s : State) :
    exec (.por w) s = execPor w s := rfl
@[simp] theorem exec_pxor (w : VWord) (s : State) :
    exec (.pxor w) s = execPxor w s := rfl
@[simp] theorem exec_pandn (w : VWord) (s : State) :
    exec (.pandn w) s = execPandn w s := rfl
@[simp] theorem exec_pset (w : VWord) (s : State) :
    exec (.pset w) s = execPset w s := rfl
@[simp] theorem exec_pcnt (w : VWord) (s : State) :
    exec (.pcnt w) s = execPcnt w s := rfl
@[simp] theorem exec_pfirst (w : VWord) (s : State) :
    exec (.pfirst w) s = execPfirst w s := rfl
@[simp] theorem exec_vfadd (w : VWord) (s : State) :
    exec (.vfadd w) s = execVfadd w s := rfl
@[simp] theorem exec_vfsub (w : VWord) (s : State) :
    exec (.vfsub w) s = execVfsub w s := rfl
@[simp] theorem exec_vfmul (w : VWord) (s : State) :
    exec (.vfmul w) s = execVfmul w s := rfl
@[simp] theorem exec_vfma (w : VWord) (s : State) :
    exec (.vfma w) s = execVfma w s := rfl
@[simp] theorem exec_vfms (w : VWord) (s : State) :
    exec (.vfms w) s = execVfms w s := rfl
@[simp] theorem exec_vfnma (w : VWord) (s : State) :
    exec (.vfnma w) s = execVfnma w s := rfl
@[simp] theorem exec_vfdiv (w : VWord) (s : State) :
    exec (.vfdiv w) s = execVfdiv w s := rfl
@[simp] theorem exec_vfsqrt (w : VWord) (s : State) :
    exec (.vfsqrt w) s = execVfsqrt w s := rfl
@[simp] theorem exec_vfmin (w : VWord) (s : State) :
    exec (.vfmin w) s = execVfmin w s := rfl
@[simp] theorem exec_vfmax (w : VWord) (s : State) :
    exec (.vfmax w) s = execVfmax w s := rfl
@[simp] theorem exec_vfcmp (w : VWord) (s : State) :
    exec (.vfcmp w) s = execVfcmp w s := rfl
@[simp] theorem exec_vfcvt (w : VWord) (s : State) :
    exec (.vfcvt w) s = execVfcvt w s := rfl
@[simp] theorem exec_vfrece (w : VWord) (s : State) :
    exec (.vfrece w) s = execVfrece w s := rfl
@[simp] theorem exec_vfrsqe (w : VWord) (s : State) :
    exec (.vfrsqe w) s = execVfrsqe w s := rfl
@[simp] theorem exec_vld (w : VWord) (s : State) :
    exec (.vld w) s = execVld w s := rfl
@[simp] theorem exec_vlds (w : VWord) (s : State) :
    exec (.vlds w) s = execVlds w s := rfl
@[simp] theorem exec_vldx (w : VWord) (s : State) :
    exec (.vldx w) s = execVldx w s := rfl
@[simp] theorem exec_vldff (w : VWord) (s : State) :
    exec (.vldff w) s = execVldff w s := rfl
@[simp] theorem exec_vst (w : VWord) (s : State) :
    exec (.vst w) s = execVst w s := rfl
@[simp] theorem exec_vsts (w : VWord) (s : State) :
    exec (.vsts w) s = execVsts w s := rfl
@[simp] theorem exec_vstx (w : VWord) (s : State) :
    exec (.vstx w) s = execVstx w s := rfl
@[simp] theorem exec_vperm (w : VWord) (s : State) :
    exec (.vperm w) s = execVperm w s := rfl
@[simp] theorem exec_vslideup (w : VWord) (s : State) :
    exec (.vslideup w) s = execVslideup w s := rfl
@[simp] theorem exec_vslidedn (w : VWord) (s : State) :
    exec (.vslidedn w) s = execVslidedn w s := rfl
@[simp] theorem exec_vcompress (w : VWord) (s : State) :
    exec (.vcompress w) s = execVcompress w s := rfl
@[simp] theorem exec_vexpand (w : VWord) (s : State) :
    exec (.vexpand w) s = execVexpand w s := rfl
@[simp] theorem exec_vbcaste (w : VWord) (s : State) :
    exec (.vbcaste w) s = execVbcaste w s := rfl
@[simp] theorem exec_vzip (w : VWord) (s : State) :
    exec (.vzip w) s = execVzip w s := rfl
@[simp] theorem exec_vunzip (w : VWord) (s : State) :
    exec (.vunzip w) s = execVunzip w s := rfl
@[simp] theorem exec_vredsum (w : VWord) (s : State) :
    exec (.vredsum w) s = execVredsum w s := rfl
@[simp] theorem exec_vredmax (w : VWord) (s : State) :
    exec (.vredmax w) s = execVredmax w s := rfl
@[simp] theorem exec_vredmin (w : VWord) (s : State) :
    exec (.vredmin w) s = execVredmin w s := rfl
@[simp] theorem exec_vfredsum (w : VWord) (s : State) :
    exec (.vfredsum w) s = execVfredsum w s := rfl
@[simp] theorem exec_vxqadd (w : VWord) (s : State) :
    exec (.vxqadd w) s = execVxqadd w s := rfl
@[simp] theorem exec_vxqmax (w : VWord) (s : State) :
    exec (.vxqmax w) s = execVxqmax w s := rfl
@[simp] theorem exec_vxqfma (w : VWord) (s : State) :
    exec (.vxqfma w) s = execVxqfma w s := rfl
@[simp] theorem exec_vexta (w : VWord) (s : State) :
    exec (.vexta w) s = execVexta w s := rfl
@[simp] theorem exec_vinsa (w : VWord) (s : State) :
    exec (.vinsa w) s = execVinsa w s := rfl
@[simp] theorem exec_vzera (w : VWord) (s : State) :
    exec (.vzera w) s = execVzera w s := rfl
@[simp] theorem exec_srd (w : VWord) (s : State) :
    exec (.srd w) s = execSrd w s := rfl
@[simp] theorem exec_srstat (w : VWord) (s : State) :
    exec (.srstat w) s = execSrstat w s := rfl
@[simp] theorem exec_mma (w : MWord) (s : State) :
    exec (.mma w) s = execMma w s := rfl
@[simp] theorem exec_mzero (w : MWord) (s : State) :
    exec (.mzero w) s = execMzero w s := rfl
@[simp] theorem exec_mtld (w : MWord) (s : State) :
    exec (.mtld w) s = execMtld w s := rfl
@[simp] theorem exec_mtst (w : MWord) (s : State) :
    exec (.mtst w) s = execMtst w s := rfl
@[simp] theorem exec_mqld (w : MWord) (s : State) :
    exec (.mqld w) s = execMqld w s := rfl
@[simp] theorem exec_mqst (w : MWord) (s : State) :
    exec (.mqst w) s = execMqst w s := rfl
@[simp] theorem exec_mqadd (w : MWord) (s : State) :
    exec (.mqadd w) s = execMqadd w s := rfl
@[simp] theorem exec_mqmul (w : MWord) (s : State) :
    exec (.mqmul w) s = execMqmul w s := rfl
@[simp] theorem exec_chisel (w : MWord) (s : State) :
    exec (.chisel w) s = execChisel w s := rfl
@[simp] theorem exec_mqcast (w : MWord) (s : State) :
    exec (.mqcast w) s = execMqcast w s := rfl
@[simp] theorem exec_mqrank (w : MWord) (s : State) :
    exec (.mqrank w) s = execMqrank w s := rfl
@[simp] theorem exec_mqfree (w : MWord) (s : State) :
    exec (.mqfree w) s = execMqfree w s := rfl
@[simp] theorem exec_mqscl (w : MWord) (s : State) :
    exec (.mqscl w) s = execMqscl w s := rfl
@[simp] theorem exec_mthdr (w : MWord) (s : State) :
    exec (.mthdr w) s = execMthdr w s := rfl
@[simp] theorem exec_act (w : BWord) (s : State) :
    exec (.act w) s = execAct w s := rfl
@[simp] theorem exec_pre (w : BWord) (s : State) :
    exec (.pre w) s = execPre w s := rfl
@[simp] theorem exec_wb (w : BWord) (s : State) :
    exec (.wb w) s = execWb w s := rfl
@[simp] theorem exec_refb (w : BWord) (s : State) :
    exec (.refb w) s = execRefb w s := rfl
@[simp] theorem exec_refq (w : BWord) (s : State) :
    exec (.refq w) s = execRefq w s := rfl
@[simp] theorem exec_rcopy (w : BWord) (s : State) :
    exec (.rcopy w) s = execRcopy w s := rfl
@[simp] theorem exec_rzero (w : BWord) (s : State) :
    exec (.rzero w) s = execRzero w s := rfl
@[simp] theorem exec_radd (w : BWord) (s : State) :
    exec (.radd w) s = execRadd w s := rfl
@[simp] theorem exec_rsub (w : BWord) (s : State) :
    exec (.rsub w) s = execRsub w s := rfl
@[simp] theorem exec_rmul (w : BWord) (s : State) :
    exec (.rmul w) s = execRmul w s := rfl
@[simp] theorem exec_rmax (w : BWord) (s : State) :
    exec (.rmax w) s = execRmax w s := rfl
@[simp] theorem exec_rmin (w : BWord) (s : State) :
    exec (.rmin w) s = execRmin w s := rfl
@[simp] theorem exec_rand (w : BWord) (s : State) :
    exec (.rand w) s = execRand w s := rfl
@[simp] theorem exec_rior (w : BWord) (s : State) :
    exec (.rior w) s = execRior w s := rfl
@[simp] theorem exec_rxor (w : BWord) (s : State) :
    exec (.rxor w) s = execRxor w s := rfl
@[simp] theorem exec_rshr (w : BWord) (s : State) :
    exec (.rshr w) s = execRshr w s := rfl
@[simp] theorem exec_rscadd (w : BWord) (s : State) :
    exec (.rscadd w) s = execRscadd w s := rfl
@[simp] theorem exec_rcmp (w : BWord) (s : State) :
    exec (.rcmp w) s = execRcmp w s := rfl
@[simp] theorem exec_rsel (w : BWord) (s : State) :
    exec (.rsel w) s = execRsel w s := rfl
@[simp] theorem exec_rcvt (w : BWord) (s : State) :
    exec (.rcvt w) s = execRcvt w s := rfl
@[simp] theorem exec_qzero (w : BWord) (s : State) :
    exec (.qzero w) s = execQzero w s := rfl
@[simp] theorem exec_qacc (w : BWord) (s : State) :
    exec (.qacc w) s = execQacc w s := rfl
@[simp] theorem exec_qmac (w : BWord) (s : State) :
    exec (.qmac w) s = execQmac w s := rfl
@[simp] theorem exec_qwb (w : BWord) (s : State) :
    exec (.qwb w) s = execQwb w s := rfl
@[simp] theorem exec_qld (w : BWord) (s : State) :
    exec (.qld w) s = execQld w s := rfl
@[simp] theorem exec_rsweep (w : BWord) (s : State) :
    exec (.rsweep w) s = execRsweep w s := rfl
@[simp] theorem exec_shmov (w : BWord) (s : State) :
    exec (.shmov w) s = execShmov w s := rfl
@[simp] theorem exec_bufst (w : BWord) (s : State) :
    exec (.bufst w) s = execBufst w s := rfl
@[simp] theorem exec_bufld (w : BWord) (s : State) :
    exec (.bufld w) s = execBufld w s := rfl
@[simp] theorem exec_bli (w : BWord) (s : State) :
    exec (.bli w) s = execBli w s := rfl
@[simp] theorem exec_badd (w : BWord) (s : State) :
    exec (.badd w) s = execBadd w s := rfl
@[simp] theorem exec_bbr (w : BWord) (s : State) :
    exec (.bbr w) s = execBbr w s := rfl
@[simp] theorem exec_bloop (w : BWord) (s : State) :
    exec (.bloop w) s = execBloop w s := rfl
@[simp] theorem exec_bpset (w : BWord) (s : State) :
    exec (.bpset w) s = execBpset w s := rfl
@[simp] theorem exec_bsplit (w : BWord) (s : State) :
    exec (.bsplit w) s = execBsplit w s := rfl
@[simp] theorem exec_bjoin (w : BWord) (s : State) :
    exec (.bjoin w) s = execBjoin w s := rfl
@[simp] theorem exec_bsig (w : BWord) (s : State) :
    exec (.bsig w) s = execBsig w s := rfl
@[simp] theorem exec_bend (w : BWord) (s : State) :
    exec (.bend w) s = execBend w s := rfl
@[simp] theorem exec_bwaitt (w : BWord) (s : State) :
    exec (.bwaitt w) s = execBwaitt w s := rfl
@[simp] theorem exec_brett (w : BWord) (s : State) :
    exec (.brett w) s = execBrett w s := rfl
@[simp] theorem exec_bnop (w : BWord) (s : State) :
    exec (.bnop w) s = execBnop w s := rfl
@[simp] theorem exec_tacuElapsed (bank slot : Nat) (s : State) :
    exec (.tacuElapsed bank slot) s = execTacuElapsed bank slot s := rfl
@[simp] theorem exec_rowPassEnd (bank : Nat) (s : State) :
    exec (.rowPassEnd bank) s = execRowPassEnd bank s := rfl
@[simp] theorem exec_twbkElapsed (bank slot : Nat) (s : State) :
    exec (.twbkElapsed bank slot) s = execTwbkElapsed bank slot s := rfl
@[simp] theorem exec_tpreElapsed (bank slot : Nat) (s : State) :
    exec (.tpreElapsed bank slot) s = execTpreElapsed bank slot s := rfl
@[simp] theorem exec_rcopyComplete (bank slot : Nat) (s : State) :
    exec (.rcopyComplete bank slot) s = execRcopyComplete bank slot s := rfl
@[simp] theorem exec_refbComplete (bank : Nat) (s : State) :
    exec (.refbComplete bank) s = execRefbComplete bank s := rfl
@[simp] theorem exec_busMoveEnd (stream : Nat) (s : State) :
    exec (.busMoveEnd stream) s = execBusMoveEnd stream s := rfl
@[simp] theorem exec_refreshInterval (bank : Nat) (s : State) :
    exec (.refreshInterval bank) s = execRefreshInterval bank s := rfl
@[simp] theorem exec_refreshDeadline (stream : Nat) (s : State) :
    exec (.refreshDeadline stream) s = execRefreshDeadline stream s := rfl
@[simp] theorem exec_forcedRefresh (bank : Nat) (s : State) :
    exec (.forcedRefresh bank) s = execForcedRefresh bank s := rfl
@[simp] theorem exec_plinthRefresh (bank : Nat) (s : State) :
    exec (.plinthRefresh bank) s = execPlinthRefresh bank s := rfl
@[simp] theorem exec_ordinaryAccess (bank group row : Nat) (s : State) :
    exec (.ordinaryAccess bank group row) s = execOrdinaryAccess bank group row s := rfl
@[simp] theorem exec_streamYield (stream : Nat) (s : State) :
    exec (.streamYield stream) s = execStreamYield stream s := rfl
@[simp] theorem exec_yieldEnd (stream : Nat) (s : State) :
    exec (.yieldEnd stream) s = execYieldEnd stream s := rfl
@[simp] theorem exec_activateHint (bank group row : Nat) (s : State) :
    exec (.activateHint bank group row) s = execActivateHint bank group row s := rfl
@[simp] theorem exec_streamWake (stream : Nat) (s : State) :
    exec (.streamWake stream) s = execStreamWake stream s := rfl
@[simp] theorem exec_streamPark (stream : Nat) (s : State) :
    exec (.streamPark stream) s = execStreamPark stream s := rfl
@[simp] theorem exec_streamResume (stream : Nat) (s : State) :
    exec (.streamResume stream) s = execStreamResume stream s := rfl
@[simp] theorem exec_hartWake (hart : Nat) (s : State) :
    exec (.hartWake hart) s = execHartWake hart s := rfl
@[simp] theorem exec_hartUnstall (hart : Nat) (s : State) :
    exec (.hartUnstall hart) s = execHartUnstall hart s := rfl
@[simp] theorem exec_preempt (hart : Nat) (s : State) :
    exec (.preempt hart) s = execPreempt hart s := rfl
@[simp] theorem exec_preemptionRequest (group : Nat) (s : State) :
    exec (.preemptionRequest group) s = execPreemptionRequest group s := rfl
@[simp] theorem exec_coreRecordSave (group core : Nat) (s : State) :
    exec (.coreRecordSave group core) s = execCoreRecordSave group core s := rfl
@[simp] theorem exec_hartResume (group member core : Nat) (s : State) :
    exec (.hartResume group member core) s = execHartResume group member core s := rfl
@[simp] theorem exec_tilePlacement (ctx queue : Nat) (cores : List Nat) (s : State) :
    exec (.tilePlacement ctx queue cores) s = execTilePlacement ctx queue cores s := rfl
@[simp] theorem exec_queueAging (ctx queue : Nat) (s : State) :
    exec (.queueAging ctx queue) s = execQueueAging ctx queue s := rfl
@[simp] theorem exec_kernelAdmission (ctx queue : Nat) (s : State) :
    exec (.kernelAdmission ctx queue) s = execKernelAdmission ctx queue s := rfl
@[simp] theorem exec_kernelComplete (kernel : Nat) (s : State) :
    exec (.kernelComplete kernel) s = execKernelComplete kernel s := rfl
@[simp] theorem exec_kernelSkipped (kernel : Nat) (s : State) :
    exec (.kernelSkipped kernel) s = execKernelSkipped kernel s := rfl
@[simp] theorem exec_tileHardwareFault (group core : Nat) (coreLost : Bool) (s : State) :
    exec (.tileHardwareFault group core coreLost) s = execTileHardwareFault group core coreLost s := rfl
@[simp] theorem exec_accHandoff (core acc : Nat) (s : State) :
    exec (.accHandoff core acc) s = execAccHandoff core acc s := rfl
@[simp] theorem exec_matrixWordComplete (core : Nat) (s : State) :
    exec (.matrixWordComplete core) s = execMatrixWordComplete core s := rfl
@[simp] theorem exec_gatherDelivered (hart vd : Nat) (s : State) :
    exec (.gatherDelivered hart vd) s = execGatherDelivered hart vd s := rfl
@[simp] theorem exec_transferOpStart (ctx chan num : Nat) (s : State) :
    exec (.transferOpStart ctx chan num) s = execTransferOpStart ctx chan num s := rfl
@[simp] theorem exec_elementGroupLands (ctx chan num : Nat) (s : State) :
    exec (.elementGroupLands ctx chan num) s = execElementGroupLands ctx chan num s := rfl
@[simp] theorem exec_transferOpComplete (ctx chan num : Nat) (s : State) :
    exec (.transferOpComplete ctx chan num) s = execTransferOpComplete ctx chan num s := rfl
@[simp] theorem exec_transferOpFault (ctx chan num : Nat) (s : State) :
    exec (.transferOpFault ctx chan num) s = execTransferOpFault ctx chan num s := rfl
@[simp] theorem exec_lamAdmission (ctx chan num : Nat) (s : State) :
    exec (.lamAdmission ctx chan num) s = execLamAdmission ctx chan num s := rfl
@[simp] theorem exec_lamDeadline (tower entry : Nat) (s : State) :
    exec (.lamDeadline tower entry) s = execLamDeadline tower entry s := rfl
@[simp] theorem exec_lamComputeStart (tower entry : Nat) (s : State) :
    exec (.lamComputeStart tower entry) s = execLamComputeStart tower entry s := rfl
@[simp] theorem exec_lamWeightFault (tower entry : Nat) (s : State) :
    exec (.lamWeightFault tower entry) s = execLamWeightFault tower entry s := rfl
@[simp] theorem exec_lamComputeEnd (tower entry : Nat) (s : State) :
    exec (.lamComputeEnd tower entry) s = execLamComputeEnd tower entry s := rfl
@[simp] theorem exec_lamSplitComplete (tower entry : Nat) (s : State) :
    exec (.lamSplitComplete tower entry) s = execLamSplitComplete tower entry s := rfl
@[simp] theorem exec_createContext (addr : BitVec 58) (s : State) :
    exec (.createContext addr) s = execCreateContext addr s := rfl
@[simp] theorem exec_enableQueue (addr : BitVec 58) (s : State) :
    exec (.enableQueue addr) s = execEnableQueue addr s := rfl
@[simp] theorem exec_disableQueue (addr : BitVec 58) (s : State) :
    exec (.disableQueue addr) s = execDisableQueue addr s := rfl
@[simp] theorem exec_suspendContext (addr : BitVec 58) (s : State) :
    exec (.suspendContext addr) s = execSuspendContext addr s := rfl
@[simp] theorem exec_resumeContext (addr : BitVec 58) (s : State) :
    exec (.resumeContext addr) s = execResumeContext addr s := rfl
@[simp] theorem exec_clearContextFault (addr : BitVec 58) (s : State) :
    exec (.clearContextFault addr) s = execClearContextFault addr s := rfl
@[simp] theorem exec_destroyContext (addr : BitVec 58) (s : State) :
    exec (.destroyContext addr) s = execDestroyContext addr s := rfl
@[simp] theorem exec_ringNotify (addr : BitVec 58) (s : State) :
    exec (.ringNotify addr) s = execRingNotify addr s := rfl
@[simp] theorem exec_tlbinvVa (ctx : BitVec 16) (s : State) :
    exec (.tlbinvVa ctx) s = execTlbinvVa ctx s := rfl
@[simp] theorem exec_tlbinvAll (ctx : BitVec 16) (s : State) :
    exec (.tlbinvAll ctx) s = execTlbinvAll ctx s := rfl
@[simp] theorem exec_tlbinvDone (s : State) :
    exec (.tlbinvDone) s = execTlbinvDone s := rfl
@[simp] theorem exec_acctrSelect (s : State) :
    exec (.acctrSelect) s = execAcctrSelect s := rfl
@[simp] theorem exec_acctrClear (s : State) :
    exec (.acctrClear) s = execAcctrClear s := rfl
@[simp] theorem exec_remapRetireBank (tower : BitVec 3) (pc : BitVec 6) (bank : BitVec 4) (s : State) :
    exec (.remapRetireBank tower pc bank) s = execRemapRetireBank tower pc bank s := rfl
@[simp] theorem exec_remapSetFloor (tower : BitVec 3) (floor : BitVec 12) (s : State) :
    exec (.remapSetFloor tower floor) s = execRemapSetFloor tower floor s := rfl
@[simp] theorem exec_remapDone (s : State) :
    exec (.remapDone) s = execRemapDone s := rfl
@[simp] theorem exec_hosterrClear (s : State) :
    exec (.hosterrClear) s = execHosterrClear s := rfl
@[simp] theorem exec_podidWrite (v : Word) (s : State) :
    exec (.podidWrite v) s = execPodidWrite v s := rfl
@[simp] theorem exec_registerWrite (mgmt : Bool) (off : Nat) (v : Word) (s : State) :
    exec (.registerWrite mgmt off v) s = execRegisterWrite mgmt off v s := rfl
@[simp] theorem exec_hostBar2Read (addr len : Nat) (s : State) :
    exec (.hostBar2Read addr len) s = execHostBar2Read addr len s := rfl
@[simp] theorem exec_hostBar2Write (addr : Nat) (data : List Byte) (s : State) :
    exec (.hostBar2Write addr data) s = execHostBar2Write addr data s := rfl
@[simp] theorem exec_poolPortUp (port width size : Nat) (s : State) :
    exec (.poolPortUp port width size) s = execPoolPortUp port width size s := rfl
@[simp] theorem exec_poolPortDown (port : Nat) (s : State) :
    exec (.poolPortDown port) s = execPoolPortDown port s := rfl
@[simp] theorem exec_ulportEnable (port : Nat) (s : State) :
    exec (.ulportEnable port) s = execUlportEnable port s := rfl
@[simp] theorem exec_ulportDrain (port : Nat) (s : State) :
    exec (.ulportDrain port) s = execUlportDrain port s := rfl
@[simp] theorem exec_ulportRetireLane (port : Nat) (lane : BitVec 2) (s : State) :
    exec (.ulportRetireLane port lane) s = execUlportRetireLane port lane s := rfl
@[simp] theorem exec_laneTrainingDone (port : Nat) (lanes : BitVec 4) (peer : BitVec 11) (peerPort : BitVec 6) (s : State) :
    exec (.laneTrainingDone port lanes peer peerPort) s = execLaneTrainingDone port lanes peer peerPort s := rfl
@[simp] theorem exec_laneErrorThreshold (port : Nat) (lane : BitVec 2) (s : State) :
    exec (.laneErrorThreshold port lane) s = execLaneErrorThreshold port lane s := rfl
@[simp] theorem exec_partnerLost (port : Nat) (s : State) :
    exec (.partnerLost port) s = execPartnerLost port s := rfl
@[simp] theorem exec_portDrained (port : Nat) (s : State) :
    exec (.portDrained port) s = execPortDrained port s := rfl
@[simp] theorem exec_flitReceived (port : Nat) (flit : Flit) (s : State) :
    exec (.flitReceived port flit) s = execFlitReceived port flit s := rfl
@[simp] theorem exec_podRequestReceived (peer addr : Nat) (op : PodOp) (s : State) :
    exec (.podRequestReceived peer addr op) s = execPodRequestReceived peer addr op s := rfl
@[simp] theorem exec_podResponseReceived (peer req : Nat) (reply : PodReply) (s : State) :
    exec (.podResponseReceived peer req reply) s = execPodResponseReceived peer req reply s := rfl
@[simp] theorem exec_laneRateChange (core : Nat) (half : Bool) (s : State) :
    exec (.laneRateChange core half) s = execLaneRateChange core half s := rfl
@[simp] theorem exec_voltageDroop (core : Nat) (s : State) :
    exec (.voltageDroop core) s = execVoltageDroop core s := rfl
@[simp] theorem exec_wayGate (tower : Nat) (s : State) :
    exec (.wayGate tower) s = execWayGate tower s := rfl
@[simp] theorem exec_wayEnable (tower : Nat) (s : State) :
    exec (.wayEnable tower) s = execWayEnable tower s := rfl
@[simp] theorem exec_hotTrip (die col : Nat) (s : State) :
    exec (.hotTrip die col) s = execHotTrip die col s := rfl
@[simp] theorem exec_hotClear (die col : Nat) (s : State) :
    exec (.hotClear die col) s = execHotClear die col s := rfl
@[simp] theorem exec_throttleTrip (die col : Nat) (s : State) :
    exec (.throttleTrip die col) s = execThrottleTrip die col s := rfl
@[simp] theorem exec_throttleClear (die col : Nat) (s : State) :
    exec (.throttleClear die col) s = execThrottleClear die col s := rfl
@[simp] theorem exec_critTrip (die col : Nat) (s : State) :
    exec (.critTrip die col) s = execCritTrip die col s := rfl
@[simp] theorem exec_supplyLoss (s : State) :
    exec (.supplyLoss) s = execSupplyLoss s := rfl
@[simp] theorem exec_hardPowerOff (s : State) :
    exec (.hardPowerOff) s = execHardPowerOff s := rfl
@[simp] theorem exec_watchdogExpiry (s : State) :
    exec (.watchdogExpiry) s = execWatchdogExpiry s := rfl
@[simp] theorem exec_bistGo (tower : BitVec 3) (pc : BitVec 6) (bank : BitVec 4) (s : State) :
    exec (.bistGo tower pc bank) s = execBistGo tower pc bank s := rfl
@[simp] theorem exec_bistDone (pass : Bool) (s : State) :
    exec (.bistDone pass) s = execBistDone pass s := rfl
@[simp] theorem exec_fwCommit (s : State) :
    exec (.fwCommit) s = execFwCommit s := rfl
@[simp] theorem exec_fwAttest (s : State) :
    exec (.fwAttest) s = execFwAttest s := rfl
@[simp] theorem exec_fwBootromRestore (s : State) :
    exec (.fwBootromRestore) s = execFwBootromRestore s := rfl
@[simp] theorem exec_deviceReset (s : State) :
    exec (.deviceReset) s = execDeviceReset s := rfl
@[simp] theorem exec_taprElapsed (bank slot : Nat) (s : State) :
    exec (.taprElapsed bank slot) s = execTaprElapsed bank slot s := rfl
@[simp] theorem exec_taadElapsed (bank : Nat) (s : State) :
    exec (.taadElapsed bank) s = execTaadElapsed bank s := rfl
@[simp] theorem exec_tfawWindowElapsed (tower pc : Nat) (s : State) :
    exec (.tfawWindowElapsed tower pc) s = execTfawWindowElapsed tower pc s := rfl
@[simp] theorem exec_yieldRowCopyEnd (bank : Nat) (s : State) :
    exec (.yieldRowCopyEnd bank) s = execYieldRowCopyEnd bank s := rfl
@[simp] theorem exec_plinthBufferCrossingEnd (tower entry : Nat) (s : State) :
    exec (.plinthBufferCrossingEnd tower entry) s = execPlinthBufferCrossingEnd tower entry s := rfl

end Sys2Proof.Machine
end

