-- ==== Sys2Proof/Laws/Maps.lean ====
section
/-! SUPPORT. Laws of the sparse tables and of memory: what a read gives after a write, and that every operation keeps
the canonical form. -/
namespace Sys2Proof.Machine

variable {α : Type}

@[simp] theorem NatMap.get?_set_self (m : NatMap α) (k : Nat) (a : α) : (m.set k a).get? k = some a := by
  induction m with
  | nil => simp [NatMap.set, NatMap.get?]
  | cons p t ih =>
    obtain ⟨j, b⟩ := p
    simp only [NatMap.set]
    split
    · simp [NatMap.get?]
    · split
      · simp [NatMap.get?]
      · rename_i h1 h2
        have : j ≠ k := fun h => h2 h.symm
        simp [NatMap.get?, this, ih]

theorem NatMap.get?_set_ne (m : NatMap α) {k j : Nat} (a : α) (h : j ≠ k) : (m.set k a).get? j = m.get? j := by
  induction m with
  | nil => simp [NatMap.set, NatMap.get?, h.symm]
  | cons p t ih =>
    obtain ⟨i, b⟩ := p
    simp only [NatMap.set]
    split
    · simp [NatMap.get?, h.symm]
    · split
      · rename_i h2
        simp [NatMap.get?, ← h2, h.symm]
      · by_cases hi : i = j
        · simp [NatMap.get?, hi]
        · simp [NatMap.get?, hi, ih]

@[simp] theorem NatMap.set_set (m : NatMap α) (k : Nat) (a b : α) : (m.set k a).set k b = m.set k b := by
  induction m with
  | nil => simp [NatMap.set]
  | cons p t ih =>
    obtain ⟨j, c⟩ := p
    simp only [NatMap.set]
    split
    · simp [NatMap.set]
    · split
      · simp [NatMap.set]
      · rename_i h1 h2
        simp [NatMap.set, h1, h2, ih]

@[simp] theorem NatMap.getD_set_self (m : NatMap α) (k : Nat) (a d : α) : (m.set k a).getD k d = a := by
  simp [NatMap.getD]

theorem NatMap.getD_set_ne (m : NatMap α) {k j : Nat} (a d : α) (h : j ≠ k) : (m.set k a).getD j d = m.getD j d := by
  simp [NatMap.getD, NatMap.get?_set_ne m a h]

theorem NatMap.risingFrom_mono {m : NatMap α} {lo lo' : Nat} (h : lo' ≤ lo) (w : m.risingFrom lo = true) :
    m.risingFrom lo' = true := by
  cases m with
  | nil => rfl
  | cons p t =>
    simp only [NatMap.risingFrom, Bool.and_eq_true, decide_eq_true_eq] at w ⊢
    exact ⟨by omega, w.2⟩

theorem NatMap.risingFrom_set (m : NatMap α) {lo k : Nat} (a : α) (h : lo ≤ k) (w : m.risingFrom lo = true) :
    (m.set k a).risingFrom lo = true := by
  induction m generalizing lo with
  | nil => simp [NatMap.set, NatMap.risingFrom, h]
  | cons p t ih =>
    obtain ⟨j, b⟩ := p
    simp only [NatMap.risingFrom, Bool.and_eq_true, decide_eq_true_eq] at w
    simp only [NatMap.set]
    split
    · simp only [NatMap.risingFrom, Bool.and_eq_true, decide_eq_true_eq]
      exact ⟨h, by omega, w.2⟩
    · split
      · rename_i hk
        subst hk
        simp only [NatMap.risingFrom, Bool.and_eq_true, decide_eq_true_eq]
        exact w
      · simp only [NatMap.risingFrom, Bool.and_eq_true, decide_eq_true_eq]
        exact ⟨w.1, ih (by omega) w.2⟩

theorem NatMap.risingFrom_erase (m : NatMap α) {lo k : Nat} (w : m.risingFrom lo = true) :
    (m.erase k).risingFrom lo = true := by
  induction m generalizing lo with
  | nil => rfl
  | cons p t ih =>
    obtain ⟨j, b⟩ := p
    simp only [NatMap.risingFrom, Bool.and_eq_true, decide_eq_true_eq] at w
    simp only [NatMap.erase]
    split
    · exact NatMap.risingFrom_mono (by omega) w.2
    · simp only [NatMap.risingFrom, Bool.and_eq_true, decide_eq_true_eq]
      exact ⟨w.1, ih w.2⟩

/-- Setting a key keeps a table canonical. -/
theorem NatMap.wf_set (m : NatMap α) (k : Nat) (a : α) (w : m.wf = true) : (m.set k a).wf = true :=
  NatMap.risingFrom_set m a (Nat.zero_le k) w

/-- Erasing a key keeps a table canonical. -/
theorem NatMap.wf_erase (m : NatMap α) (k : Nat) (w : m.wf = true) : (m.erase k).wf = true :=
  NatMap.risingFrom_erase m w

theorem NatMap.mem_set (m : NatMap α) {k : Nat} {a : α} {p : Nat × α} (h : p ∈ m.set k a) : p = (k, a) ∨ p ∈ m := by
  induction m with
  | nil => simpa [NatMap.set] using h
  | cons q t ih =>
    obtain ⟨j, b⟩ := q
    simp only [NatMap.set] at h
    split at h
    · simpa using h
    · split at h
      · rcases List.mem_cons.1 h with h | h
        · exact .inl h
        · exact .inr (List.mem_cons_of_mem _ h)
      · rcases List.mem_cons.1 h with h | h
        · exact .inr (h ▸ List.mem_cons_self)
        · exact (ih h).imp id (List.mem_cons_of_mem _)

theorem NatMap.mem_erase (m : NatMap α) {k : Nat} {p : Nat × α} (h : p ∈ m.erase k) : p ∈ m := by
  induction m with
  | nil => exact h
  | cons q t ih =>
    obtain ⟨j, b⟩ := q
    simp only [NatMap.erase] at h
    split at h
    · exact List.mem_cons_of_mem _ h
    · rcases List.mem_cons.1 h with h | h
      · exact h ▸ List.mem_cons_self
      · exact List.mem_cons_of_mem _ (ih h)

/-- Writing a byte keeps memory canonical. -/
theorem memWf_memWrite (m : List Host.Cell) (k : Nat) (b : Byte) (w : memWf m = true) :
    memWf (memWrite m k b) = true := by
  simp only [memWf, Bool.and_eq_true, List.all_eq_true, bne_iff_ne] at w ⊢
  unfold memWrite
  split
  · exact ⟨NatMap.wf_erase _ k w.1, fun p h => w.2 p (NatMap.mem_erase _ h)⟩
  · refine ⟨NatMap.wf_set _ k b w.1, fun p h => ?_⟩
    rcases NatMap.mem_set _ h with h | h
    · subst h; assumption
    · exact w.2 p h

theorem NatMap.get?_of_risingFrom (m : NatMap α) {lo k : Nat} (w : m.risingFrom lo = true) (h : k < lo) :
    m.get? k = none := by
  induction m generalizing lo with
  | nil => rfl
  | cons p t ih =>
    obtain ⟨j, b⟩ := p
    simp only [NatMap.risingFrom, Bool.and_eq_true, decide_eq_true_eq] at w
    have : j ≠ k := by omega
    simp [NatMap.get?, this, ih w.2 (by omega)]

theorem NatMap.get?_erase_self (m : NatMap α) {lo k : Nat} (w : m.risingFrom lo = true) : (m.erase k).get? k = none := by
  induction m generalizing lo with
  | nil => rfl
  | cons p t ih =>
    obtain ⟨j, b⟩ := p
    simp only [NatMap.risingFrom, Bool.and_eq_true, decide_eq_true_eq] at w
    simp only [NatMap.erase]
    split
    · rename_i h
      subst h
      exact NatMap.get?_of_risingFrom t w.2 (by omega)
    · rename_i h
      simp [NatMap.get?, h, ih w.2]

theorem NatMap.get?_erase_ne (m : NatMap α) {j k : Nat} (h : j ≠ k) : (m.erase k).get? j = m.get? j := by
  induction m with
  | nil => rfl
  | cons p t ih =>
    obtain ⟨i, b⟩ := p
    simp only [NatMap.erase]
    split
    · rename_i hi
      simp [NatMap.get?, hi, h.symm]
    · by_cases hi : i = j
      · simp [NatMap.get?, hi]
      · simp [NatMap.get?, hi, ih]

/-- A read after a write to the same byte. -/
theorem memRead_memWrite_self (m : List Host.Cell) (k : Nat) (b : Byte) (w : memWf m = true) :
    memRead (memWrite m k b) k = b := by
  simp only [memWf, Bool.and_eq_true] at w
  unfold memRead memWrite NatMap.getD
  split
  · rename_i h; rw [NatMap.get?_erase_self m w.1]; simp [h]
  · simp

/-- A write leaves every other byte alone. -/
theorem memRead_memWrite_ne (m : List Host.Cell) {j k : Nat} (b : Byte) (h : j ≠ k) :
    memRead (memWrite m k b) j = memRead m j := by
  unfold memRead memWrite NatMap.getD
  split
  · rw [NatMap.get?_erase_ne m h]
  · rw [NatMap.get?_set_ne m b h]

/-- Reading back the bytes of a number. -/
theorem ofBytes_toBytes (n v : Nat) : ofBytes (toBytes n v) = v % 256 ^ n := by
  induction n generalizing v with
  | zero => simp [toBytes, ofBytes, Nat.mod_one]
  | succ n ih =>
    have h : (BitVec.ofNat 8 v).toNat = v % 256 := BitVec.toNat_ofNat v 8
    rw [toBytes, ofBytes, ih, h, Nat.pow_succ', Nat.mod_mul]

@[simp] theorem length_toBytes (n v : Nat) : (toBytes n v).length = n := by
  induction n generalizing v with
  | zero => rfl
  | succ n ih => simp [toBytes, ih]

end Sys2Proof.Machine
end

