-- ==== Sys2Proof/Laws/State.lean ====
section
/-! SUPPORT. What each update of State leaves in each field, and what its readers find afterwards. -/
namespace Sys2Proof.Machine

/-! ## State.setHart -/

@[simp] theorem State.setHart_variant (s : State) (k : Nat) (h : Hart) : (s.setHart k h).variant = s.variant := rfl
@[simp] theorem State.setHart_mem (s : State) (k : Nat) (h : Hart) : (s.setHart k h).mem = s.mem := rfl
@[simp] theorem State.setHart_bad (s : State) (k : Nat) (h : Hart) : (s.setHart k h).bad = s.bad := rfl
@[simp] theorem State.setHart_harts (s : State) (k : Nat) (h : Hart) : (s.setHart k h).harts = s.harts.set k h := rfl
@[simp] theorem State.setHart_cores (s : State) (k : Nat) (h : Hart) : (s.setHart k h).cores = s.cores := rfl
@[simp] theorem State.setHart_banks (s : State) (k : Nat) (h : Hart) : (s.setHart k h).banks = s.banks := rfl
@[simp] theorem State.setHart_streams (s : State) (k : Nat) (h : Hart) : (s.setHart k h).streams = s.streams := rfl
@[simp] theorem State.setHart_towers (s : State) (k : Nat) (h : Hart) : (s.setHart k h).towers = s.towers := rfl
@[simp] theorem State.setHart_ctxs (s : State) (k : Nat) (h : Hart) : (s.setHart k h).ctxs = s.ctxs := rfl
@[simp] theorem State.setHart_kernels (s : State) (k : Nat) (h : Hart) : (s.setHart k h).kernels = s.kernels := rfl
@[simp] theorem State.setHart_groups (s : State) (k : Nat) (h : Hart) : (s.setHart k h).groups = s.groups := rfl
@[simp] theorem State.setHart_fresh (s : State) (k : Nat) (h : Hart) : (s.setHart k h).fresh = s.fresh := rfl
@[simp] theorem State.setHart_rotation (s : State) (k : Nat) (h : Hart) : (s.setHart k h).rotation = s.rotation := rfl
@[simp] theorem State.setHart_keptCores (s : State) (k : Nat) (h : Hart) : (s.setHart k h).keptCores = s.keptCores := rfl
@[simp] theorem State.setHart_keptBanks (s : State) (k : Nat) (h : Hart) : (s.setHart k h).keptBanks = s.keptBanks := rfl
@[simp] theorem State.setHart_host (s : State) (k : Nat) (h : Hart) : (s.setHart k h).host = s.host := rfl
@[simp] theorem State.setHart_ulports (s : State) (k : Nat) (h : Hart) : (s.setHart k h).ulports = s.ulports := rfl
@[simp] theorem State.setHart_poolports (s : State) (k : Nat) (h : Hart) : (s.setHart k h).poolports = s.poolports := rfl
@[simp] theorem State.setHart_svc (s : State) (k : Nat) (h : Hart) : (s.setHart k h).svc = s.svc := rfl
@[simp] theorem State.setHart_raised (s : State) (k : Nat) (h : Hart) : (s.setHart k h).raised = s.raised := rfl
@[simp] theorem State.setHart_counters (s : State) (k : Nat) (h : Hart) : (s.setHart k h).counters = s.counters := rfl
@[simp] theorem State.setHart_pod (s : State) (k : Nat) (h : Hart) : (s.setHart k h).pod = s.pod := rfl
@[simp] theorem State.setHart_podOut (s : State) (k : Nat) (h : Hart) : (s.setHart k h).podOut = s.podOut := rfl
@[simp] theorem State.setHart_lostAt (s : State) (k : Nat) (h : Hart) : (s.setHart k h).lostAt = s.lostAt := rfl
@[simp] theorem State.setHart_poolAt (s : State) (k : Nat) (h : Hart) : (s.setHart k h).poolAt = s.poolAt := rfl
@[simp] theorem State.setHart_hostData (s : State) (k : Nat) (h : Hart) : (s.setHart k h).hostData = s.hostData := rfl
@[simp] theorem State.setHart_cur (s : State) (k : Nat) (h : Hart) : (s.setHart k h).cur = s.cur := rfl
@[simp] theorem State.setHart_agenda (s : State) (k : Nat) (h : Hart) : (s.setHart k h).agenda = s.agenda := rfl
@[simp] theorem State.setHart_rounds (s : State) (k : Nat) (h : Hart) : (s.setHart k h).rounds = s.rounds := rfl
@[simp] theorem State.setHart_free (s : State) (k : Nat) (h : Hart) : (s.setHart k h).free = s.free := rfl
@[simp] theorem State.setHart_setHart (s : State) (k : Nat) (h h2 : Hart) : (s.setHart k h).setHart k h2 = s.setHart k h2 := by
  simp [State.setHart]
@[simp] theorem State.hart_setHart (s : State) (k : Nat) (h : Hart) : (s.setHart k h).hart k = h := by simp [State.hart]
theorem State.hart_setHart_ne (s : State) {j k : Nat} (h : Hart) (e : j ≠ k) : (s.setHart k h).hart j = s.hart j := by
  simp [State.hart, NatMap.getD_set_ne _ _ _ e]
@[simp] theorem State.core_setHart (s : State) (k : Nat) (h : Hart) (n : Nat) : (s.setHart k h).core n = s.core n := rfl
@[simp] theorem State.bank_setHart (s : State) (k : Nat) (h : Hart) (n : Nat) : (s.setHart k h).bank n = s.bank n := rfl
@[simp] theorem State.stream_setHart (s : State) (k : Nat) (h : Hart) (n : Nat) : (s.setHart k h).stream n = s.stream n := rfl
@[simp] theorem State.tower_setHart (s : State) (k : Nat) (h : Hart) (n : Nat) : (s.setHart k h).tower n = s.tower n := rfl

/-! ## State.setCore -/

@[simp] theorem State.setCore_variant (s : State) (c : Nat) (x : Core) : (s.setCore c x).variant = s.variant := rfl
@[simp] theorem State.setCore_mem (s : State) (c : Nat) (x : Core) : (s.setCore c x).mem = s.mem := rfl
@[simp] theorem State.setCore_bad (s : State) (c : Nat) (x : Core) : (s.setCore c x).bad = s.bad := rfl
@[simp] theorem State.setCore_harts (s : State) (c : Nat) (x : Core) : (s.setCore c x).harts = s.harts := rfl
@[simp] theorem State.setCore_cores (s : State) (c : Nat) (x : Core) : (s.setCore c x).cores = s.cores.set c x := rfl
@[simp] theorem State.setCore_banks (s : State) (c : Nat) (x : Core) : (s.setCore c x).banks = s.banks := rfl
@[simp] theorem State.setCore_streams (s : State) (c : Nat) (x : Core) : (s.setCore c x).streams = s.streams := rfl
@[simp] theorem State.setCore_towers (s : State) (c : Nat) (x : Core) : (s.setCore c x).towers = s.towers := rfl
@[simp] theorem State.setCore_ctxs (s : State) (c : Nat) (x : Core) : (s.setCore c x).ctxs = s.ctxs := rfl
@[simp] theorem State.setCore_kernels (s : State) (c : Nat) (x : Core) : (s.setCore c x).kernels = s.kernels := rfl
@[simp] theorem State.setCore_groups (s : State) (c : Nat) (x : Core) : (s.setCore c x).groups = s.groups := rfl
@[simp] theorem State.setCore_fresh (s : State) (c : Nat) (x : Core) : (s.setCore c x).fresh = s.fresh := rfl
@[simp] theorem State.setCore_rotation (s : State) (c : Nat) (x : Core) : (s.setCore c x).rotation = s.rotation := rfl
@[simp] theorem State.setCore_keptCores (s : State) (c : Nat) (x : Core) : (s.setCore c x).keptCores = s.keptCores := rfl
@[simp] theorem State.setCore_keptBanks (s : State) (c : Nat) (x : Core) : (s.setCore c x).keptBanks = s.keptBanks := rfl
@[simp] theorem State.setCore_host (s : State) (c : Nat) (x : Core) : (s.setCore c x).host = s.host := rfl
@[simp] theorem State.setCore_ulports (s : State) (c : Nat) (x : Core) : (s.setCore c x).ulports = s.ulports := rfl
@[simp] theorem State.setCore_poolports (s : State) (c : Nat) (x : Core) : (s.setCore c x).poolports = s.poolports := rfl
@[simp] theorem State.setCore_svc (s : State) (c : Nat) (x : Core) : (s.setCore c x).svc = s.svc := rfl
@[simp] theorem State.setCore_raised (s : State) (c : Nat) (x : Core) : (s.setCore c x).raised = s.raised := rfl
@[simp] theorem State.setCore_counters (s : State) (c : Nat) (x : Core) : (s.setCore c x).counters = s.counters := rfl
@[simp] theorem State.setCore_pod (s : State) (c : Nat) (x : Core) : (s.setCore c x).pod = s.pod := rfl
@[simp] theorem State.setCore_podOut (s : State) (c : Nat) (x : Core) : (s.setCore c x).podOut = s.podOut := rfl
@[simp] theorem State.setCore_lostAt (s : State) (c : Nat) (x : Core) : (s.setCore c x).lostAt = s.lostAt := rfl
@[simp] theorem State.setCore_poolAt (s : State) (c : Nat) (x : Core) : (s.setCore c x).poolAt = s.poolAt := rfl
@[simp] theorem State.setCore_hostData (s : State) (c : Nat) (x : Core) : (s.setCore c x).hostData = s.hostData := rfl
@[simp] theorem State.setCore_cur (s : State) (c : Nat) (x : Core) : (s.setCore c x).cur = s.cur := rfl
@[simp] theorem State.setCore_agenda (s : State) (c : Nat) (x : Core) : (s.setCore c x).agenda = s.agenda := rfl
@[simp] theorem State.setCore_rounds (s : State) (c : Nat) (x : Core) : (s.setCore c x).rounds = s.rounds := rfl
@[simp] theorem State.setCore_free (s : State) (c : Nat) (x : Core) : (s.setCore c x).free = s.free := rfl
@[simp] theorem State.setCore_setCore (s : State) (c : Nat) (x x2 : Core) : (s.setCore c x).setCore c x2 = s.setCore c x2 := by
  simp [State.setCore]
@[simp] theorem State.core_setCore (s : State) (c : Nat) (x : Core) : (s.setCore c x).core c = x := by simp [State.core]
theorem State.core_setCore_ne (s : State) {j c : Nat} (x : Core) (h : j ≠ c) : (s.setCore c x).core j = s.core j := by
  simp [State.core, NatMap.getD_set_ne _ _ _ h]
@[simp] theorem State.hart_setCore (s : State) (c : Nat) (x : Core) (n : Nat) : (s.setCore c x).hart n = s.hart n := rfl
@[simp] theorem State.bank_setCore (s : State) (c : Nat) (x : Core) (n : Nat) : (s.setCore c x).bank n = s.bank n := rfl
@[simp] theorem State.stream_setCore (s : State) (c : Nat) (x : Core) (n : Nat) : (s.setCore c x).stream n = s.stream n := rfl
@[simp] theorem State.tower_setCore (s : State) (c : Nat) (x : Core) (n : Nat) : (s.setCore c x).tower n = s.tower n := rfl

/-! ## State.setBank -/

@[simp] theorem State.setBank_variant (s : State) (b : Nat) (x : Bank) : (s.setBank b x).variant = s.variant := rfl
@[simp] theorem State.setBank_mem (s : State) (b : Nat) (x : Bank) : (s.setBank b x).mem = s.mem := rfl
@[simp] theorem State.setBank_bad (s : State) (b : Nat) (x : Bank) : (s.setBank b x).bad = s.bad := rfl
@[simp] theorem State.setBank_harts (s : State) (b : Nat) (x : Bank) : (s.setBank b x).harts = s.harts := rfl
@[simp] theorem State.setBank_cores (s : State) (b : Nat) (x : Bank) : (s.setBank b x).cores = s.cores := rfl
@[simp] theorem State.setBank_banks (s : State) (b : Nat) (x : Bank) : (s.setBank b x).banks = s.banks.set b x := rfl
@[simp] theorem State.setBank_streams (s : State) (b : Nat) (x : Bank) : (s.setBank b x).streams = s.streams := rfl
@[simp] theorem State.setBank_towers (s : State) (b : Nat) (x : Bank) : (s.setBank b x).towers = s.towers := rfl
@[simp] theorem State.setBank_ctxs (s : State) (b : Nat) (x : Bank) : (s.setBank b x).ctxs = s.ctxs := rfl
@[simp] theorem State.setBank_kernels (s : State) (b : Nat) (x : Bank) : (s.setBank b x).kernels = s.kernels := rfl
@[simp] theorem State.setBank_groups (s : State) (b : Nat) (x : Bank) : (s.setBank b x).groups = s.groups := rfl
@[simp] theorem State.setBank_fresh (s : State) (b : Nat) (x : Bank) : (s.setBank b x).fresh = s.fresh := rfl
@[simp] theorem State.setBank_rotation (s : State) (b : Nat) (x : Bank) : (s.setBank b x).rotation = s.rotation := rfl
@[simp] theorem State.setBank_keptCores (s : State) (b : Nat) (x : Bank) : (s.setBank b x).keptCores = s.keptCores := rfl
@[simp] theorem State.setBank_keptBanks (s : State) (b : Nat) (x : Bank) : (s.setBank b x).keptBanks = s.keptBanks := rfl
@[simp] theorem State.setBank_host (s : State) (b : Nat) (x : Bank) : (s.setBank b x).host = s.host := rfl
@[simp] theorem State.setBank_ulports (s : State) (b : Nat) (x : Bank) : (s.setBank b x).ulports = s.ulports := rfl
@[simp] theorem State.setBank_poolports (s : State) (b : Nat) (x : Bank) : (s.setBank b x).poolports = s.poolports := rfl
@[simp] theorem State.setBank_svc (s : State) (b : Nat) (x : Bank) : (s.setBank b x).svc = s.svc := rfl
@[simp] theorem State.setBank_raised (s : State) (b : Nat) (x : Bank) : (s.setBank b x).raised = s.raised := rfl
@[simp] theorem State.setBank_counters (s : State) (b : Nat) (x : Bank) : (s.setBank b x).counters = s.counters := rfl
@[simp] theorem State.setBank_pod (s : State) (b : Nat) (x : Bank) : (s.setBank b x).pod = s.pod := rfl
@[simp] theorem State.setBank_podOut (s : State) (b : Nat) (x : Bank) : (s.setBank b x).podOut = s.podOut := rfl
@[simp] theorem State.setBank_lostAt (s : State) (b : Nat) (x : Bank) : (s.setBank b x).lostAt = s.lostAt := rfl
@[simp] theorem State.setBank_poolAt (s : State) (b : Nat) (x : Bank) : (s.setBank b x).poolAt = s.poolAt := rfl
@[simp] theorem State.setBank_hostData (s : State) (b : Nat) (x : Bank) : (s.setBank b x).hostData = s.hostData := rfl
@[simp] theorem State.setBank_cur (s : State) (b : Nat) (x : Bank) : (s.setBank b x).cur = s.cur := rfl
@[simp] theorem State.setBank_agenda (s : State) (b : Nat) (x : Bank) : (s.setBank b x).agenda = s.agenda := rfl
@[simp] theorem State.setBank_rounds (s : State) (b : Nat) (x : Bank) : (s.setBank b x).rounds = s.rounds := rfl
@[simp] theorem State.setBank_free (s : State) (b : Nat) (x : Bank) : (s.setBank b x).free = s.free := rfl
@[simp] theorem State.setBank_setBank (s : State) (b : Nat) (x x2 : Bank) : (s.setBank b x).setBank b x2 = s.setBank b x2 := by
  simp [State.setBank]
@[simp] theorem State.bank_setBank (s : State) (b : Nat) (x : Bank) : (s.setBank b x).bank b = x := by simp [State.bank]
theorem State.bank_setBank_ne (s : State) {j b : Nat} (x : Bank) (h : j ≠ b) : (s.setBank b x).bank j = s.bank j := by
  simp [State.bank, NatMap.getD_set_ne _ _ _ h]
@[simp] theorem State.hart_setBank (s : State) (b : Nat) (x : Bank) (n : Nat) : (s.setBank b x).hart n = s.hart n := rfl
@[simp] theorem State.core_setBank (s : State) (b : Nat) (x : Bank) (n : Nat) : (s.setBank b x).core n = s.core n := rfl
@[simp] theorem State.stream_setBank (s : State) (b : Nat) (x : Bank) (n : Nat) : (s.setBank b x).stream n = s.stream n := rfl
@[simp] theorem State.tower_setBank (s : State) (b : Nat) (x : Bank) (n : Nat) : (s.setBank b x).tower n = s.tower n := rfl

/-! ## State.setStream -/

@[simp] theorem State.setStream_variant (s : State) (i : Nat) (x : Stream) : (s.setStream i x).variant = s.variant := rfl
@[simp] theorem State.setStream_mem (s : State) (i : Nat) (x : Stream) : (s.setStream i x).mem = s.mem := rfl
@[simp] theorem State.setStream_bad (s : State) (i : Nat) (x : Stream) : (s.setStream i x).bad = s.bad := rfl
@[simp] theorem State.setStream_harts (s : State) (i : Nat) (x : Stream) : (s.setStream i x).harts = s.harts := rfl
@[simp] theorem State.setStream_cores (s : State) (i : Nat) (x : Stream) : (s.setStream i x).cores = s.cores := rfl
@[simp] theorem State.setStream_banks (s : State) (i : Nat) (x : Stream) : (s.setStream i x).banks = s.banks := rfl
@[simp] theorem State.setStream_streams (s : State) (i : Nat) (x : Stream) : (s.setStream i x).streams = s.streams.set i x := rfl
@[simp] theorem State.setStream_towers (s : State) (i : Nat) (x : Stream) : (s.setStream i x).towers = s.towers := rfl
@[simp] theorem State.setStream_ctxs (s : State) (i : Nat) (x : Stream) : (s.setStream i x).ctxs = s.ctxs := rfl
@[simp] theorem State.setStream_kernels (s : State) (i : Nat) (x : Stream) : (s.setStream i x).kernels = s.kernels := rfl
@[simp] theorem State.setStream_groups (s : State) (i : Nat) (x : Stream) : (s.setStream i x).groups = s.groups := rfl
@[simp] theorem State.setStream_fresh (s : State) (i : Nat) (x : Stream) : (s.setStream i x).fresh = s.fresh := rfl
@[simp] theorem State.setStream_rotation (s : State) (i : Nat) (x : Stream) : (s.setStream i x).rotation = s.rotation := rfl
@[simp] theorem State.setStream_keptCores (s : State) (i : Nat) (x : Stream) : (s.setStream i x).keptCores = s.keptCores := rfl
@[simp] theorem State.setStream_keptBanks (s : State) (i : Nat) (x : Stream) : (s.setStream i x).keptBanks = s.keptBanks := rfl
@[simp] theorem State.setStream_host (s : State) (i : Nat) (x : Stream) : (s.setStream i x).host = s.host := rfl
@[simp] theorem State.setStream_ulports (s : State) (i : Nat) (x : Stream) : (s.setStream i x).ulports = s.ulports := rfl
@[simp] theorem State.setStream_poolports (s : State) (i : Nat) (x : Stream) : (s.setStream i x).poolports = s.poolports := rfl
@[simp] theorem State.setStream_svc (s : State) (i : Nat) (x : Stream) : (s.setStream i x).svc = s.svc := rfl
@[simp] theorem State.setStream_raised (s : State) (i : Nat) (x : Stream) : (s.setStream i x).raised = s.raised := rfl
@[simp] theorem State.setStream_counters (s : State) (i : Nat) (x : Stream) : (s.setStream i x).counters = s.counters := rfl
@[simp] theorem State.setStream_pod (s : State) (i : Nat) (x : Stream) : (s.setStream i x).pod = s.pod := rfl
@[simp] theorem State.setStream_podOut (s : State) (i : Nat) (x : Stream) : (s.setStream i x).podOut = s.podOut := rfl
@[simp] theorem State.setStream_lostAt (s : State) (i : Nat) (x : Stream) : (s.setStream i x).lostAt = s.lostAt := rfl
@[simp] theorem State.setStream_poolAt (s : State) (i : Nat) (x : Stream) : (s.setStream i x).poolAt = s.poolAt := rfl
@[simp] theorem State.setStream_hostData (s : State) (i : Nat) (x : Stream) : (s.setStream i x).hostData = s.hostData := rfl
@[simp] theorem State.setStream_cur (s : State) (i : Nat) (x : Stream) : (s.setStream i x).cur = s.cur := rfl
@[simp] theorem State.setStream_agenda (s : State) (i : Nat) (x : Stream) : (s.setStream i x).agenda = s.agenda := rfl
@[simp] theorem State.setStream_rounds (s : State) (i : Nat) (x : Stream) : (s.setStream i x).rounds = s.rounds := rfl
@[simp] theorem State.setStream_free (s : State) (i : Nat) (x : Stream) : (s.setStream i x).free = s.free := rfl
@[simp] theorem State.setStream_setStream (s : State) (i : Nat) (x x2 : Stream) : (s.setStream i x).setStream i x2 = s.setStream i x2 := by
  simp [State.setStream]
@[simp] theorem State.stream_setStream (s : State) (i : Nat) (x : Stream) : (s.setStream i x).stream i = x := by simp [State.stream]
theorem State.stream_setStream_ne (s : State) {j i : Nat} (x : Stream) (h : j ≠ i) : (s.setStream i x).stream j = s.stream j := by
  simp [State.stream, NatMap.getD_set_ne _ _ _ h]
@[simp] theorem State.hart_setStream (s : State) (i : Nat) (x : Stream) (n : Nat) : (s.setStream i x).hart n = s.hart n := rfl
@[simp] theorem State.core_setStream (s : State) (i : Nat) (x : Stream) (n : Nat) : (s.setStream i x).core n = s.core n := rfl
@[simp] theorem State.bank_setStream (s : State) (i : Nat) (x : Stream) (n : Nat) : (s.setStream i x).bank n = s.bank n := rfl
@[simp] theorem State.tower_setStream (s : State) (i : Nat) (x : Stream) (n : Nat) : (s.setStream i x).tower n = s.tower n := rfl

/-! ## State.setTower -/

@[simp] theorem State.setTower_variant (s : State) (t : Nat) (x : Tower) : (s.setTower t x).variant = s.variant := rfl
@[simp] theorem State.setTower_mem (s : State) (t : Nat) (x : Tower) : (s.setTower t x).mem = s.mem := rfl
@[simp] theorem State.setTower_bad (s : State) (t : Nat) (x : Tower) : (s.setTower t x).bad = s.bad := rfl
@[simp] theorem State.setTower_harts (s : State) (t : Nat) (x : Tower) : (s.setTower t x).harts = s.harts := rfl
@[simp] theorem State.setTower_cores (s : State) (t : Nat) (x : Tower) : (s.setTower t x).cores = s.cores := rfl
@[simp] theorem State.setTower_banks (s : State) (t : Nat) (x : Tower) : (s.setTower t x).banks = s.banks := rfl
@[simp] theorem State.setTower_streams (s : State) (t : Nat) (x : Tower) : (s.setTower t x).streams = s.streams := rfl
@[simp] theorem State.setTower_towers (s : State) (t : Nat) (x : Tower) : (s.setTower t x).towers = s.towers.set t x := rfl
@[simp] theorem State.setTower_ctxs (s : State) (t : Nat) (x : Tower) : (s.setTower t x).ctxs = s.ctxs := rfl
@[simp] theorem State.setTower_kernels (s : State) (t : Nat) (x : Tower) : (s.setTower t x).kernels = s.kernels := rfl
@[simp] theorem State.setTower_groups (s : State) (t : Nat) (x : Tower) : (s.setTower t x).groups = s.groups := rfl
@[simp] theorem State.setTower_fresh (s : State) (t : Nat) (x : Tower) : (s.setTower t x).fresh = s.fresh := rfl
@[simp] theorem State.setTower_rotation (s : State) (t : Nat) (x : Tower) : (s.setTower t x).rotation = s.rotation := rfl
@[simp] theorem State.setTower_keptCores (s : State) (t : Nat) (x : Tower) : (s.setTower t x).keptCores = s.keptCores := rfl
@[simp] theorem State.setTower_keptBanks (s : State) (t : Nat) (x : Tower) : (s.setTower t x).keptBanks = s.keptBanks := rfl
@[simp] theorem State.setTower_host (s : State) (t : Nat) (x : Tower) : (s.setTower t x).host = s.host := rfl
@[simp] theorem State.setTower_ulports (s : State) (t : Nat) (x : Tower) : (s.setTower t x).ulports = s.ulports := rfl
@[simp] theorem State.setTower_poolports (s : State) (t : Nat) (x : Tower) : (s.setTower t x).poolports = s.poolports := rfl
@[simp] theorem State.setTower_svc (s : State) (t : Nat) (x : Tower) : (s.setTower t x).svc = s.svc := rfl
@[simp] theorem State.setTower_raised (s : State) (t : Nat) (x : Tower) : (s.setTower t x).raised = s.raised := rfl
@[simp] theorem State.setTower_counters (s : State) (t : Nat) (x : Tower) : (s.setTower t x).counters = s.counters := rfl
@[simp] theorem State.setTower_pod (s : State) (t : Nat) (x : Tower) : (s.setTower t x).pod = s.pod := rfl
@[simp] theorem State.setTower_podOut (s : State) (t : Nat) (x : Tower) : (s.setTower t x).podOut = s.podOut := rfl
@[simp] theorem State.setTower_lostAt (s : State) (t : Nat) (x : Tower) : (s.setTower t x).lostAt = s.lostAt := rfl
@[simp] theorem State.setTower_poolAt (s : State) (t : Nat) (x : Tower) : (s.setTower t x).poolAt = s.poolAt := rfl
@[simp] theorem State.setTower_hostData (s : State) (t : Nat) (x : Tower) : (s.setTower t x).hostData = s.hostData := rfl
@[simp] theorem State.setTower_cur (s : State) (t : Nat) (x : Tower) : (s.setTower t x).cur = s.cur := rfl
@[simp] theorem State.setTower_agenda (s : State) (t : Nat) (x : Tower) : (s.setTower t x).agenda = s.agenda := rfl
@[simp] theorem State.setTower_rounds (s : State) (t : Nat) (x : Tower) : (s.setTower t x).rounds = s.rounds := rfl
@[simp] theorem State.setTower_free (s : State) (t : Nat) (x : Tower) : (s.setTower t x).free = s.free := rfl
@[simp] theorem State.setTower_setTower (s : State) (t : Nat) (x x2 : Tower) : (s.setTower t x).setTower t x2 = s.setTower t x2 := by
  simp [State.setTower]
@[simp] theorem State.tower_setTower (s : State) (t : Nat) (x : Tower) : (s.setTower t x).tower t = x := by simp [State.tower]
theorem State.tower_setTower_ne (s : State) {j t : Nat} (x : Tower) (h : j ≠ t) : (s.setTower t x).tower j = s.tower j := by
  simp [State.tower, NatMap.getD_set_ne _ _ _ h]
@[simp] theorem State.hart_setTower (s : State) (t : Nat) (x : Tower) (n : Nat) : (s.setTower t x).hart n = s.hart n := rfl
@[simp] theorem State.core_setTower (s : State) (t : Nat) (x : Tower) (n : Nat) : (s.setTower t x).core n = s.core n := rfl
@[simp] theorem State.bank_setTower (s : State) (t : Nat) (x : Tower) (n : Nat) : (s.setTower t x).bank n = s.bank n := rfl
@[simp] theorem State.stream_setTower (s : State) (t : Nat) (x : Tower) (n : Nat) : (s.setTower t x).stream n = s.stream n := rfl

/-! ## State.setCtx -/

@[simp] theorem State.setCtx_variant (s : State) (c : Nat) (x : Context) : (s.setCtx c x).variant = s.variant := rfl
@[simp] theorem State.setCtx_mem (s : State) (c : Nat) (x : Context) : (s.setCtx c x).mem = s.mem := rfl
@[simp] theorem State.setCtx_bad (s : State) (c : Nat) (x : Context) : (s.setCtx c x).bad = s.bad := rfl
@[simp] theorem State.setCtx_harts (s : State) (c : Nat) (x : Context) : (s.setCtx c x).harts = s.harts := rfl
@[simp] theorem State.setCtx_cores (s : State) (c : Nat) (x : Context) : (s.setCtx c x).cores = s.cores := rfl
@[simp] theorem State.setCtx_banks (s : State) (c : Nat) (x : Context) : (s.setCtx c x).banks = s.banks := rfl
@[simp] theorem State.setCtx_streams (s : State) (c : Nat) (x : Context) : (s.setCtx c x).streams = s.streams := rfl
@[simp] theorem State.setCtx_towers (s : State) (c : Nat) (x : Context) : (s.setCtx c x).towers = s.towers := rfl
@[simp] theorem State.setCtx_ctxs (s : State) (c : Nat) (x : Context) : (s.setCtx c x).ctxs = s.ctxs.set c x := rfl
@[simp] theorem State.setCtx_kernels (s : State) (c : Nat) (x : Context) : (s.setCtx c x).kernels = s.kernels := rfl
@[simp] theorem State.setCtx_groups (s : State) (c : Nat) (x : Context) : (s.setCtx c x).groups = s.groups := rfl
@[simp] theorem State.setCtx_fresh (s : State) (c : Nat) (x : Context) : (s.setCtx c x).fresh = s.fresh := rfl
@[simp] theorem State.setCtx_rotation (s : State) (c : Nat) (x : Context) : (s.setCtx c x).rotation = s.rotation := rfl
@[simp] theorem State.setCtx_keptCores (s : State) (c : Nat) (x : Context) : (s.setCtx c x).keptCores = s.keptCores := rfl
@[simp] theorem State.setCtx_keptBanks (s : State) (c : Nat) (x : Context) : (s.setCtx c x).keptBanks = s.keptBanks := rfl
@[simp] theorem State.setCtx_host (s : State) (c : Nat) (x : Context) : (s.setCtx c x).host = s.host := rfl
@[simp] theorem State.setCtx_ulports (s : State) (c : Nat) (x : Context) : (s.setCtx c x).ulports = s.ulports := rfl
@[simp] theorem State.setCtx_poolports (s : State) (c : Nat) (x : Context) : (s.setCtx c x).poolports = s.poolports := rfl
@[simp] theorem State.setCtx_svc (s : State) (c : Nat) (x : Context) : (s.setCtx c x).svc = s.svc := rfl
@[simp] theorem State.setCtx_raised (s : State) (c : Nat) (x : Context) : (s.setCtx c x).raised = s.raised := rfl
@[simp] theorem State.setCtx_counters (s : State) (c : Nat) (x : Context) : (s.setCtx c x).counters = s.counters := rfl
@[simp] theorem State.setCtx_pod (s : State) (c : Nat) (x : Context) : (s.setCtx c x).pod = s.pod := rfl
@[simp] theorem State.setCtx_podOut (s : State) (c : Nat) (x : Context) : (s.setCtx c x).podOut = s.podOut := rfl
@[simp] theorem State.setCtx_lostAt (s : State) (c : Nat) (x : Context) : (s.setCtx c x).lostAt = s.lostAt := rfl
@[simp] theorem State.setCtx_poolAt (s : State) (c : Nat) (x : Context) : (s.setCtx c x).poolAt = s.poolAt := rfl
@[simp] theorem State.setCtx_hostData (s : State) (c : Nat) (x : Context) : (s.setCtx c x).hostData = s.hostData := rfl
@[simp] theorem State.setCtx_cur (s : State) (c : Nat) (x : Context) : (s.setCtx c x).cur = s.cur := rfl
@[simp] theorem State.setCtx_agenda (s : State) (c : Nat) (x : Context) : (s.setCtx c x).agenda = s.agenda := rfl
@[simp] theorem State.setCtx_rounds (s : State) (c : Nat) (x : Context) : (s.setCtx c x).rounds = s.rounds := rfl
@[simp] theorem State.setCtx_free (s : State) (c : Nat) (x : Context) : (s.setCtx c x).free = s.free := rfl
@[simp] theorem State.setCtx_setCtx (s : State) (c : Nat) (x x2 : Context) : (s.setCtx c x).setCtx c x2 = s.setCtx c x2 := by
  simp [State.setCtx]
@[simp] theorem State.hart_setCtx (s : State) (c : Nat) (x : Context) (n : Nat) : (s.setCtx c x).hart n = s.hart n := rfl
@[simp] theorem State.core_setCtx (s : State) (c : Nat) (x : Context) (n : Nat) : (s.setCtx c x).core n = s.core n := rfl
@[simp] theorem State.bank_setCtx (s : State) (c : Nat) (x : Context) (n : Nat) : (s.setCtx c x).bank n = s.bank n := rfl
@[simp] theorem State.stream_setCtx (s : State) (c : Nat) (x : Context) (n : Nat) : (s.setCtx c x).stream n = s.stream n := rfl
@[simp] theorem State.tower_setCtx (s : State) (c : Nat) (x : Context) (n : Nat) : (s.setCtx c x).tower n = s.tower n := rfl

/-! ## State.setKernel -/

@[simp] theorem State.setKernel_variant (s : State) (k : Nat) (x : Kernel) : (s.setKernel k x).variant = s.variant := rfl
@[simp] theorem State.setKernel_mem (s : State) (k : Nat) (x : Kernel) : (s.setKernel k x).mem = s.mem := rfl
@[simp] theorem State.setKernel_bad (s : State) (k : Nat) (x : Kernel) : (s.setKernel k x).bad = s.bad := rfl
@[simp] theorem State.setKernel_harts (s : State) (k : Nat) (x : Kernel) : (s.setKernel k x).harts = s.harts := rfl
@[simp] theorem State.setKernel_cores (s : State) (k : Nat) (x : Kernel) : (s.setKernel k x).cores = s.cores := rfl
@[simp] theorem State.setKernel_banks (s : State) (k : Nat) (x : Kernel) : (s.setKernel k x).banks = s.banks := rfl
@[simp] theorem State.setKernel_streams (s : State) (k : Nat) (x : Kernel) : (s.setKernel k x).streams = s.streams := rfl
@[simp] theorem State.setKernel_towers (s : State) (k : Nat) (x : Kernel) : (s.setKernel k x).towers = s.towers := rfl
@[simp] theorem State.setKernel_ctxs (s : State) (k : Nat) (x : Kernel) : (s.setKernel k x).ctxs = s.ctxs := rfl
@[simp] theorem State.setKernel_kernels (s : State) (k : Nat) (x : Kernel) : (s.setKernel k x).kernels = s.kernels.set k x := rfl
@[simp] theorem State.setKernel_groups (s : State) (k : Nat) (x : Kernel) : (s.setKernel k x).groups = s.groups := rfl
@[simp] theorem State.setKernel_fresh (s : State) (k : Nat) (x : Kernel) : (s.setKernel k x).fresh = s.fresh := rfl
@[simp] theorem State.setKernel_rotation (s : State) (k : Nat) (x : Kernel) : (s.setKernel k x).rotation = s.rotation := rfl
@[simp] theorem State.setKernel_keptCores (s : State) (k : Nat) (x : Kernel) : (s.setKernel k x).keptCores = s.keptCores := rfl
@[simp] theorem State.setKernel_keptBanks (s : State) (k : Nat) (x : Kernel) : (s.setKernel k x).keptBanks = s.keptBanks := rfl
@[simp] theorem State.setKernel_host (s : State) (k : Nat) (x : Kernel) : (s.setKernel k x).host = s.host := rfl
@[simp] theorem State.setKernel_ulports (s : State) (k : Nat) (x : Kernel) : (s.setKernel k x).ulports = s.ulports := rfl
@[simp] theorem State.setKernel_poolports (s : State) (k : Nat) (x : Kernel) : (s.setKernel k x).poolports = s.poolports := rfl
@[simp] theorem State.setKernel_svc (s : State) (k : Nat) (x : Kernel) : (s.setKernel k x).svc = s.svc := rfl
@[simp] theorem State.setKernel_raised (s : State) (k : Nat) (x : Kernel) : (s.setKernel k x).raised = s.raised := rfl
@[simp] theorem State.setKernel_counters (s : State) (k : Nat) (x : Kernel) : (s.setKernel k x).counters = s.counters := rfl
@[simp] theorem State.setKernel_pod (s : State) (k : Nat) (x : Kernel) : (s.setKernel k x).pod = s.pod := rfl
@[simp] theorem State.setKernel_podOut (s : State) (k : Nat) (x : Kernel) : (s.setKernel k x).podOut = s.podOut := rfl
@[simp] theorem State.setKernel_lostAt (s : State) (k : Nat) (x : Kernel) : (s.setKernel k x).lostAt = s.lostAt := rfl
@[simp] theorem State.setKernel_poolAt (s : State) (k : Nat) (x : Kernel) : (s.setKernel k x).poolAt = s.poolAt := rfl
@[simp] theorem State.setKernel_hostData (s : State) (k : Nat) (x : Kernel) : (s.setKernel k x).hostData = s.hostData := rfl
@[simp] theorem State.setKernel_cur (s : State) (k : Nat) (x : Kernel) : (s.setKernel k x).cur = s.cur := rfl
@[simp] theorem State.setKernel_agenda (s : State) (k : Nat) (x : Kernel) : (s.setKernel k x).agenda = s.agenda := rfl
@[simp] theorem State.setKernel_rounds (s : State) (k : Nat) (x : Kernel) : (s.setKernel k x).rounds = s.rounds := rfl
@[simp] theorem State.setKernel_free (s : State) (k : Nat) (x : Kernel) : (s.setKernel k x).free = s.free := rfl
@[simp] theorem State.setKernel_setKernel (s : State) (k : Nat) (x x2 : Kernel) : (s.setKernel k x).setKernel k x2 = s.setKernel k x2 := by
  simp [State.setKernel]
@[simp] theorem State.hart_setKernel (s : State) (k : Nat) (x : Kernel) (n : Nat) : (s.setKernel k x).hart n = s.hart n := rfl
@[simp] theorem State.core_setKernel (s : State) (k : Nat) (x : Kernel) (n : Nat) : (s.setKernel k x).core n = s.core n := rfl
@[simp] theorem State.bank_setKernel (s : State) (k : Nat) (x : Kernel) (n : Nat) : (s.setKernel k x).bank n = s.bank n := rfl
@[simp] theorem State.stream_setKernel (s : State) (k : Nat) (x : Kernel) (n : Nat) : (s.setKernel k x).stream n = s.stream n := rfl
@[simp] theorem State.tower_setKernel (s : State) (k : Nat) (x : Kernel) (n : Nat) : (s.setKernel k x).tower n = s.tower n := rfl

/-! ## State.setGroup -/

@[simp] theorem State.setGroup_variant (s : State) (g : Nat) (x : Group) : (s.setGroup g x).variant = s.variant := rfl
@[simp] theorem State.setGroup_mem (s : State) (g : Nat) (x : Group) : (s.setGroup g x).mem = s.mem := rfl
@[simp] theorem State.setGroup_bad (s : State) (g : Nat) (x : Group) : (s.setGroup g x).bad = s.bad := rfl
@[simp] theorem State.setGroup_harts (s : State) (g : Nat) (x : Group) : (s.setGroup g x).harts = s.harts := rfl
@[simp] theorem State.setGroup_cores (s : State) (g : Nat) (x : Group) : (s.setGroup g x).cores = s.cores := rfl
@[simp] theorem State.setGroup_banks (s : State) (g : Nat) (x : Group) : (s.setGroup g x).banks = s.banks := rfl
@[simp] theorem State.setGroup_streams (s : State) (g : Nat) (x : Group) : (s.setGroup g x).streams = s.streams := rfl
@[simp] theorem State.setGroup_towers (s : State) (g : Nat) (x : Group) : (s.setGroup g x).towers = s.towers := rfl
@[simp] theorem State.setGroup_ctxs (s : State) (g : Nat) (x : Group) : (s.setGroup g x).ctxs = s.ctxs := rfl
@[simp] theorem State.setGroup_kernels (s : State) (g : Nat) (x : Group) : (s.setGroup g x).kernels = s.kernels := rfl
@[simp] theorem State.setGroup_groups (s : State) (g : Nat) (x : Group) : (s.setGroup g x).groups = s.groups.set g x := rfl
@[simp] theorem State.setGroup_fresh (s : State) (g : Nat) (x : Group) : (s.setGroup g x).fresh = s.fresh := rfl
@[simp] theorem State.setGroup_rotation (s : State) (g : Nat) (x : Group) : (s.setGroup g x).rotation = s.rotation := rfl
@[simp] theorem State.setGroup_keptCores (s : State) (g : Nat) (x : Group) : (s.setGroup g x).keptCores = s.keptCores := rfl
@[simp] theorem State.setGroup_keptBanks (s : State) (g : Nat) (x : Group) : (s.setGroup g x).keptBanks = s.keptBanks := rfl
@[simp] theorem State.setGroup_host (s : State) (g : Nat) (x : Group) : (s.setGroup g x).host = s.host := rfl
@[simp] theorem State.setGroup_ulports (s : State) (g : Nat) (x : Group) : (s.setGroup g x).ulports = s.ulports := rfl
@[simp] theorem State.setGroup_poolports (s : State) (g : Nat) (x : Group) : (s.setGroup g x).poolports = s.poolports := rfl
@[simp] theorem State.setGroup_svc (s : State) (g : Nat) (x : Group) : (s.setGroup g x).svc = s.svc := rfl
@[simp] theorem State.setGroup_raised (s : State) (g : Nat) (x : Group) : (s.setGroup g x).raised = s.raised := rfl
@[simp] theorem State.setGroup_counters (s : State) (g : Nat) (x : Group) : (s.setGroup g x).counters = s.counters := rfl
@[simp] theorem State.setGroup_pod (s : State) (g : Nat) (x : Group) : (s.setGroup g x).pod = s.pod := rfl
@[simp] theorem State.setGroup_podOut (s : State) (g : Nat) (x : Group) : (s.setGroup g x).podOut = s.podOut := rfl
@[simp] theorem State.setGroup_lostAt (s : State) (g : Nat) (x : Group) : (s.setGroup g x).lostAt = s.lostAt := rfl
@[simp] theorem State.setGroup_poolAt (s : State) (g : Nat) (x : Group) : (s.setGroup g x).poolAt = s.poolAt := rfl
@[simp] theorem State.setGroup_hostData (s : State) (g : Nat) (x : Group) : (s.setGroup g x).hostData = s.hostData := rfl
@[simp] theorem State.setGroup_cur (s : State) (g : Nat) (x : Group) : (s.setGroup g x).cur = s.cur := rfl
@[simp] theorem State.setGroup_agenda (s : State) (g : Nat) (x : Group) : (s.setGroup g x).agenda = s.agenda := rfl
@[simp] theorem State.setGroup_rounds (s : State) (g : Nat) (x : Group) : (s.setGroup g x).rounds = s.rounds := rfl
@[simp] theorem State.setGroup_free (s : State) (g : Nat) (x : Group) : (s.setGroup g x).free = s.free := rfl
@[simp] theorem State.setGroup_setGroup (s : State) (g : Nat) (x x2 : Group) : (s.setGroup g x).setGroup g x2 = s.setGroup g x2 := by
  simp [State.setGroup]
@[simp] theorem State.hart_setGroup (s : State) (g : Nat) (x : Group) (n : Nat) : (s.setGroup g x).hart n = s.hart n := rfl
@[simp] theorem State.core_setGroup (s : State) (g : Nat) (x : Group) (n : Nat) : (s.setGroup g x).core n = s.core n := rfl
@[simp] theorem State.bank_setGroup (s : State) (g : Nat) (x : Group) (n : Nat) : (s.setGroup g x).bank n = s.bank n := rfl
@[simp] theorem State.stream_setGroup (s : State) (g : Nat) (x : Group) (n : Nat) : (s.setGroup g x).stream n = s.stream n := rfl
@[simp] theorem State.tower_setGroup (s : State) (g : Nat) (x : Group) (n : Nat) : (s.setGroup g x).tower n = s.tower n := rfl

/-! ## Updates of one component -/

theorem State.modHart_eq (s : State) (k : Nat) (f : Hart → Hart) : s.modHart k f = s.setHart k (f (s.hart k)) := rfl

@[simp] theorem State.hart_modHart (s : State) (k : Nat) (f : Hart → Hart) : (s.modHart k f).hart k = f (s.hart k) := by
  simp [State.modHart]

@[simp] theorem State.modHart_modHart (s : State) (k : Nat) (f g : Hart → Hart) :
    (s.modHart k f).modHart k g = s.modHart k (fun h => g (f h)) := by simp [State.modHart]

@[simp] theorem State.setHart_modHart (s : State) (k : Nat) (h : Hart) (f : Hart → Hart) :
    (s.setHart k h).modHart k f = s.setHart k (f h) := by simp [State.modHart]

@[simp] theorem State.modHart_setHart (s : State) (k : Nat) (h : Hart) (f : Hart → Hart) :
    (s.modHart k f).setHart k h = s.setHart k h := by simp [State.modHart]

@[simp] theorem State.modHart_mem (s : State) (k : Nat) (f : Hart → Hart) : (s.modHart k f).mem = s.mem := rfl

theorem State.modBank_eq (s : State) (k : Nat) (f : Bank → Bank) : s.modBank k f = s.setBank k (f (s.bank k)) := rfl
theorem State.modStream_eq (s : State) (i : Nat) (f : Stream → Stream) :
    s.modStream i f = s.setStream i (f (s.stream i)) := rfl
theorem State.modTower_eq (s : State) (t : Nat) (f : Tower → Tower) : s.modTower t f = s.setTower t (f (s.tower t)) := rfl

@[simp] theorem State.modBank_mem (s : State) (k : Nat) (f : Bank → Bank) : (s.modBank k f).mem = s.mem := rfl
@[simp] theorem State.modStream_mem (s : State) (k : Nat) (f : Stream → Stream) : (s.modStream k f).mem = s.mem := rfl
@[simp] theorem State.modTower_mem (s : State) (k : Nat) (f : Tower → Tower) : (s.modTower k f).mem = s.mem := rfl

/-! ## Registers of a hart -/

@[simp] theorem Hart.rd_zero (h : Hart) : h.rd 0 = 0 := rfl
@[simp] theorem Hart.wr_zero (h : Hart) (v : Word) : h.wr 0 v = h := rfl

theorem Hart.rd_wr_self (h : Hart) {d : Reg} (v : Word) (e : d ≠ 0) : (h.wr d v).rd d = v := by
  rw [Hart.wr, if_neg e, Hart.rd, if_neg e]
  exact Vector.getElem_set_self _

theorem Hart.rd_wr_ne (h : Hart) {d r : Reg} (v : Word) (e : r ≠ d) : (h.wr d v).rd r = h.rd r := by
  unfold Hart.wr
  split
  · rfl
  · unfold Hart.rd
    split
    · rfl
    · exact Vector.getElem_set_ne (hi := d.isLt) r.isLt (fun q => e (BitVec.eq_of_toNat_eq q.symm))

@[simp] theorem Hart.wr_life (h : Hart) (d : Reg) (v : Word) : (h.wr d v).life = h.life := by
  unfold Hart.wr; split <;> rfl
@[simp] theorem Hart.wr_group (h : Hart) (d : Reg) (v : Word) : (h.wr d v).group = h.group := by
  unfold Hart.wr; split <;> rfl
@[simp] theorem Hart.wr_index (h : Hart) (d : Reg) (v : Word) : (h.wr d v).index = h.index := by
  unfold Hart.wr; split <;> rfl
@[simp] theorem Hart.wr_pc (h : Hart) (d : Reg) (v : Word) : (h.wr d v).pc = h.pc := by
  unfold Hart.wr; split <;> rfl
@[simp] theorem Hart.wr_v (h : Hart) (d : Reg) (v : Word) : (h.wr d v).v = h.v := by
  unfold Hart.wr; split <;> rfl
@[simp] theorem Hart.wr_full (h : Hart) (d : Reg) (v : Word) : (h.wr d v).full = h.full := by
  unfold Hart.wr; split <;> rfl
@[simp] theorem Hart.wr_failed (h : Hart) (d : Reg) (v : Word) : (h.wr d v).failed = h.failed := by
  unfold Hart.wr; split <;> rfl
@[simp] theorem Hart.wr_p (h : Hart) (d : Reg) (v : Word) : (h.wr d v).p = h.p := by
  unfold Hart.wr; split <;> rfl
@[simp] theorem Hart.wr_st (h : Hart) (d : Reg) (v : Word) : (h.wr d v).st = h.st := by
  unfold Hart.wr; split <;> rfl
@[simp] theorem Hart.wr_u (h : Hart) (d : Reg) (v : Word) : (h.wr d v).u = h.u := by
  unfold Hart.wr; split <;> rfl
@[simp] theorem Hart.wr_s (h : Hart) (d : Reg) (v : Word) : (h.wr d v).s = h.s := by
  unfold Hart.wr; split <;> rfl
@[simp] theorem Hart.wr_tdeleg (h : Hart) (d : Reg) (v : Word) : (h.wr d v).tdeleg = h.tdeleg := by
  unfold Hart.wr; split <;> rfl
@[simp] theorem Hart.wr_tstat (h : Hart) (d : Reg) (v : Word) : (h.wr d v).tstat = h.tstat := by
  unfold Hart.wr; split <;> rfl
@[simp] theorem Hart.wr_vgrant (h : Hart) (d : Reg) (v : Word) : (h.wr d v).vgrant = h.vgrant := by
  unfold Hart.wr; split <;> rfl
@[simp] theorem Hart.wr_vtype (h : Hart) (d : Reg) (v : Word) : (h.wr d v).vtype = h.vtype := by
  unfold Hart.wr; split <;> rfl
@[simp] theorem Hart.wr_elem (h : Hart) (d : Reg) (v : Word) : (h.wr d v).elem = h.elem := by
  unfold Hart.wr; split <;> rfl
@[simp] theorem Hart.wr_slot (h : Hart) (d : Reg) (v : Word) : (h.wr d v).slot = h.slot := by
  unfold Hart.wr; split <;> rfl
@[simp] theorem Hart.wr_vstate (h : Hart) (d : Reg) (v : Word) : (h.wr d v).vstate = h.vstate := by
  unfold Hart.wr; split <;> rfl
@[simp] theorem Hart.wr_vdirty (h : Hart) (d : Reg) (v : Word) : (h.wr d v).vdirty = h.vdirty := by
  unfold Hart.wr; split <;> rfl
@[simp] theorem Hart.wr_ffi (h : Hart) (d : Reg) (v : Word) : (h.wr d v).ffi = h.ffi := by
  unfold Hart.wr; split <;> rfl
@[simp] theorem Hart.wr_vxqc (h : Hart) (d : Reg) (v : Word) : (h.wr d v).vxqc = h.vxqc := by
  unfold Hart.wr; split <;> rfl
@[simp] theorem Hart.wr_fflags (h : Hart) (d : Reg) (v : Word) : (h.wr d v).fflags = h.fflags := by
  unfold Hart.wr; split <;> rfl
@[simp] theorem Hart.wr_frm (h : Hart) (d : Reg) (v : Word) : (h.wr d v).frm = h.frm := by
  unfold Hart.wr; split <;> rfl
@[simp] theorem Hart.wr_srseed (h : Hart) (d : Reg) (v : Word) : (h.wr d v).srseed = h.srseed := by
  unfold Hart.wr; split <;> rfl
@[simp] theorem Hart.wr_srbase (h : Hart) (d : Reg) (v : Word) : (h.wr d v).srbase = h.srbase := by
  unfold Hart.wr; split <;> rfl
@[simp] theorem Hart.wr_mqtol (h : Hart) (d : Reg) (v : Word) : (h.wr d v).mqtol = h.mqtol := by
  unfold Hart.wr; split <;> rfl
@[simp] theorem Hart.wr_mqrmax (h : Hart) (d : Reg) (v : Word) : (h.wr d v).mqrmax = h.mqrmax := by
  unfold Hart.wr; split <;> rfl
@[simp] theorem Hart.wr_instret (h : Hart) (d : Reg) (v : Word) : (h.wr d v).instret = h.instret := by
  unfold Hart.wr; split <;> rfl
@[simp] theorem Hart.wr_engfault (h : Hart) (d : Reg) (v : Word) : (h.wr d v).engfault = h.engfault := by
  unfold Hart.wr; split <;> rfl
@[simp] theorem Hart.wr_shadow (h : Hart) (d : Reg) (v : Word) : (h.wr d v).shadow = h.shadow := by
  unfold Hart.wr; split <;> rfl
@[simp] theorem Hart.wr_monitor (h : Hart) (d : Reg) (v : Word) : (h.wr d v).monitor = h.monitor := by
  unfold Hart.wr; split <;> rfl
@[simp] theorem Hart.wr_released (h : Hart) (d : Reg) (v : Word) : (h.wr d v).released = h.released := by
  unfold Hart.wr; split <;> rfl
@[simp] theorem Hart.wr_preempt (h : Hart) (d : Reg) (v : Word) : (h.wr d v).preempt = h.preempt := by
  unfold Hart.wr; split <;> rfl
@[simp] theorem Hart.wr_caught (h : Hart) (d : Reg) (v : Word) : (h.wr d v).caught = h.caught := by
  unfold Hart.wr; split <;> rfl
@[simp] theorem Hart.wr_stops (h : Hart) (d : Reg) (v : Word) : (h.wr d v).stops = h.stops := by
  unfold Hart.wr; split <;> rfl
@[simp] theorem Hart.wr_owed (h : Hart) (d : Reg) (v : Word) : (h.wr d v).owed = h.owed := by
  unfold Hart.wr; split <;> rfl
@[simp] theorem Hart.wr_service (h : Hart) (d : Reg) (v : Word) : (h.wr d v).service = h.service := by
  unfold Hart.wr; split <;> rfl
@[simp] theorem Hart.wr_emptyAt (h : Hart) (d : Reg) (v : Word) : (h.wr d v).emptyAt = h.emptyAt := by
  unfold Hart.wr; split <;> rfl
@[simp] theorem Hart.wr_vstateAt (h : Hart) (d : Reg) (v : Word) : (h.wr d v).vstateAt = h.vstateAt := by
  unfold Hart.wr; split <;> rfl
@[simp] theorem Hart.wr_failedAt (h : Hart) (d : Reg) (v : Word) : (h.wr d v).failedAt = h.failedAt := by
  unfold Hart.wr; split <;> rfl
@[simp] theorem Hart.wr_slots (h : Hart) (d : Reg) (v : Word) : (h.wr d v).slots = h.slots := by
  unfold Hart.wr; split <;> rfl
@[simp] theorem Hart.wr_nextPc (h : Hart) (d : Reg) (v : Word) : (h.wr d v).nextPc = h.nextPc := by
  unfold Hart.wr; split <;> rfl
@[simp] theorem Hart.wr_gathers (h : Hart) (d : Reg) (v : Word) : (h.wr d v).gathers = h.gathers := by
  unfold Hart.wr; split <;> rfl
@[simp] theorem Hart.wr_reads (h : Hart) (d : Reg) (v : Word) : (h.wr d v).reads = h.reads := by
  unfold Hart.wr; split <;> rfl
@[simp] theorem Hart.wr_readsHeld (h : Hart) (d : Reg) (v : Word) : (h.wr d v).readsHeld = h.readsHeld := by
  unfold Hart.wr; split <;> rfl
@[simp] theorem Hart.wr_draining (h : Hart) (d : Reg) (v : Word) : (h.wr d v).draining = h.draining := by
  unfold Hart.wr; split <;> rfl
@[simp] theorem Hart.wr_cut (h : Hart) (d : Reg) (v : Word) : (h.wr d v).cut = h.cut := by
  unfold Hart.wr; split <;> rfl
@[simp] theorem Hart.wr_latched (h : Hart) (d : Reg) (v : Word) : (h.wr d v).latched = h.latched := by
  unfold Hart.wr; split <;> rfl
@[simp] theorem Hart.wr_waitFor (h : Hart) (d : Reg) (v : Word) : (h.wr d v).waitFor = h.waitFor := by
  unfold Hart.wr; split <;> rfl
@[simp] theorem Hart.wr_waitObj (h : Hart) (d : Reg) (v : Word) : (h.wr d v).waitObj = h.waitObj := by
  unfold Hart.wr; split <;> rfl
@[simp] theorem Hart.wr_arrived (h : Hart) (d : Reg) (v : Word) : (h.wr d v).arrived = h.arrived := by
  unfold Hart.wr; split <;> rfl
@[simp] theorem Hart.wr_finMark (h : Hart) (d : Reg) (v : Word) : (h.wr d v).finMark = h.finMark := by
  unfold Hart.wr; split <;> rfl
@[simp] theorem Hart.wr_entering (h : Hart) (d : Reg) (v : Word) : (h.wr d v).entering = h.entering := by
  unfold Hart.wr; split <;> rfl
@[simp] theorem Hart.wr_exiting (h : Hart) (d : Reg) (v : Word) : (h.wr d v).exiting = h.exiting := by
  unfold Hart.wr; split <;> rfl
@[simp] theorem Hart.wr_traps (h : Hart) (d : Reg) (v : Word) : (h.wr d v).traps = h.traps := by
  unfold Hart.wr; split <;> rfl

end Sys2Proof.Machine
end

