-- ==== Sys2Proof/Laws/Ops.lean ====
section
/-! SUPPORT. What each shared operation of a hart can do, said once: how a scalar instruction ends, and a slot. -/
namespace Sys2Proof.Machine

/-- The completion of a scalar instruction, from the state its effect leaves. -/
theorem State.retire_eq (s : State) (k : Nat) (pc : Word) : s.retire k pc = s.after k (s.hart k) pc := rfl

@[simp] theorem State.after_setHart (s : State) (k : Nat) (h g : Hart) (pc : Word) :
    (s.setHart k h).after k g pc = s.after k g pc := by simp [State.after]

@[simp] theorem State.hart_after (s : State) (k : Nat) (h : Hart) (pc : Word) :
    (s.after k h pc).hart k =
      { h with pc := pc, instret := h.instret + 1, life := .ready, waitFor := none, latched := none } := by
  simp [State.after]

@[simp] theorem State.after_mem (s : State) (k : Nat) (h : Hart) (pc : Word) : (s.after k h pc).mem = s.mem := rfl

/-- A scalar operation that goes through leaves its effect, retired at the next parcel. -/
theorem scalarOp_ok {s s' : State} {k : Nat} {f : Nat → Hart → Except Stop State} (h : s.HartTurn k)
    (e : f k (s.hart k) = .ok s') : scalarOp s f = .next (s'.retire k ((s.hart k).pc + 4)) := by
  unfold State.HartTurn at h
  simp [scalarOp, h, e, finishAt, Except.map]

/-- A scalar operation that stops does what the stop says. -/
theorem scalarOp_error {s : State} {k : Nat} {f : Nat → Hart → Except Stop State} {e : Stop} (h : s.HartTurn k)
    (he : f k (s.hart k) = .error e) : scalarOp s f = .next (s.stop k e) := by
  unfold State.HartTurn at h
  simp [scalarOp, h, he, finishAt, Except.map]

/-- A jump that goes through is retired at its target. -/
theorem jumpOp_ok {s s' : State} {k : Nat} {f : Nat → Hart → Except Stop (State × Word)} {pc : Word}
    (h : s.HartTurn k) (e : f k (s.hart k) = .ok (s', pc)) : jumpOp s f = .next (s'.retire k pc) := by
  unfold State.HartTurn at h
  simp [jumpOp, h, e, finishAt]

/-- A jump that stops does what the stop says. -/
theorem jumpOp_error {s : State} {k : Nat} {f : Nat → Hart → Except Stop (State × Word)} {e : Stop}
    (h : s.HartTurn k) (he : f k (s.hart k) = .error e) : jumpOp s f = .next (s.stop k e) := by
  unfold State.HartTurn at h
  simp [jumpOp, h, he, finishAt]

/-- An instruction that only writes a register completes with that value. -/
theorem writeOp_next {s : State} {k : Nat} (h : s.HartTurn k) (d : Reg) (f : Hart → Word) :
    writeOp s d f = .next (s.wrote k d (f (s.hart k))) := by
  rw [writeOp, scalarOp_ok h rfl]
  simp [State.retire_eq, State.wrX, State.modHart, State.wrote]

/-- A branch completes at its target where its condition holds, else at the next parcel. -/
theorem branchOp_next {s : State} {k : Nat} (h : s.HartTurn k) (off : BitVec 12) (c : Hart → Bool) :
    branchOp s off c = .next (s.after k (s.hart k)
      (if c (s.hart k) then (s.hart k).pc + (off.signExtend 64 <<< 2) else (s.hart k).pc + 4)) := by
  rw [branchOp, jumpOp_ok h rfl, State.retire_eq]

/-- A slot whose checks pass and whose body goes through. -/
theorem slotOp_ok {mk : VWord → Instr} {w : VWord} {whole : Bool} {s s' : State} {k : Nat}
    {body : Nat → Hart → VWord → Except Stop State} (h : s.HartTurn k) (hv : (s.hart k).vstate ≠ .off)
    (ht : (if w.ty = 31 then { w with ty := (s.hart k).vtype } else w).ty ≠ 31)
    (hl : slotLegal (mk (if w.ty = 31 then { w with ty := (s.hart k).vtype } else w)) = true)
    (he : whole = true → (s.hart k).elem = 0)
    (hb : body k (s.hart k) (if w.ty = 31 then { w with ty := (s.hart k).vtype } else w) = .ok s') :
    slotOp mk w whole s body = .next (s'.modHart k Hart.retireSlot) := by
  unfold State.HartTurn at h
  have h3 : ¬((if w.ty = 31 then { w with ty := (s.hart k).vtype } else w).ty = 31 ∨
      slotLegal (mk (if w.ty = 31 then { w with ty := (s.hart k).vtype } else w)) = false ∨
      (whole = true ∧ (s.hart k).elem ≠ 0)) := by
    rintro (q | q | ⟨q, r⟩)
    · exact ht q
    · rw [hl] at q; cases q
    · exact r (he q)
  simp only [slotOp, h, hv, if_false, h3, hb, finishSlot]

end Sys2Proof.Machine
end

