-- ==== Sys2Proof/Laws/Hart.lean ====
section
/-! SUPPORT. What trap entry, the return from a trap, the end of a slot and the writes of vector state leave in each
register of a hart. -/
namespace Sys2Proof.Machine

/-! ## Trap entry (04 R116) -/

@[simp] theorem Hart.trapEntry_group (h : Hart) (c : Nat) (a b r : Word) (y : Bool) : (h.trapEntry c a b r y).group = h.group := by
  exact (apply_ite (fun g : Hart => g.group) _ _ _).trans (ite_self _)
@[simp] theorem Hart.trapEntry_index (h : Hart) (c : Nat) (a b r : Word) (y : Bool) : (h.trapEntry c a b r y).index = h.index := by
  exact (apply_ite (fun g : Hart => g.index) _ _ _).trans (ite_self _)
@[simp] theorem Hart.trapEntry_x (h : Hart) (c : Nat) (a b r : Word) (y : Bool) : (h.trapEntry c a b r y).x = h.x := by
  exact (apply_ite (fun g : Hart => g.x) _ _ _).trans (ite_self _)
@[simp] theorem Hart.trapEntry_v (h : Hart) (c : Nat) (a b r : Word) (y : Bool) : (h.trapEntry c a b r y).v = h.v := by
  exact (apply_ite (fun g : Hart => g.v) _ _ _).trans (ite_self _)
@[simp] theorem Hart.trapEntry_full (h : Hart) (c : Nat) (a b r : Word) (y : Bool) : (h.trapEntry c a b r y).full = h.undrained := by
  exact (apply_ite (fun g : Hart => g.full) _ _ _).trans (ite_self _)
@[simp] theorem Hart.trapEntry_failed (h : Hart) (c : Nat) (a b r : Word) (y : Bool) : (h.trapEntry c a b r y).failed = h.failed := by
  exact (apply_ite (fun g : Hart => g.failed) _ _ _).trans (ite_self _)
@[simp] theorem Hart.trapEntry_p (h : Hart) (c : Nat) (a b r : Word) (y : Bool) : (h.trapEntry c a b r y).p = h.p := by
  exact (apply_ite (fun g : Hart => g.p) _ _ _).trans (ite_self _)
@[simp] theorem Hart.trapEntry_st (h : Hart) (c : Nat) (a b r : Word) (y : Bool) : (h.trapEntry c a b r y).st = h.st := by
  exact (apply_ite (fun g : Hart => g.st) _ _ _).trans (ite_self _)
@[simp] theorem Hart.trapEntry_tdeleg (h : Hart) (c : Nat) (a b r : Word) (y : Bool) : (h.trapEntry c a b r y).tdeleg = h.tdeleg := by
  exact (apply_ite (fun g : Hart => g.tdeleg) _ _ _).trans (ite_self _)
@[simp] theorem Hart.trapEntry_vgrant (h : Hart) (c : Nat) (a b r : Word) (y : Bool) : (h.trapEntry c a b r y).vgrant = h.vgrant := by
  exact (apply_ite (fun g : Hart => g.vgrant) _ _ _).trans (ite_self _)
@[simp] theorem Hart.trapEntry_vtype (h : Hart) (c : Nat) (a b r : Word) (y : Bool) : (h.trapEntry c a b r y).vtype = h.vtype := by
  exact (apply_ite (fun g : Hart => g.vtype) _ _ _).trans (ite_self _)
@[simp] theorem Hart.trapEntry_elem (h : Hart) (c : Nat) (a b r : Word) (y : Bool) : (h.trapEntry c a b r y).elem = h.elem := by
  exact (apply_ite (fun g : Hart => g.elem) _ _ _).trans (ite_self _)
@[simp] theorem Hart.trapEntry_slot (h : Hart) (c : Nat) (a b r : Word) (y : Bool) : (h.trapEntry c a b r y).slot = h.slot := by
  exact (apply_ite (fun g : Hart => g.slot) _ _ _).trans (ite_self _)
@[simp] theorem Hart.trapEntry_vdirty (h : Hart) (c : Nat) (a b r : Word) (y : Bool) : (h.trapEntry c a b r y).vdirty = h.vdirty := by
  exact (apply_ite (fun g : Hart => g.vdirty) _ _ _).trans (ite_self _)
@[simp] theorem Hart.trapEntry_ffi (h : Hart) (c : Nat) (a b r : Word) (y : Bool) : (h.trapEntry c a b r y).ffi = h.ffi := by
  exact (apply_ite (fun g : Hart => g.ffi) _ _ _).trans (ite_self _)
@[simp] theorem Hart.trapEntry_vxqc (h : Hart) (c : Nat) (a b r : Word) (y : Bool) : (h.trapEntry c a b r y).vxqc = h.vxqc := by
  exact (apply_ite (fun g : Hart => g.vxqc) _ _ _).trans (ite_self _)
@[simp] theorem Hart.trapEntry_fflags (h : Hart) (c : Nat) (a b r : Word) (y : Bool) : (h.trapEntry c a b r y).fflags = h.fflags := by
  exact (apply_ite (fun g : Hart => g.fflags) _ _ _).trans (ite_self _)
@[simp] theorem Hart.trapEntry_frm (h : Hart) (c : Nat) (a b r : Word) (y : Bool) : (h.trapEntry c a b r y).frm = h.frm := by
  exact (apply_ite (fun g : Hart => g.frm) _ _ _).trans (ite_self _)
@[simp] theorem Hart.trapEntry_srseed (h : Hart) (c : Nat) (a b r : Word) (y : Bool) : (h.trapEntry c a b r y).srseed = h.srseed := by
  exact (apply_ite (fun g : Hart => g.srseed) _ _ _).trans (ite_self _)
@[simp] theorem Hart.trapEntry_srbase (h : Hart) (c : Nat) (a b r : Word) (y : Bool) : (h.trapEntry c a b r y).srbase = h.srbase := by
  exact (apply_ite (fun g : Hart => g.srbase) _ _ _).trans (ite_self _)
@[simp] theorem Hart.trapEntry_mqtol (h : Hart) (c : Nat) (a b r : Word) (y : Bool) : (h.trapEntry c a b r y).mqtol = h.mqtol := by
  exact (apply_ite (fun g : Hart => g.mqtol) _ _ _).trans (ite_self _)
@[simp] theorem Hart.trapEntry_mqrmax (h : Hart) (c : Nat) (a b r : Word) (y : Bool) : (h.trapEntry c a b r y).mqrmax = h.mqrmax := by
  exact (apply_ite (fun g : Hart => g.mqrmax) _ _ _).trans (ite_self _)
@[simp] theorem Hart.trapEntry_instret (h : Hart) (c : Nat) (a b r : Word) (y : Bool) : (h.trapEntry c a b r y).instret = h.instret := by
  exact (apply_ite (fun g : Hart => g.instret) _ _ _).trans (ite_self _)
@[simp] theorem Hart.trapEntry_shadow (h : Hart) (c : Nat) (a b r : Word) (y : Bool) : (h.trapEntry c a b r y).shadow = h.shadow := by
  exact (apply_ite (fun g : Hart => g.shadow) _ _ _).trans (ite_self _)
@[simp] theorem Hart.trapEntry_released (h : Hart) (c : Nat) (a b r : Word) (y : Bool) : (h.trapEntry c a b r y).released = h.released := by
  exact (apply_ite (fun g : Hart => g.released) _ _ _).trans (ite_self _)
@[simp] theorem Hart.trapEntry_caught (h : Hart) (c : Nat) (a b r : Word) (y : Bool) : (h.trapEntry c a b r y).caught = h.caught := by
  exact (apply_ite (fun g : Hart => g.caught) _ _ _).trans (ite_self _)
@[simp] theorem Hart.trapEntry_stops (h : Hart) (c : Nat) (a b r : Word) (y : Bool) : (h.trapEntry c a b r y).stops = h.stops := by
  exact (apply_ite (fun g : Hart => g.stops) _ _ _).trans (ite_self _)
@[simp] theorem Hart.trapEntry_owed (h : Hart) (c : Nat) (a b r : Word) (y : Bool) : (h.trapEntry c a b r y).owed = false := by
  exact (apply_ite (fun g : Hart => g.owed) _ _ _).trans (ite_self _)
@[simp] theorem Hart.trapEntry_waitObj (h : Hart) (c : Nat) (a b r : Word) (y : Bool) : (h.trapEntry c a b r y).waitObj = h.waitObj := by
  exact (apply_ite (fun g : Hart => g.waitObj) _ _ _).trans (ite_self _)
@[simp] theorem Hart.trapEntry_reads (h : Hart) (c : Nat) (a b r : Word) (y : Bool) : (h.trapEntry c a b r y).reads = h.reads := by
  exact (apply_ite (fun g : Hart => g.reads) _ _ _).trans (ite_self _)
@[simp] theorem Hart.trapEntry_readsHeld (h : Hart) (c : Nat) (a b r : Word) (y : Bool) : (h.trapEntry c a b r y).readsHeld = h.readsHeld := by
  exact (apply_ite (fun g : Hart => g.readsHeld) _ _ _).trans (ite_self _)
@[simp] theorem Hart.trapEntry_draining (h : Hart) (c : Nat) (a b r : Word) (y : Bool) : (h.trapEntry c a b r y).draining = none := by
  exact (apply_ite (fun g : Hart => g.draining) _ _ _).trans (ite_self _)
@[simp] theorem Hart.trapEntry_preempt (h : Hart) (c : Nat) (a b r : Word) (y : Bool) : (h.trapEntry c a b r y).preempt = h.preempt := by
  exact (apply_ite (fun g : Hart => g.preempt) _ _ _).trans (ite_self _)
@[simp] theorem Hart.trapEntry_service (h : Hart) (c : Nat) (a b r : Word) (y : Bool) : (h.trapEntry c a b r y).service = h.service := by
  exact (apply_ite (fun g : Hart => g.service) _ _ _).trans (ite_self _)
@[simp] theorem Hart.trapEntry_emptyAt (h : Hart) (c : Nat) (a b r : Word) (y : Bool) : (h.trapEntry c a b r y).emptyAt = h.emptyAt := by
  exact (apply_ite (fun g : Hart => g.emptyAt) _ _ _).trans (ite_self _)
@[simp] theorem Hart.trapEntry_vstateAt (h : Hart) (c : Nat) (a b r : Word) (y : Bool) : (h.trapEntry c a b r y).vstateAt = h.vstateAt := by
  exact (apply_ite (fun g : Hart => g.vstateAt) _ _ _).trans (ite_self _)
@[simp] theorem Hart.trapEntry_failedAt (h : Hart) (c : Nat) (a b r : Word) (y : Bool) : (h.trapEntry c a b r y).failedAt = h.failedAt := by
  exact (apply_ite (fun g : Hart => g.failedAt) _ _ _).trans (ite_self _)
@[simp] theorem Hart.trapEntry_nextPc (h : Hart) (c : Nat) (a b r : Word) (y : Bool) : (h.trapEntry c a b r y).nextPc = h.nextPc := by
  exact (apply_ite (fun g : Hart => g.nextPc) _ _ _).trans (ite_self _)
@[simp] theorem Hart.trapEntry_gathers (h : Hart) (c : Nat) (a b r : Word) (y : Bool) : (h.trapEntry c a b r y).gathers = h.gathers := by
  exact (apply_ite (fun g : Hart => g.gathers) _ _ _).trans (ite_self _)
@[simp] theorem Hart.trapEntry_cut (h : Hart) (c : Nat) (a b r : Word) (y : Bool) : (h.trapEntry c a b r y).cut = h.cut := by
  exact (apply_ite (fun g : Hart => g.cut) _ _ _).trans (ite_self _)
@[simp] theorem Hart.trapEntry_arrived (h : Hart) (c : Nat) (a b r : Word) (y : Bool) : (h.trapEntry c a b r y).arrived = h.arrived := by
  exact (apply_ite (fun g : Hart => g.arrived) _ _ _).trans (ite_self _)
@[simp] theorem Hart.trapEntry_finMark (h : Hart) (c : Nat) (a b r : Word) (y : Bool) : (h.trapEntry c a b r y).finMark = h.finMark := by
  exact (apply_ite (fun g : Hart => g.finMark) _ _ _).trans (ite_self _)
@[simp] theorem Hart.trapEntry_exiting (h : Hart) (c : Nat) (a b r : Word) (y : Bool) : (h.trapEntry c a b r y).exiting = h.exiting := by
  exact (apply_ite (fun g : Hart => g.exiting) _ _ _).trans (ite_self _)
@[simp] theorem Hart.trapEntry_monitor (h : Hart) (c : Nat) (a b r : Word) (y : Bool) : (h.trapEntry c a b r y).monitor = none := by
  exact (apply_ite (fun g : Hart => g.monitor) _ _ _).trans (ite_self _)
@[simp] theorem Hart.trapEntry_life (h : Hart) (c : Nat) (a b r : Word) (y : Bool) : (h.trapEntry c a b r y).life = .ready := by
  exact (apply_ite (fun g : Hart => g.life) _ _ _).trans (ite_self _)
@[simp] theorem Hart.trapEntry_slots (h : Hart) (c : Nat) (a b r : Word) (y : Bool) : (h.trapEntry c a b r y).slots = [] := by
  exact (apply_ite (fun g : Hart => g.slots) _ _ _).trans (ite_self _)

/-- A delegated trap writes the U copies (04 R116). -/
theorem Hart.trapEntry_of_delegated {h : Hart} {c : Nat} (a b r : Word) (y : Bool) (e : delegated h c = true) :
    (h.trapEntry c a b r y).u = { h.u with tepc := r, tcause := causeWord c y, tval := a, tval2 := b } ∧
    (h.trapEntry c a b r y).s = h.s ∧ (h.trapEntry c a b r y).pc = h.u.tvec ∧
    (h.trapEntry c a b r y).tstat = { h.tstat with upie := h.tstat.uie, uie := false } := by
  have e' : delegated { h with monitor := none, slots := [], life := .ready, waitFor := none, latched := none, owed := false, full := h.undrained, draining := none, vstate := if h.slots ≠ [] ∧ h.vstate ≠ .off ∧ (h.elem ≠ 0 ∨ h.slot ≠ 0) then .dirty else h.vstate, traps := if y then h.traps else h.traps + 1, engfault := if c = cEngineFault then (b <<< 16) ||| (a &&& 0xFFFF) else h.engfault } c = true := e
  unfold Hart.trapEntry
  rw [if_pos e']
  exact ⟨rfl, rfl, rfl, rfl⟩

/-- Any other trap writes the S copies (04 R116). -/
theorem Hart.trapEntry_of_not_delegated {h : Hart} {c : Nat} (a b r : Word) (y : Bool) (e : delegated h c = false) :
    (h.trapEntry c a b r y).s = { h.s with tepc := r, tcause := causeWord c y, tval := a, tval2 := b } ∧
    (h.trapEntry c a b r y).u = h.u ∧ (h.trapEntry c a b r y).pc = h.s.tvec ∧
    (h.trapEntry c a b r y).tstat = { h.tstat with pprv := h.tstat.prv, pie := h.tstat.ie, ie := false, prv := true } := by
  have e' : ¬ delegated { h with monitor := none, slots := [], life := .ready, waitFor := none, latched := none, owed := false, full := h.undrained, draining := none, vstate := if h.slots ≠ [] ∧ h.vstate ≠ .off ∧ (h.elem ≠ 0 ∨ h.slot ≠ 0) then .dirty else h.vstate, traps := if y then h.traps else h.traps + 1, engfault := if c = cEngineFault then (b <<< 16) ||| (a &&& 0xFFFF) else h.engfault } c = true :=
    fun x => Bool.noConfusion (e.symm.trans x)
  unfold Hart.trapEntry
  rw [if_neg e']
  exact ⟨rfl, rfl, rfl, rfl⟩

@[simp] theorem State.leaveOrders_hart (s : State) (k j : Nat) : (s.leaveOrders k).hart j = s.hart j := by
  unfold State.leaveOrders; dsimp only; split <;> simp
@[simp] theorem State.leaveOrders_mem (s : State) (k : Nat) : (s.leaveOrders k).mem = s.mem := by
  unfold State.leaveOrders; dsimp only; split <;> simp

@[simp] theorem State.leaveAsks_hart (s : State) (w j : Nat) : (s.leaveAsks w).hart j = s.hart j := by
  unfold State.leaveAsks; split <;> rfl
@[simp] theorem State.leaveAsks_mem (s : State) (w : Nat) : (s.leaveAsks w).mem = s.mem := by
  unfold State.leaveAsks; split <;> rfl
@[simp] theorem State.leavePods_hart (s : State) (k j : Nat) : (s.leavePods k).hart j = s.hart j :=
  State.leaveAsks_hart _ _ _
@[simp] theorem State.leavePods_mem (s : State) (k : Nat) : (s.leavePods k).mem = s.mem := State.leaveAsks_mem _ _

/-- A vector hart keeps its stop in VSTART alone (03 R82). -/
theorem Hart.leaveSlot_of_vector {k : Nat} (h : Hart) (r : Word) (e : isSeqPlace k = false) : h.leaveSlot k r = h := by
  simp [Hart.leaveSlot, e]
theorem Hart.regainSlot_of_vector {k : Nat} (h : Hart) (e : isSeqPlace k = false) : h.regainSlot k = h := by
  simp [Hart.regainSlot, e]

/-- What a synchronous trap leaves of its hart, and of any other. -/
theorem State.hart_trapped (s : State) (k c : Nat) (a b : Word) (w : s.trapWaits k c = false) :
    (s.trapped k c a b).hart k = ((s.hart k).trapEntry c a b (s.hart k).pc false).leaveSlot k (s.hart k).pc := by
  simp [State.trapped, State.takeTrap, w]
theorem State.hart_trapped_ne (s : State) {k j : Nat} (c : Nat) (a b : Word) (e : j ≠ k) :
    (s.trapped k c a b).hart j = s.hart j := by
  unfold State.trapped State.takeTrap
  split <;> simp [State.modHart, State.hart_setHart_ne _ _ e]
@[simp] theorem State.trapped_mem (s : State) (k c : Nat) (a b : Word) : (s.trapped k c a b).mem = s.mem := by
  unfold State.trapped State.takeTrap
  split <;> simp

/-- Only a device runtime that is being committed (20 R427) and, of a sequencer, its word on the array (12 R311) hold a
trap up. -/
theorem State.trapWaits_of_running {s : State} (k c : Nat) (w : s.runtimePaused = false)
    (j : (isSeqPlace k && (s.core (k / 9)).job.isSome) = false) : s.trapWaits k c = false := by
  simp only [State.trapWaits, w, j, Bool.false_and, Bool.or_self]

@[simp] theorem Hart.leaveSlot_life (h : Hart) (k : Nat) (r : Word) : (h.leaveSlot k r).life = h.life := rfl
@[simp] theorem Hart.leaveSlot_group (h : Hart) (k : Nat) (r : Word) : (h.leaveSlot k r).group = h.group := rfl
@[simp] theorem Hart.leaveSlot_index (h : Hart) (k : Nat) (r : Word) : (h.leaveSlot k r).index = h.index := rfl
@[simp] theorem Hart.leaveSlot_pc (h : Hart) (k : Nat) (r : Word) : (h.leaveSlot k r).pc = h.pc := rfl
@[simp] theorem Hart.leaveSlot_x (h : Hart) (k : Nat) (r : Word) : (h.leaveSlot k r).x = h.x := rfl
@[simp] theorem Hart.leaveSlot_v (h : Hart) (k : Nat) (r : Word) : (h.leaveSlot k r).v = h.v := rfl
@[simp] theorem Hart.leaveSlot_full (h : Hart) (k : Nat) (r : Word) : (h.leaveSlot k r).full = h.full := rfl
@[simp] theorem Hart.leaveSlot_failed (h : Hart) (k : Nat) (r : Word) : (h.leaveSlot k r).failed = h.failed := rfl
@[simp] theorem Hart.leaveSlot_p (h : Hart) (k : Nat) (r : Word) : (h.leaveSlot k r).p = h.p := rfl
@[simp] theorem Hart.leaveSlot_st (h : Hart) (k : Nat) (r : Word) : (h.leaveSlot k r).st = h.st := rfl
@[simp] theorem Hart.leaveSlot_u (h : Hart) (k : Nat) (r : Word) : (h.leaveSlot k r).u = h.u := rfl
@[simp] theorem Hart.leaveSlot_s (h : Hart) (k : Nat) (r : Word) : (h.leaveSlot k r).s = h.s := rfl
@[simp] theorem Hart.leaveSlot_tdeleg (h : Hart) (k : Nat) (r : Word) : (h.leaveSlot k r).tdeleg = h.tdeleg := rfl
@[simp] theorem Hart.leaveSlot_tstat (h : Hart) (k : Nat) (r : Word) : (h.leaveSlot k r).tstat = h.tstat := rfl
@[simp] theorem Hart.leaveSlot_vgrant (h : Hart) (k : Nat) (r : Word) : (h.leaveSlot k r).vgrant = h.vgrant := rfl
@[simp] theorem Hart.leaveSlot_vtype (h : Hart) (k : Nat) (r : Word) : (h.leaveSlot k r).vtype = h.vtype := rfl
@[simp] theorem Hart.leaveSlot_elem (h : Hart) (k : Nat) (r : Word) : (h.leaveSlot k r).elem = h.elem := rfl
@[simp] theorem Hart.leaveSlot_vstate (h : Hart) (k : Nat) (r : Word) : (h.leaveSlot k r).vstate = h.vstate := rfl
@[simp] theorem Hart.leaveSlot_vdirty (h : Hart) (k : Nat) (r : Word) : (h.leaveSlot k r).vdirty = h.vdirty := rfl
@[simp] theorem Hart.leaveSlot_ffi (h : Hart) (k : Nat) (r : Word) : (h.leaveSlot k r).ffi = h.ffi := rfl
@[simp] theorem Hart.leaveSlot_vxqc (h : Hart) (k : Nat) (r : Word) : (h.leaveSlot k r).vxqc = h.vxqc := rfl
@[simp] theorem Hart.leaveSlot_fflags (h : Hart) (k : Nat) (r : Word) : (h.leaveSlot k r).fflags = h.fflags := rfl
@[simp] theorem Hart.leaveSlot_frm (h : Hart) (k : Nat) (r : Word) : (h.leaveSlot k r).frm = h.frm := rfl
@[simp] theorem Hart.leaveSlot_srseed (h : Hart) (k : Nat) (r : Word) : (h.leaveSlot k r).srseed = h.srseed := rfl
@[simp] theorem Hart.leaveSlot_srbase (h : Hart) (k : Nat) (r : Word) : (h.leaveSlot k r).srbase = h.srbase := rfl
@[simp] theorem Hart.leaveSlot_mqtol (h : Hart) (k : Nat) (r : Word) : (h.leaveSlot k r).mqtol = h.mqtol := rfl
@[simp] theorem Hart.leaveSlot_mqrmax (h : Hart) (k : Nat) (r : Word) : (h.leaveSlot k r).mqrmax = h.mqrmax := rfl
@[simp] theorem Hart.leaveSlot_instret (h : Hart) (k : Nat) (r : Word) : (h.leaveSlot k r).instret = h.instret := rfl
@[simp] theorem Hart.leaveSlot_engfault (h : Hart) (k : Nat) (r : Word) : (h.leaveSlot k r).engfault = h.engfault := rfl
@[simp] theorem Hart.leaveSlot_shadow (h : Hart) (k : Nat) (r : Word) : (h.leaveSlot k r).shadow = h.shadow := rfl
@[simp] theorem Hart.leaveSlot_monitor (h : Hart) (k : Nat) (r : Word) : (h.leaveSlot k r).monitor = h.monitor := rfl
@[simp] theorem Hart.leaveSlot_released (h : Hart) (k : Nat) (r : Word) : (h.leaveSlot k r).released = h.released := rfl
@[simp] theorem Hart.leaveSlot_preempt (h : Hart) (k : Nat) (r : Word) : (h.leaveSlot k r).preempt = h.preempt := rfl
@[simp] theorem Hart.leaveSlot_caught (h : Hart) (k : Nat) (r : Word) : (h.leaveSlot k r).caught = h.caught := rfl
@[simp] theorem Hart.leaveSlot_owed (h : Hart) (k : Nat) (r : Word) : (h.leaveSlot k r).owed = h.owed := rfl
@[simp] theorem Hart.leaveSlot_service (h : Hart) (k : Nat) (r : Word) : (h.leaveSlot k r).service = h.service := rfl
@[simp] theorem Hart.leaveSlot_emptyAt (h : Hart) (k : Nat) (r : Word) : (h.leaveSlot k r).emptyAt = h.emptyAt := rfl
@[simp] theorem Hart.leaveSlot_vstateAt (h : Hart) (k : Nat) (r : Word) : (h.leaveSlot k r).vstateAt = h.vstateAt := rfl
@[simp] theorem Hart.leaveSlot_failedAt (h : Hart) (k : Nat) (r : Word) : (h.leaveSlot k r).failedAt = h.failedAt := rfl
@[simp] theorem Hart.leaveSlot_slots (h : Hart) (k : Nat) (r : Word) : (h.leaveSlot k r).slots = h.slots := rfl
@[simp] theorem Hart.leaveSlot_nextPc (h : Hart) (k : Nat) (r : Word) : (h.leaveSlot k r).nextPc = h.nextPc := rfl
@[simp] theorem Hart.leaveSlot_gathers (h : Hart) (k : Nat) (r : Word) : (h.leaveSlot k r).gathers = h.gathers := rfl
@[simp] theorem Hart.leaveSlot_reads (h : Hart) (k : Nat) (r : Word) : (h.leaveSlot k r).reads = h.reads := rfl
@[simp] theorem Hart.leaveSlot_readsHeld (h : Hart) (k : Nat) (r : Word) : (h.leaveSlot k r).readsHeld = h.readsHeld := rfl
@[simp] theorem Hart.leaveSlot_draining (h : Hart) (k : Nat) (r : Word) : (h.leaveSlot k r).draining = h.draining := rfl
@[simp] theorem Hart.leaveSlot_cut (h : Hart) (k : Nat) (r : Word) : (h.leaveSlot k r).cut = h.cut := rfl
@[simp] theorem Hart.leaveSlot_latched (h : Hart) (k : Nat) (r : Word) : (h.leaveSlot k r).latched = h.latched := rfl
@[simp] theorem Hart.leaveSlot_waitFor (h : Hart) (k : Nat) (r : Word) : (h.leaveSlot k r).waitFor = h.waitFor := rfl
@[simp] theorem Hart.leaveSlot_waitObj (h : Hart) (k : Nat) (r : Word) : (h.leaveSlot k r).waitObj = h.waitObj := rfl
@[simp] theorem Hart.leaveSlot_arrived (h : Hart) (k : Nat) (r : Word) : (h.leaveSlot k r).arrived = h.arrived := rfl
@[simp] theorem Hart.leaveSlot_finMark (h : Hart) (k : Nat) (r : Word) : (h.leaveSlot k r).finMark = h.finMark := rfl
@[simp] theorem Hart.leaveSlot_entering (h : Hart) (k : Nat) (r : Word) : (h.leaveSlot k r).entering = h.entering := rfl
@[simp] theorem Hart.leaveSlot_exiting (h : Hart) (k : Nat) (r : Word) : (h.leaveSlot k r).exiting = h.exiting := rfl
@[simp] theorem Hart.leaveSlot_traps (h : Hart) (k : Nat) (r : Word) : (h.leaveSlot k r).traps = h.traps := rfl

@[simp] theorem Hart.regainSlot_life (h : Hart) (k : Nat) : (h.regainSlot k).life = h.life := rfl
@[simp] theorem Hart.regainSlot_group (h : Hart) (k : Nat) : (h.regainSlot k).group = h.group := rfl
@[simp] theorem Hart.regainSlot_index (h : Hart) (k : Nat) : (h.regainSlot k).index = h.index := rfl
@[simp] theorem Hart.regainSlot_pc (h : Hart) (k : Nat) : (h.regainSlot k).pc = h.pc := rfl
@[simp] theorem Hart.regainSlot_x (h : Hart) (k : Nat) : (h.regainSlot k).x = h.x := rfl
@[simp] theorem Hart.regainSlot_v (h : Hart) (k : Nat) : (h.regainSlot k).v = h.v := rfl
@[simp] theorem Hart.regainSlot_full (h : Hart) (k : Nat) : (h.regainSlot k).full = h.full := rfl
@[simp] theorem Hart.regainSlot_failed (h : Hart) (k : Nat) : (h.regainSlot k).failed = h.failed := rfl
@[simp] theorem Hart.regainSlot_p (h : Hart) (k : Nat) : (h.regainSlot k).p = h.p := rfl
@[simp] theorem Hart.regainSlot_st (h : Hart) (k : Nat) : (h.regainSlot k).st = h.st := rfl
@[simp] theorem Hart.regainSlot_u (h : Hart) (k : Nat) : (h.regainSlot k).u = h.u := rfl
@[simp] theorem Hart.regainSlot_s (h : Hart) (k : Nat) : (h.regainSlot k).s = h.s := rfl
@[simp] theorem Hart.regainSlot_tdeleg (h : Hart) (k : Nat) : (h.regainSlot k).tdeleg = h.tdeleg := rfl
@[simp] theorem Hart.regainSlot_tstat (h : Hart) (k : Nat) : (h.regainSlot k).tstat = h.tstat := rfl
@[simp] theorem Hart.regainSlot_vgrant (h : Hart) (k : Nat) : (h.regainSlot k).vgrant = h.vgrant := rfl
@[simp] theorem Hart.regainSlot_vtype (h : Hart) (k : Nat) : (h.regainSlot k).vtype = h.vtype := rfl
@[simp] theorem Hart.regainSlot_elem (h : Hart) (k : Nat) : (h.regainSlot k).elem = h.elem := rfl
@[simp] theorem Hart.regainSlot_vstate (h : Hart) (k : Nat) : (h.regainSlot k).vstate = h.vstate := rfl
@[simp] theorem Hart.regainSlot_vdirty (h : Hart) (k : Nat) : (h.regainSlot k).vdirty = h.vdirty := rfl
@[simp] theorem Hart.regainSlot_ffi (h : Hart) (k : Nat) : (h.regainSlot k).ffi = h.ffi := rfl
@[simp] theorem Hart.regainSlot_vxqc (h : Hart) (k : Nat) : (h.regainSlot k).vxqc = h.vxqc := rfl
@[simp] theorem Hart.regainSlot_fflags (h : Hart) (k : Nat) : (h.regainSlot k).fflags = h.fflags := rfl
@[simp] theorem Hart.regainSlot_frm (h : Hart) (k : Nat) : (h.regainSlot k).frm = h.frm := rfl
@[simp] theorem Hart.regainSlot_srseed (h : Hart) (k : Nat) : (h.regainSlot k).srseed = h.srseed := rfl
@[simp] theorem Hart.regainSlot_srbase (h : Hart) (k : Nat) : (h.regainSlot k).srbase = h.srbase := rfl
@[simp] theorem Hart.regainSlot_mqtol (h : Hart) (k : Nat) : (h.regainSlot k).mqtol = h.mqtol := rfl
@[simp] theorem Hart.regainSlot_mqrmax (h : Hart) (k : Nat) : (h.regainSlot k).mqrmax = h.mqrmax := rfl
@[simp] theorem Hart.regainSlot_instret (h : Hart) (k : Nat) : (h.regainSlot k).instret = h.instret := rfl
@[simp] theorem Hart.regainSlot_engfault (h : Hart) (k : Nat) : (h.regainSlot k).engfault = h.engfault := rfl
@[simp] theorem Hart.regainSlot_shadow (h : Hart) (k : Nat) : (h.regainSlot k).shadow = h.shadow := rfl
@[simp] theorem Hart.regainSlot_monitor (h : Hart) (k : Nat) : (h.regainSlot k).monitor = h.monitor := rfl
@[simp] theorem Hart.regainSlot_released (h : Hart) (k : Nat) : (h.regainSlot k).released = h.released := rfl
@[simp] theorem Hart.regainSlot_preempt (h : Hart) (k : Nat) : (h.regainSlot k).preempt = h.preempt := rfl
@[simp] theorem Hart.regainSlot_caught (h : Hart) (k : Nat) : (h.regainSlot k).caught = h.caught := rfl
@[simp] theorem Hart.regainSlot_owed (h : Hart) (k : Nat) : (h.regainSlot k).owed = h.owed := rfl
@[simp] theorem Hart.regainSlot_service (h : Hart) (k : Nat) : (h.regainSlot k).service = h.service := rfl
@[simp] theorem Hart.regainSlot_emptyAt (h : Hart) (k : Nat) : (h.regainSlot k).emptyAt = h.emptyAt := rfl
@[simp] theorem Hart.regainSlot_vstateAt (h : Hart) (k : Nat) : (h.regainSlot k).vstateAt = h.vstateAt := rfl
@[simp] theorem Hart.regainSlot_failedAt (h : Hart) (k : Nat) : (h.regainSlot k).failedAt = h.failedAt := rfl
@[simp] theorem Hart.regainSlot_slots (h : Hart) (k : Nat) : (h.regainSlot k).slots = h.slots := rfl
@[simp] theorem Hart.regainSlot_nextPc (h : Hart) (k : Nat) : (h.regainSlot k).nextPc = h.nextPc := rfl
@[simp] theorem Hart.regainSlot_gathers (h : Hart) (k : Nat) : (h.regainSlot k).gathers = h.gathers := rfl
@[simp] theorem Hart.regainSlot_reads (h : Hart) (k : Nat) : (h.regainSlot k).reads = h.reads := rfl
@[simp] theorem Hart.regainSlot_readsHeld (h : Hart) (k : Nat) : (h.regainSlot k).readsHeld = h.readsHeld := rfl
@[simp] theorem Hart.regainSlot_draining (h : Hart) (k : Nat) : (h.regainSlot k).draining = h.draining := rfl
@[simp] theorem Hart.regainSlot_cut (h : Hart) (k : Nat) : (h.regainSlot k).cut = h.cut := rfl
@[simp] theorem Hart.regainSlot_latched (h : Hart) (k : Nat) : (h.regainSlot k).latched = h.latched := rfl
@[simp] theorem Hart.regainSlot_waitFor (h : Hart) (k : Nat) : (h.regainSlot k).waitFor = h.waitFor := rfl
@[simp] theorem Hart.regainSlot_waitObj (h : Hart) (k : Nat) : (h.regainSlot k).waitObj = h.waitObj := rfl
@[simp] theorem Hart.regainSlot_arrived (h : Hart) (k : Nat) : (h.regainSlot k).arrived = h.arrived := rfl
@[simp] theorem Hart.regainSlot_finMark (h : Hart) (k : Nat) : (h.regainSlot k).finMark = h.finMark := rfl
@[simp] theorem Hart.regainSlot_entering (h : Hart) (k : Nat) : (h.regainSlot k).entering = h.entering := rfl
@[simp] theorem Hart.regainSlot_exiting (h : Hart) (k : Nat) : (h.regainSlot k).exiting = h.exiting := rfl
@[simp] theorem Hart.regainSlot_traps (h : Hart) (k : Nat) : (h.regainSlot k).traps = h.traps := rfl

/-! ## Return from a trap (04 R130) -/

@[simp] theorem Hart.trapReturn_life (h : Hart) : (h.trapReturn).life = h.life := by
  unfold Hart.trapReturn; split <;> rfl
@[simp] theorem Hart.trapReturn_group (h : Hart) : (h.trapReturn).group = h.group := by
  unfold Hart.trapReturn; split <;> rfl
@[simp] theorem Hart.trapReturn_index (h : Hart) : (h.trapReturn).index = h.index := by
  unfold Hart.trapReturn; split <;> rfl
@[simp] theorem Hart.trapReturn_x (h : Hart) : (h.trapReturn).x = h.x := by
  unfold Hart.trapReturn; split <;> rfl
@[simp] theorem Hart.trapReturn_v (h : Hart) : (h.trapReturn).v = h.v := by
  unfold Hart.trapReturn; split <;> rfl
@[simp] theorem Hart.trapReturn_full (h : Hart) : (h.trapReturn).full = h.full := by
  unfold Hart.trapReturn; split <;> rfl
@[simp] theorem Hart.trapReturn_failed (h : Hart) : (h.trapReturn).failed = h.failed := by
  unfold Hart.trapReturn; split <;> rfl
@[simp] theorem Hart.trapReturn_p (h : Hart) : (h.trapReturn).p = h.p := by
  unfold Hart.trapReturn; split <;> rfl
@[simp] theorem Hart.trapReturn_st (h : Hart) : (h.trapReturn).st = h.st := by
  unfold Hart.trapReturn; split <;> rfl
@[simp] theorem Hart.trapReturn_u (h : Hart) : (h.trapReturn).u = h.u := by
  unfold Hart.trapReturn; split <;> rfl
@[simp] theorem Hart.trapReturn_s (h : Hart) : (h.trapReturn).s = h.s := by
  unfold Hart.trapReturn; split <;> rfl
@[simp] theorem Hart.trapReturn_tdeleg (h : Hart) : (h.trapReturn).tdeleg = h.tdeleg := by
  unfold Hart.trapReturn; split <;> rfl
@[simp] theorem Hart.trapReturn_vgrant (h : Hart) : (h.trapReturn).vgrant = h.vgrant := by
  unfold Hart.trapReturn; split <;> rfl
@[simp] theorem Hart.trapReturn_vtype (h : Hart) : (h.trapReturn).vtype = h.vtype := by
  unfold Hart.trapReturn; split <;> rfl
@[simp] theorem Hart.trapReturn_elem (h : Hart) : (h.trapReturn).elem = h.elem := by
  unfold Hart.trapReturn; split <;> rfl
@[simp] theorem Hart.trapReturn_slot (h : Hart) : (h.trapReturn).slot = h.slot := by
  unfold Hart.trapReturn; split <;> rfl
@[simp] theorem Hart.trapReturn_vstate (h : Hart) : (h.trapReturn).vstate = h.vstate := by
  unfold Hart.trapReturn; split <;> rfl
@[simp] theorem Hart.trapReturn_vdirty (h : Hart) : (h.trapReturn).vdirty = h.vdirty := by
  unfold Hart.trapReturn; split <;> rfl
@[simp] theorem Hart.trapReturn_ffi (h : Hart) : (h.trapReturn).ffi = h.ffi := by
  unfold Hart.trapReturn; split <;> rfl
@[simp] theorem Hart.trapReturn_vxqc (h : Hart) : (h.trapReturn).vxqc = h.vxqc := by
  unfold Hart.trapReturn; split <;> rfl
@[simp] theorem Hart.trapReturn_fflags (h : Hart) : (h.trapReturn).fflags = h.fflags := by
  unfold Hart.trapReturn; split <;> rfl
@[simp] theorem Hart.trapReturn_frm (h : Hart) : (h.trapReturn).frm = h.frm := by
  unfold Hart.trapReturn; split <;> rfl
@[simp] theorem Hart.trapReturn_srseed (h : Hart) : (h.trapReturn).srseed = h.srseed := by
  unfold Hart.trapReturn; split <;> rfl
@[simp] theorem Hart.trapReturn_srbase (h : Hart) : (h.trapReturn).srbase = h.srbase := by
  unfold Hart.trapReturn; split <;> rfl
@[simp] theorem Hart.trapReturn_mqtol (h : Hart) : (h.trapReturn).mqtol = h.mqtol := by
  unfold Hart.trapReturn; split <;> rfl
@[simp] theorem Hart.trapReturn_mqrmax (h : Hart) : (h.trapReturn).mqrmax = h.mqrmax := by
  unfold Hart.trapReturn; split <;> rfl
@[simp] theorem Hart.trapReturn_instret (h : Hart) : (h.trapReturn).instret = h.instret := by
  unfold Hart.trapReturn; split <;> rfl
@[simp] theorem Hart.trapReturn_engfault (h : Hart) : (h.trapReturn).engfault = h.engfault := by
  unfold Hart.trapReturn; split <;> rfl
@[simp] theorem Hart.trapReturn_shadow (h : Hart) : (h.trapReturn).shadow = h.shadow := by
  unfold Hart.trapReturn; split <;> rfl
@[simp] theorem Hart.trapReturn_released (h : Hart) : (h.trapReturn).released = h.released := by
  unfold Hart.trapReturn; split <;> rfl
@[simp] theorem Hart.trapReturn_caught (h : Hart) : (h.trapReturn).caught = h.caught := by
  unfold Hart.trapReturn; split <;> rfl
@[simp] theorem Hart.trapReturn_stops (h : Hart) : (h.trapReturn).stops = h.stops := by
  unfold Hart.trapReturn; split <;> rfl
@[simp] theorem Hart.trapReturn_owed (h : Hart) : (h.trapReturn).owed = h.owed := by
  unfold Hart.trapReturn; split <;> rfl
@[simp] theorem Hart.trapReturn_waitObj (h : Hart) : (h.trapReturn).waitObj = h.waitObj := by
  unfold Hart.trapReturn; split <;> rfl
@[simp] theorem Hart.trapReturn_reads (h : Hart) : (h.trapReturn).reads = h.reads := by
  unfold Hart.trapReturn; split <;> rfl
@[simp] theorem Hart.trapReturn_readsHeld (h : Hart) : (h.trapReturn).readsHeld = h.readsHeld := by
  unfold Hart.trapReturn; split <;> rfl
@[simp] theorem Hart.trapReturn_draining (h : Hart) : (h.trapReturn).draining = h.draining := by
  unfold Hart.trapReturn; split <;> rfl
@[simp] theorem Hart.trapReturn_preempt (h : Hart) : (h.trapReturn).preempt = h.preempt := by
  unfold Hart.trapReturn; split <;> rfl
@[simp] theorem Hart.trapReturn_service (h : Hart) : (h.trapReturn).service = h.service := by
  unfold Hart.trapReturn; split <;> rfl
@[simp] theorem Hart.trapReturn_emptyAt (h : Hart) : (h.trapReturn).emptyAt = h.emptyAt := by
  unfold Hart.trapReturn; split <;> rfl
@[simp] theorem Hart.trapReturn_vstateAt (h : Hart) : (h.trapReturn).vstateAt = h.vstateAt := by
  unfold Hart.trapReturn; split <;> rfl
@[simp] theorem Hart.trapReturn_failedAt (h : Hart) : (h.trapReturn).failedAt = h.failedAt := by
  unfold Hart.trapReturn; split <;> rfl
@[simp] theorem Hart.trapReturn_slots (h : Hart) : (h.trapReturn).slots = h.slots := by
  unfold Hart.trapReturn; split <;> rfl
@[simp] theorem Hart.trapReturn_nextPc (h : Hart) : (h.trapReturn).nextPc = h.nextPc := by
  unfold Hart.trapReturn; split <;> rfl
@[simp] theorem Hart.trapReturn_gathers (h : Hart) : (h.trapReturn).gathers = h.gathers := by
  unfold Hart.trapReturn; split <;> rfl
@[simp] theorem Hart.trapReturn_cut (h : Hart) : (h.trapReturn).cut = h.cut := by
  unfold Hart.trapReturn; split <;> rfl
@[simp] theorem Hart.trapReturn_latched (h : Hart) : (h.trapReturn).latched = h.latched := by
  unfold Hart.trapReturn; split <;> rfl
@[simp] theorem Hart.trapReturn_waitFor (h : Hart) : (h.trapReturn).waitFor = h.waitFor := by
  unfold Hart.trapReturn; split <;> rfl
@[simp] theorem Hart.trapReturn_arrived (h : Hart) : (h.trapReturn).arrived = h.arrived := by
  unfold Hart.trapReturn; split <;> rfl
@[simp] theorem Hart.trapReturn_finMark (h : Hart) : (h.trapReturn).finMark = h.finMark := by
  unfold Hart.trapReturn; split <;> rfl
@[simp] theorem Hart.trapReturn_entering (h : Hart) : (h.trapReturn).entering = h.entering := by
  unfold Hart.trapReturn; split <;> rfl
@[simp] theorem Hart.trapReturn_exiting (h : Hart) : (h.trapReturn).exiting = h.exiting := by
  unfold Hart.trapReturn; split <;> rfl
@[simp] theorem Hart.trapReturn_traps (h : Hart) : (h.trapReturn).traps = h.traps := by
  unfold Hart.trapReturn; split <;> rfl
@[simp] theorem Hart.endService_life (h : Hart) : (h.endService).life = h.life := by
  unfold Hart.endService; split <;> rfl
@[simp] theorem Hart.endService_group (h : Hart) : (h.endService).group = h.group := by
  unfold Hart.endService; split <;> rfl
@[simp] theorem Hart.endService_index (h : Hart) : (h.endService).index = h.index := by
  unfold Hart.endService; split <;> rfl
@[simp] theorem Hart.endService_pc (h : Hart) : (h.endService).pc = h.pc := by
  unfold Hart.endService; split <;> rfl
@[simp] theorem Hart.endService_x (h : Hart) : (h.endService).x = h.x := by
  unfold Hart.endService; split <;> rfl
@[simp] theorem Hart.endService_v (h : Hart) : (h.endService).v = h.v := by
  unfold Hart.endService; split <;> rfl
@[simp] theorem Hart.endService_p (h : Hart) : (h.endService).p = h.p := by
  unfold Hart.endService; split <;> rfl
@[simp] theorem Hart.endService_st (h : Hart) : (h.endService).st = h.st := by
  unfold Hart.endService; split <;> rfl
@[simp] theorem Hart.endService_u (h : Hart) : (h.endService).u = h.u := by
  unfold Hart.endService; split <;> rfl
@[simp] theorem Hart.endService_s (h : Hart) : (h.endService).s = h.s := by
  unfold Hart.endService; split <;> rfl
@[simp] theorem Hart.endService_tdeleg (h : Hart) : (h.endService).tdeleg = h.tdeleg := by
  unfold Hart.endService; split <;> rfl
@[simp] theorem Hart.endService_tstat (h : Hart) : (h.endService).tstat = h.tstat := by
  unfold Hart.endService; split <;> rfl
@[simp] theorem Hart.endService_vgrant (h : Hart) : (h.endService).vgrant = h.vgrant := by
  unfold Hart.endService; split <;> rfl
@[simp] theorem Hart.endService_vtype (h : Hart) : (h.endService).vtype = h.vtype := by
  unfold Hart.endService; split <;> rfl
@[simp] theorem Hart.endService_elem (h : Hart) : (h.endService).elem = h.elem := by
  unfold Hart.endService; split <;> rfl
@[simp] theorem Hart.endService_slot (h : Hart) : (h.endService).slot = h.slot := by
  unfold Hart.endService; split <;> rfl
@[simp] theorem Hart.endService_vstate (h : Hart) : (h.endService).vstate = h.vstate := by
  unfold Hart.endService; split <;> rfl
@[simp] theorem Hart.endService_vdirty (h : Hart) : (h.endService).vdirty = h.vdirty := by
  unfold Hart.endService; split <;> rfl
@[simp] theorem Hart.endService_ffi (h : Hart) : (h.endService).ffi = h.ffi := by
  unfold Hart.endService; split <;> rfl
@[simp] theorem Hart.endService_vxqc (h : Hart) : (h.endService).vxqc = h.vxqc := by
  unfold Hart.endService; split <;> rfl
@[simp] theorem Hart.endService_fflags (h : Hart) : (h.endService).fflags = h.fflags := by
  unfold Hart.endService; split <;> rfl
@[simp] theorem Hart.endService_frm (h : Hart) : (h.endService).frm = h.frm := by
  unfold Hart.endService; split <;> rfl
@[simp] theorem Hart.endService_srseed (h : Hart) : (h.endService).srseed = h.srseed := by
  unfold Hart.endService; split <;> rfl
@[simp] theorem Hart.endService_srbase (h : Hart) : (h.endService).srbase = h.srbase := by
  unfold Hart.endService; split <;> rfl
@[simp] theorem Hart.endService_mqtol (h : Hart) : (h.endService).mqtol = h.mqtol := by
  unfold Hart.endService; split <;> rfl
@[simp] theorem Hart.endService_mqrmax (h : Hart) : (h.endService).mqrmax = h.mqrmax := by
  unfold Hart.endService; split <;> rfl
@[simp] theorem Hart.endService_instret (h : Hart) : (h.endService).instret = h.instret := by
  unfold Hart.endService; split <;> rfl
@[simp] theorem Hart.endService_engfault (h : Hart) : (h.endService).engfault = h.engfault := by
  unfold Hart.endService; split <;> rfl
@[simp] theorem Hart.endService_shadow (h : Hart) : (h.endService).shadow = h.shadow := by
  unfold Hart.endService; split <;> rfl
@[simp] theorem Hart.endService_monitor (h : Hart) : (h.endService).monitor = h.monitor := by
  unfold Hart.endService; split <;> rfl
@[simp] theorem Hart.endService_released (h : Hart) : (h.endService).released = h.released := by
  unfold Hart.endService; split <;> rfl
@[simp] theorem Hart.endService_caught (h : Hart) : (h.endService).caught = h.caught := by
  unfold Hart.endService; split <;> rfl
@[simp] theorem Hart.endService_stops (h : Hart) : (h.endService).stops = h.stops := by
  unfold Hart.endService; split <;> rfl
@[simp] theorem Hart.endService_owed (h : Hart) : (h.endService).owed = h.owed := by
  unfold Hart.endService; split <;> rfl
@[simp] theorem Hart.endService_waitObj (h : Hart) : (h.endService).waitObj = h.waitObj := by
  unfold Hart.endService; split <;> rfl
@[simp] theorem Hart.endService_reads (h : Hart) : (h.endService).reads = h.reads := by
  unfold Hart.endService; split <;> rfl
@[simp] theorem Hart.endService_readsHeld (h : Hart) : (h.endService).readsHeld = h.readsHeld := by
  unfold Hart.endService; split <;> rfl
@[simp] theorem Hart.endService_draining (h : Hart) : (h.endService).draining = h.draining := by
  unfold Hart.endService; split <;> rfl
@[simp] theorem Hart.endService_preempt (h : Hart) : (h.endService).preempt = h.preempt := by
  unfold Hart.endService; split <;> rfl
@[simp] theorem Hart.endService_emptyAt (h : Hart) : (h.endService).emptyAt = h.emptyAt := by
  unfold Hart.endService; split <;> rfl
@[simp] theorem Hart.endService_vstateAt (h : Hart) : (h.endService).vstateAt = h.vstateAt := by
  unfold Hart.endService; split <;> rfl
@[simp] theorem Hart.endService_failedAt (h : Hart) : (h.endService).failedAt = h.failedAt := by
  unfold Hart.endService; split <;> rfl
@[simp] theorem Hart.endService_slots (h : Hart) : (h.endService).slots = h.slots := by
  unfold Hart.endService; split <;> rfl
@[simp] theorem Hart.endService_nextPc (h : Hart) : (h.endService).nextPc = h.nextPc := by
  unfold Hart.endService; split <;> rfl
@[simp] theorem Hart.endService_gathers (h : Hart) : (h.endService).gathers = h.gathers := by
  unfold Hart.endService; split <;> rfl
@[simp] theorem Hart.endService_cut (h : Hart) : (h.endService).cut = h.cut := by
  unfold Hart.endService; split <;> rfl
@[simp] theorem Hart.endService_latched (h : Hart) : (h.endService).latched = h.latched := by
  unfold Hart.endService; split <;> rfl
@[simp] theorem Hart.endService_waitFor (h : Hart) : (h.endService).waitFor = h.waitFor := by
  unfold Hart.endService; split <;> rfl
@[simp] theorem Hart.endService_arrived (h : Hart) : (h.endService).arrived = h.arrived := by
  unfold Hart.endService; split <;> rfl
@[simp] theorem Hart.endService_finMark (h : Hart) : (h.endService).finMark = h.finMark := by
  unfold Hart.endService; split <;> rfl
@[simp] theorem Hart.endService_entering (h : Hart) : (h.endService).entering = h.entering := by
  unfold Hart.endService; split <;> rfl
@[simp] theorem Hart.endService_exiting (h : Hart) : (h.endService).exiting = h.exiting := by
  unfold Hart.endService; split <;> rfl
@[simp] theorem Hart.endService_traps (h : Hart) : (h.endService).traps = h.traps := by
  unfold Hart.endService; split <;> rfl

/-! ## The end of a slot (03 R81) -/

@[simp] theorem Hart.retireSlot_group (h : Hart) : (h.retireSlot).group = h.group := by
  unfold Hart.retireSlot; split <;> rfl
@[simp] theorem Hart.retireSlot_index (h : Hart) : (h.retireSlot).index = h.index := by
  unfold Hart.retireSlot; split <;> rfl
@[simp] theorem Hart.retireSlot_x (h : Hart) : (h.retireSlot).x = h.x := by
  unfold Hart.retireSlot; split <;> rfl
@[simp] theorem Hart.retireSlot_v (h : Hart) : (h.retireSlot).v = h.v := by
  unfold Hart.retireSlot; split <;> rfl
@[simp] theorem Hart.retireSlot_full (h : Hart) : (h.retireSlot).full = h.full := by
  unfold Hart.retireSlot; split <;> rfl
@[simp] theorem Hart.retireSlot_failed (h : Hart) : (h.retireSlot).failed = h.failed := by
  unfold Hart.retireSlot; split <;> rfl
@[simp] theorem Hart.retireSlot_p (h : Hart) : (h.retireSlot).p = h.p := by
  unfold Hart.retireSlot; split <;> rfl
@[simp] theorem Hart.retireSlot_st (h : Hart) : (h.retireSlot).st = h.st := by
  unfold Hart.retireSlot; split <;> rfl
@[simp] theorem Hart.retireSlot_u (h : Hart) : (h.retireSlot).u = h.u := by
  unfold Hart.retireSlot; split <;> rfl
@[simp] theorem Hart.retireSlot_s (h : Hart) : (h.retireSlot).s = h.s := by
  unfold Hart.retireSlot; split <;> rfl
@[simp] theorem Hart.retireSlot_tdeleg (h : Hart) : (h.retireSlot).tdeleg = h.tdeleg := by
  unfold Hart.retireSlot; split <;> rfl
@[simp] theorem Hart.retireSlot_tstat (h : Hart) : (h.retireSlot).tstat = h.tstat := by
  unfold Hart.retireSlot; split <;> rfl
@[simp] theorem Hart.retireSlot_vgrant (h : Hart) : (h.retireSlot).vgrant = h.vgrant := by
  unfold Hart.retireSlot; split <;> rfl
@[simp] theorem Hart.retireSlot_vtype (h : Hart) : (h.retireSlot).vtype = h.vtype := by
  unfold Hart.retireSlot; split <;> rfl
@[simp] theorem Hart.retireSlot_vstate (h : Hart) : (h.retireSlot).vstate = h.vstate := by
  unfold Hart.retireSlot; split <;> rfl
@[simp] theorem Hart.retireSlot_vdirty (h : Hart) : (h.retireSlot).vdirty = h.vdirty := by
  unfold Hart.retireSlot; split <;> rfl
@[simp] theorem Hart.retireSlot_ffi (h : Hart) : (h.retireSlot).ffi = h.ffi := by
  unfold Hart.retireSlot; split <;> rfl
@[simp] theorem Hart.retireSlot_vxqc (h : Hart) : (h.retireSlot).vxqc = h.vxqc := by
  unfold Hart.retireSlot; split <;> rfl
@[simp] theorem Hart.retireSlot_fflags (h : Hart) : (h.retireSlot).fflags = h.fflags := by
  unfold Hart.retireSlot; split <;> rfl
@[simp] theorem Hart.retireSlot_frm (h : Hart) : (h.retireSlot).frm = h.frm := by
  unfold Hart.retireSlot; split <;> rfl
@[simp] theorem Hart.retireSlot_srseed (h : Hart) : (h.retireSlot).srseed = h.srseed := by
  unfold Hart.retireSlot; split <;> rfl
@[simp] theorem Hart.retireSlot_srbase (h : Hart) : (h.retireSlot).srbase = h.srbase := by
  unfold Hart.retireSlot; split <;> rfl
@[simp] theorem Hart.retireSlot_mqtol (h : Hart) : (h.retireSlot).mqtol = h.mqtol := by
  unfold Hart.retireSlot; split <;> rfl
@[simp] theorem Hart.retireSlot_mqrmax (h : Hart) : (h.retireSlot).mqrmax = h.mqrmax := by
  unfold Hart.retireSlot; split <;> rfl
@[simp] theorem Hart.retireSlot_engfault (h : Hart) : (h.retireSlot).engfault = h.engfault := by
  unfold Hart.retireSlot; split <;> rfl
@[simp] theorem Hart.retireSlot_shadow (h : Hart) : (h.retireSlot).shadow = h.shadow := by
  unfold Hart.retireSlot; split <;> rfl
@[simp] theorem Hart.retireSlot_monitor (h : Hart) : (h.retireSlot).monitor = h.monitor := by
  unfold Hart.retireSlot; split <;> rfl
@[simp] theorem Hart.retireSlot_released (h : Hart) : (h.retireSlot).released = h.released := by
  unfold Hart.retireSlot; split <;> rfl
@[simp] theorem Hart.retireSlot_caught (h : Hart) : (h.retireSlot).caught = h.caught := by
  unfold Hart.retireSlot; split <;> rfl
@[simp] theorem Hart.retireSlot_stops (h : Hart) : (h.retireSlot).stops = h.stops := by
  unfold Hart.retireSlot; split <;> rfl
@[simp] theorem Hart.retireSlot_owed (h : Hart) : (h.retireSlot).owed = h.owed := by
  unfold Hart.retireSlot; split <;> rfl
@[simp] theorem Hart.retireSlot_waitObj (h : Hart) : (h.retireSlot).waitObj = h.waitObj := by
  unfold Hart.retireSlot; split <;> rfl
@[simp] theorem Hart.retireSlot_reads (h : Hart) : (h.retireSlot).reads = h.reads := by
  unfold Hart.retireSlot; split <;> rfl
@[simp] theorem Hart.retireSlot_readsHeld (h : Hart) : (h.retireSlot).readsHeld = h.readsHeld := by
  unfold Hart.retireSlot; split <;> rfl
@[simp] theorem Hart.retireSlot_draining (h : Hart) : (h.retireSlot).draining = none := by
  unfold Hart.retireSlot; split <;> rfl
@[simp] theorem Hart.retireSlot_preempt (h : Hart) : (h.retireSlot).preempt = h.preempt := by
  unfold Hart.retireSlot; split <;> rfl
@[simp] theorem Hart.retireSlot_service (h : Hart) : (h.retireSlot).service = h.service := by
  unfold Hart.retireSlot; split <;> rfl
@[simp] theorem Hart.retireSlot_emptyAt (h : Hart) : (h.retireSlot).emptyAt = h.emptyAt := by
  unfold Hart.retireSlot; split <;> rfl
@[simp] theorem Hart.retireSlot_vstateAt (h : Hart) : (h.retireSlot).vstateAt = h.vstateAt := by
  unfold Hart.retireSlot; split <;> rfl
@[simp] theorem Hart.retireSlot_failedAt (h : Hart) : (h.retireSlot).failedAt = h.failedAt := by
  unfold Hart.retireSlot; split <;> rfl
@[simp] theorem Hart.retireSlot_nextPc (h : Hart) : (h.retireSlot).nextPc = h.nextPc := by
  unfold Hart.retireSlot; split <;> rfl
@[simp] theorem Hart.retireSlot_gathers (h : Hart) : (h.retireSlot).gathers = h.gathers := by
  unfold Hart.retireSlot; split <;> rfl
@[simp] theorem Hart.retireSlot_cut (h : Hart) : (h.retireSlot).cut = h.cut := by
  unfold Hart.retireSlot; split <;> rfl
@[simp] theorem Hart.retireSlot_latched (h : Hart) : (h.retireSlot).latched = h.latched := by
  unfold Hart.retireSlot; split <;> rfl
@[simp] theorem Hart.retireSlot_arrived (h : Hart) : (h.retireSlot).arrived = h.arrived := by
  unfold Hart.retireSlot; split <;> rfl
@[simp] theorem Hart.retireSlot_finMark (h : Hart) : (h.retireSlot).finMark = h.finMark := by
  unfold Hart.retireSlot; split <;> rfl
@[simp] theorem Hart.retireSlot_entering (h : Hart) : (h.retireSlot).entering = h.entering := by
  unfold Hart.retireSlot; split <;> rfl
@[simp] theorem Hart.retireSlot_exiting (h : Hart) : (h.retireSlot).exiting = h.exiting := by
  unfold Hart.retireSlot; split <;> rfl
@[simp] theorem Hart.retireSlot_traps (h : Hart) : (h.retireSlot).traps = h.traps := by
  unfold Hart.retireSlot; split <;> rfl
@[simp] theorem Hart.retireSlot_instret (h : Hart) : h.retireSlot.instret = h.instret + 1 := by
  unfold Hart.retireSlot; split <;> rfl
@[simp] theorem Hart.retireSlot_elem (h : Hart) : h.retireSlot.elem = 0 := by
  unfold Hart.retireSlot; split <;> rfl

/-! ## Writes of vector state (04 R107) -/

@[simp] theorem Hart.putV_life (h : Hart) (r : Reg) (v : BitVec 16384) : (h.putV r v).life = h.life := by
  rfl
@[simp] theorem Hart.putV_group (h : Hart) (r : Reg) (v : BitVec 16384) : (h.putV r v).group = h.group := by
  rfl
@[simp] theorem Hart.putV_index (h : Hart) (r : Reg) (v : BitVec 16384) : (h.putV r v).index = h.index := by
  rfl
@[simp] theorem Hart.putV_pc (h : Hart) (r : Reg) (v : BitVec 16384) : (h.putV r v).pc = h.pc := by
  rfl
@[simp] theorem Hart.putV_x (h : Hart) (r : Reg) (v : BitVec 16384) : (h.putV r v).x = h.x := by
  rfl
@[simp] theorem Hart.putV_failed (h : Hart) (r : Reg) (v : BitVec 16384) : (h.putV r v).failed = h.failed := by
  rfl
@[simp] theorem Hart.putV_p (h : Hart) (r : Reg) (v : BitVec 16384) : (h.putV r v).p = h.p := by
  rfl
@[simp] theorem Hart.putV_st (h : Hart) (r : Reg) (v : BitVec 16384) : (h.putV r v).st = h.st := by
  rfl
@[simp] theorem Hart.putV_u (h : Hart) (r : Reg) (v : BitVec 16384) : (h.putV r v).u = h.u := by
  rfl
@[simp] theorem Hart.putV_s (h : Hart) (r : Reg) (v : BitVec 16384) : (h.putV r v).s = h.s := by
  rfl
@[simp] theorem Hart.putV_tdeleg (h : Hart) (r : Reg) (v : BitVec 16384) : (h.putV r v).tdeleg = h.tdeleg := by
  rfl
@[simp] theorem Hart.putV_tstat (h : Hart) (r : Reg) (v : BitVec 16384) : (h.putV r v).tstat = h.tstat := by
  rfl
@[simp] theorem Hart.putV_vgrant (h : Hart) (r : Reg) (v : BitVec 16384) : (h.putV r v).vgrant = h.vgrant := by
  rfl
@[simp] theorem Hart.putV_vtype (h : Hart) (r : Reg) (v : BitVec 16384) : (h.putV r v).vtype = h.vtype := by
  rfl
@[simp] theorem Hart.putV_elem (h : Hart) (r : Reg) (v : BitVec 16384) : (h.putV r v).elem = h.elem := by
  rfl
@[simp] theorem Hart.putV_slot (h : Hart) (r : Reg) (v : BitVec 16384) : (h.putV r v).slot = h.slot := by
  rfl
@[simp] theorem Hart.putV_ffi (h : Hart) (r : Reg) (v : BitVec 16384) : (h.putV r v).ffi = h.ffi := by
  rfl
@[simp] theorem Hart.putV_vxqc (h : Hart) (r : Reg) (v : BitVec 16384) : (h.putV r v).vxqc = h.vxqc := by
  rfl
@[simp] theorem Hart.putV_fflags (h : Hart) (r : Reg) (v : BitVec 16384) : (h.putV r v).fflags = h.fflags := by
  rfl
@[simp] theorem Hart.putV_frm (h : Hart) (r : Reg) (v : BitVec 16384) : (h.putV r v).frm = h.frm := by
  rfl
@[simp] theorem Hart.putV_srseed (h : Hart) (r : Reg) (v : BitVec 16384) : (h.putV r v).srseed = h.srseed := by
  rfl
@[simp] theorem Hart.putV_srbase (h : Hart) (r : Reg) (v : BitVec 16384) : (h.putV r v).srbase = h.srbase := by
  rfl
@[simp] theorem Hart.putV_mqtol (h : Hart) (r : Reg) (v : BitVec 16384) : (h.putV r v).mqtol = h.mqtol := by
  rfl
@[simp] theorem Hart.putV_mqrmax (h : Hart) (r : Reg) (v : BitVec 16384) : (h.putV r v).mqrmax = h.mqrmax := by
  rfl
@[simp] theorem Hart.putV_instret (h : Hart) (r : Reg) (v : BitVec 16384) : (h.putV r v).instret = h.instret := by
  rfl
@[simp] theorem Hart.putV_engfault (h : Hart) (r : Reg) (v : BitVec 16384) : (h.putV r v).engfault = h.engfault := by
  rfl
@[simp] theorem Hart.putV_shadow (h : Hart) (r : Reg) (v : BitVec 16384) : (h.putV r v).shadow = h.shadow := by
  rfl
@[simp] theorem Hart.putV_monitor (h : Hart) (r : Reg) (v : BitVec 16384) : (h.putV r v).monitor = h.monitor := by
  rfl
@[simp] theorem Hart.putV_released (h : Hart) (r : Reg) (v : BitVec 16384) : (h.putV r v).released = h.released := by
  rfl
@[simp] theorem Hart.putV_caught (h : Hart) (r : Reg) (v : BitVec 16384) : (h.putV r v).caught = h.caught := by
  rfl
@[simp] theorem Hart.putV_stops (h : Hart) (r : Reg) (v : BitVec 16384) : (h.putV r v).stops = h.stops := by
  rfl
@[simp] theorem Hart.putV_owed (h : Hart) (r : Reg) (v : BitVec 16384) : (h.putV r v).owed = h.owed := by
  rfl
@[simp] theorem Hart.putV_waitObj (h : Hart) (r : Reg) (v : BitVec 16384) : (h.putV r v).waitObj = h.waitObj := by
  rfl
@[simp] theorem Hart.putV_reads (h : Hart) (r : Reg) (v : BitVec 16384) : (h.putV r v).reads = h.reads := by
  rfl
@[simp] theorem Hart.putV_readsHeld (h : Hart) (r : Reg) (v : BitVec 16384) : (h.putV r v).readsHeld = h.readsHeld := by
  rfl
@[simp] theorem Hart.putV_draining (h : Hart) (r : Reg) (v : BitVec 16384) : (h.putV r v).draining = h.draining := by
  rfl
@[simp] theorem Hart.putV_preempt (h : Hart) (r : Reg) (v : BitVec 16384) : (h.putV r v).preempt = h.preempt := by
  rfl
@[simp] theorem Hart.putV_service (h : Hart) (r : Reg) (v : BitVec 16384) : (h.putV r v).service = h.service := by
  rfl
@[simp] theorem Hart.putV_emptyAt (h : Hart) (r : Reg) (v : BitVec 16384) : (h.putV r v).emptyAt = h.emptyAt := by
  rfl
@[simp] theorem Hart.putV_vstateAt (h : Hart) (r : Reg) (v : BitVec 16384) : (h.putV r v).vstateAt = h.vstateAt := by
  rfl
@[simp] theorem Hart.putV_failedAt (h : Hart) (r : Reg) (v : BitVec 16384) : (h.putV r v).failedAt = h.failedAt := by
  rfl
@[simp] theorem Hart.putV_slots (h : Hart) (r : Reg) (v : BitVec 16384) : (h.putV r v).slots = h.slots := by
  rfl
@[simp] theorem Hart.putV_nextPc (h : Hart) (r : Reg) (v : BitVec 16384) : (h.putV r v).nextPc = h.nextPc := by
  rfl
@[simp] theorem Hart.putV_gathers (h : Hart) (r : Reg) (v : BitVec 16384) : (h.putV r v).gathers = h.gathers := by
  rfl
@[simp] theorem Hart.putV_cut (h : Hart) (r : Reg) (v : BitVec 16384) : (h.putV r v).cut = h.cut := by
  rfl
@[simp] theorem Hart.putV_latched (h : Hart) (r : Reg) (v : BitVec 16384) : (h.putV r v).latched = h.latched := by
  rfl
@[simp] theorem Hart.putV_waitFor (h : Hart) (r : Reg) (v : BitVec 16384) : (h.putV r v).waitFor = h.waitFor := by
  rfl
@[simp] theorem Hart.putV_arrived (h : Hart) (r : Reg) (v : BitVec 16384) : (h.putV r v).arrived = h.arrived := by
  rfl
@[simp] theorem Hart.putV_finMark (h : Hart) (r : Reg) (v : BitVec 16384) : (h.putV r v).finMark = h.finMark := by
  rfl
@[simp] theorem Hart.putV_entering (h : Hart) (r : Reg) (v : BitVec 16384) : (h.putV r v).entering = h.entering := by
  rfl
@[simp] theorem Hart.putV_exiting (h : Hart) (r : Reg) (v : BitVec 16384) : (h.putV r v).exiting = h.exiting := by
  rfl
@[simp] theorem Hart.putV_traps (h : Hart) (r : Reg) (v : BitVec 16384) : (h.putV r v).traps = h.traps := by
  rfl
@[simp] theorem Hart.putP_life (h : Hart) (r : Nat) (v : BitVec 4096) : (h.putP r v).life = h.life := by
  rfl
@[simp] theorem Hart.putP_group (h : Hart) (r : Nat) (v : BitVec 4096) : (h.putP r v).group = h.group := by
  rfl
@[simp] theorem Hart.putP_index (h : Hart) (r : Nat) (v : BitVec 4096) : (h.putP r v).index = h.index := by
  rfl
@[simp] theorem Hart.putP_pc (h : Hart) (r : Nat) (v : BitVec 4096) : (h.putP r v).pc = h.pc := by
  rfl
@[simp] theorem Hart.putP_x (h : Hart) (r : Nat) (v : BitVec 4096) : (h.putP r v).x = h.x := by
  rfl
@[simp] theorem Hart.putP_v (h : Hart) (r : Nat) (v : BitVec 4096) : (h.putP r v).v = h.v := by
  rfl
@[simp] theorem Hart.putP_full (h : Hart) (r : Nat) (v : BitVec 4096) : (h.putP r v).full = h.full := by
  rfl
@[simp] theorem Hart.putP_failed (h : Hart) (r : Nat) (v : BitVec 4096) : (h.putP r v).failed = h.failed := by
  rfl
@[simp] theorem Hart.putP_st (h : Hart) (r : Nat) (v : BitVec 4096) : (h.putP r v).st = h.st := by
  rfl
@[simp] theorem Hart.putP_u (h : Hart) (r : Nat) (v : BitVec 4096) : (h.putP r v).u = h.u := by
  rfl
@[simp] theorem Hart.putP_s (h : Hart) (r : Nat) (v : BitVec 4096) : (h.putP r v).s = h.s := by
  rfl
@[simp] theorem Hart.putP_tdeleg (h : Hart) (r : Nat) (v : BitVec 4096) : (h.putP r v).tdeleg = h.tdeleg := by
  rfl
@[simp] theorem Hart.putP_tstat (h : Hart) (r : Nat) (v : BitVec 4096) : (h.putP r v).tstat = h.tstat := by
  rfl
@[simp] theorem Hart.putP_vgrant (h : Hart) (r : Nat) (v : BitVec 4096) : (h.putP r v).vgrant = h.vgrant := by
  rfl
@[simp] theorem Hart.putP_vtype (h : Hart) (r : Nat) (v : BitVec 4096) : (h.putP r v).vtype = h.vtype := by
  rfl
@[simp] theorem Hart.putP_elem (h : Hart) (r : Nat) (v : BitVec 4096) : (h.putP r v).elem = h.elem := by
  rfl
@[simp] theorem Hart.putP_slot (h : Hart) (r : Nat) (v : BitVec 4096) : (h.putP r v).slot = h.slot := by
  rfl
@[simp] theorem Hart.putP_ffi (h : Hart) (r : Nat) (v : BitVec 4096) : (h.putP r v).ffi = h.ffi := by
  rfl
@[simp] theorem Hart.putP_vxqc (h : Hart) (r : Nat) (v : BitVec 4096) : (h.putP r v).vxqc = h.vxqc := by
  rfl
@[simp] theorem Hart.putP_fflags (h : Hart) (r : Nat) (v : BitVec 4096) : (h.putP r v).fflags = h.fflags := by
  rfl
@[simp] theorem Hart.putP_frm (h : Hart) (r : Nat) (v : BitVec 4096) : (h.putP r v).frm = h.frm := by
  rfl
@[simp] theorem Hart.putP_srseed (h : Hart) (r : Nat) (v : BitVec 4096) : (h.putP r v).srseed = h.srseed := by
  rfl
@[simp] theorem Hart.putP_srbase (h : Hart) (r : Nat) (v : BitVec 4096) : (h.putP r v).srbase = h.srbase := by
  rfl
@[simp] theorem Hart.putP_mqtol (h : Hart) (r : Nat) (v : BitVec 4096) : (h.putP r v).mqtol = h.mqtol := by
  rfl
@[simp] theorem Hart.putP_mqrmax (h : Hart) (r : Nat) (v : BitVec 4096) : (h.putP r v).mqrmax = h.mqrmax := by
  rfl
@[simp] theorem Hart.putP_instret (h : Hart) (r : Nat) (v : BitVec 4096) : (h.putP r v).instret = h.instret := by
  rfl
@[simp] theorem Hart.putP_engfault (h : Hart) (r : Nat) (v : BitVec 4096) : (h.putP r v).engfault = h.engfault := by
  rfl
@[simp] theorem Hart.putP_shadow (h : Hart) (r : Nat) (v : BitVec 4096) : (h.putP r v).shadow = h.shadow := by
  rfl
@[simp] theorem Hart.putP_monitor (h : Hart) (r : Nat) (v : BitVec 4096) : (h.putP r v).monitor = h.monitor := by
  rfl
@[simp] theorem Hart.putP_released (h : Hart) (r : Nat) (v : BitVec 4096) : (h.putP r v).released = h.released := by
  rfl
@[simp] theorem Hart.putP_caught (h : Hart) (r : Nat) (v : BitVec 4096) : (h.putP r v).caught = h.caught := by
  rfl
@[simp] theorem Hart.putP_stops (h : Hart) (r : Nat) (v : BitVec 4096) : (h.putP r v).stops = h.stops := by
  rfl
@[simp] theorem Hart.putP_owed (h : Hart) (r : Nat) (v : BitVec 4096) : (h.putP r v).owed = h.owed := by
  rfl
@[simp] theorem Hart.putP_waitObj (h : Hart) (r : Nat) (v : BitVec 4096) : (h.putP r v).waitObj = h.waitObj := by
  rfl
@[simp] theorem Hart.putP_reads (h : Hart) (r : Nat) (v : BitVec 4096) : (h.putP r v).reads = h.reads := by
  rfl
@[simp] theorem Hart.putP_readsHeld (h : Hart) (r : Nat) (v : BitVec 4096) : (h.putP r v).readsHeld = h.readsHeld := by
  rfl
@[simp] theorem Hart.putP_draining (h : Hart) (r : Nat) (v : BitVec 4096) : (h.putP r v).draining = h.draining := by
  rfl
@[simp] theorem Hart.putP_preempt (h : Hart) (r : Nat) (v : BitVec 4096) : (h.putP r v).preempt = h.preempt := by
  rfl
@[simp] theorem Hart.putP_service (h : Hart) (r : Nat) (v : BitVec 4096) : (h.putP r v).service = h.service := by
  rfl
@[simp] theorem Hart.putP_emptyAt (h : Hart) (r : Nat) (v : BitVec 4096) : (h.putP r v).emptyAt = h.emptyAt := by
  rfl
@[simp] theorem Hart.putP_vstateAt (h : Hart) (r : Nat) (v : BitVec 4096) : (h.putP r v).vstateAt = h.vstateAt := by
  rfl
@[simp] theorem Hart.putP_failedAt (h : Hart) (r : Nat) (v : BitVec 4096) : (h.putP r v).failedAt = h.failedAt := by
  rfl
@[simp] theorem Hart.putP_slots (h : Hart) (r : Nat) (v : BitVec 4096) : (h.putP r v).slots = h.slots := by
  rfl
@[simp] theorem Hart.putP_nextPc (h : Hart) (r : Nat) (v : BitVec 4096) : (h.putP r v).nextPc = h.nextPc := by
  rfl
@[simp] theorem Hart.putP_gathers (h : Hart) (r : Nat) (v : BitVec 4096) : (h.putP r v).gathers = h.gathers := by
  rfl
@[simp] theorem Hart.putP_cut (h : Hart) (r : Nat) (v : BitVec 4096) : (h.putP r v).cut = h.cut := by
  rfl
@[simp] theorem Hart.putP_latched (h : Hart) (r : Nat) (v : BitVec 4096) : (h.putP r v).latched = h.latched := by
  rfl
@[simp] theorem Hart.putP_waitFor (h : Hart) (r : Nat) (v : BitVec 4096) : (h.putP r v).waitFor = h.waitFor := by
  rfl
@[simp] theorem Hart.putP_arrived (h : Hart) (r : Nat) (v : BitVec 4096) : (h.putP r v).arrived = h.arrived := by
  rfl
@[simp] theorem Hart.putP_finMark (h : Hart) (r : Nat) (v : BitVec 4096) : (h.putP r v).finMark = h.finMark := by
  rfl
@[simp] theorem Hart.putP_entering (h : Hart) (r : Nat) (v : BitVec 4096) : (h.putP r v).entering = h.entering := by
  rfl
@[simp] theorem Hart.putP_exiting (h : Hart) (r : Nat) (v : BitVec 4096) : (h.putP r v).exiting = h.exiting := by
  rfl
@[simp] theorem Hart.putP_traps (h : Hart) (r : Nat) (v : BitVec 4096) : (h.putP r v).traps = h.traps := by
  rfl
@[simp] theorem Hart.addFlags_life (h : Hart) (f : Flags) : (h.addFlags f).life = h.life := by
  rfl
@[simp] theorem Hart.addFlags_group (h : Hart) (f : Flags) : (h.addFlags f).group = h.group := by
  rfl
@[simp] theorem Hart.addFlags_index (h : Hart) (f : Flags) : (h.addFlags f).index = h.index := by
  rfl
@[simp] theorem Hart.addFlags_pc (h : Hart) (f : Flags) : (h.addFlags f).pc = h.pc := by
  rfl
@[simp] theorem Hart.addFlags_x (h : Hart) (f : Flags) : (h.addFlags f).x = h.x := by
  rfl
@[simp] theorem Hart.addFlags_v (h : Hart) (f : Flags) : (h.addFlags f).v = h.v := by
  rfl
@[simp] theorem Hart.addFlags_full (h : Hart) (f : Flags) : (h.addFlags f).full = h.full := by
  rfl
@[simp] theorem Hart.addFlags_failed (h : Hart) (f : Flags) : (h.addFlags f).failed = h.failed := by
  rfl
@[simp] theorem Hart.addFlags_p (h : Hart) (f : Flags) : (h.addFlags f).p = h.p := by
  rfl
@[simp] theorem Hart.addFlags_st (h : Hart) (f : Flags) : (h.addFlags f).st = h.st := by
  rfl
@[simp] theorem Hart.addFlags_u (h : Hart) (f : Flags) : (h.addFlags f).u = h.u := by
  rfl
@[simp] theorem Hart.addFlags_s (h : Hart) (f : Flags) : (h.addFlags f).s = h.s := by
  rfl
@[simp] theorem Hart.addFlags_tdeleg (h : Hart) (f : Flags) : (h.addFlags f).tdeleg = h.tdeleg := by
  rfl
@[simp] theorem Hart.addFlags_tstat (h : Hart) (f : Flags) : (h.addFlags f).tstat = h.tstat := by
  rfl
@[simp] theorem Hart.addFlags_vgrant (h : Hart) (f : Flags) : (h.addFlags f).vgrant = h.vgrant := by
  rfl
@[simp] theorem Hart.addFlags_vtype (h : Hart) (f : Flags) : (h.addFlags f).vtype = h.vtype := by
  rfl
@[simp] theorem Hart.addFlags_elem (h : Hart) (f : Flags) : (h.addFlags f).elem = h.elem := by
  rfl
@[simp] theorem Hart.addFlags_slot (h : Hart) (f : Flags) : (h.addFlags f).slot = h.slot := by
  rfl
@[simp] theorem Hart.addFlags_vstate (h : Hart) (f : Flags) : (h.addFlags f).vstate = h.vstate := by
  rfl
@[simp] theorem Hart.addFlags_vdirty (h : Hart) (f : Flags) : (h.addFlags f).vdirty = h.vdirty := by
  rfl
@[simp] theorem Hart.addFlags_ffi (h : Hart) (f : Flags) : (h.addFlags f).ffi = h.ffi := by
  rfl
@[simp] theorem Hart.addFlags_vxqc (h : Hart) (f : Flags) : (h.addFlags f).vxqc = h.vxqc := by
  rfl
@[simp] theorem Hart.addFlags_frm (h : Hart) (f : Flags) : (h.addFlags f).frm = h.frm := by
  rfl
@[simp] theorem Hart.addFlags_srseed (h : Hart) (f : Flags) : (h.addFlags f).srseed = h.srseed := by
  rfl
@[simp] theorem Hart.addFlags_srbase (h : Hart) (f : Flags) : (h.addFlags f).srbase = h.srbase := by
  rfl
@[simp] theorem Hart.addFlags_mqtol (h : Hart) (f : Flags) : (h.addFlags f).mqtol = h.mqtol := by
  rfl
@[simp] theorem Hart.addFlags_mqrmax (h : Hart) (f : Flags) : (h.addFlags f).mqrmax = h.mqrmax := by
  rfl
@[simp] theorem Hart.addFlags_instret (h : Hart) (f : Flags) : (h.addFlags f).instret = h.instret := by
  rfl
@[simp] theorem Hart.addFlags_engfault (h : Hart) (f : Flags) : (h.addFlags f).engfault = h.engfault := by
  rfl
@[simp] theorem Hart.addFlags_shadow (h : Hart) (f : Flags) : (h.addFlags f).shadow = h.shadow := by
  rfl
@[simp] theorem Hart.addFlags_monitor (h : Hart) (f : Flags) : (h.addFlags f).monitor = h.monitor := by
  rfl
@[simp] theorem Hart.addFlags_released (h : Hart) (f : Flags) : (h.addFlags f).released = h.released := by
  rfl
@[simp] theorem Hart.addFlags_caught (h : Hart) (f : Flags) : (h.addFlags f).caught = h.caught := by
  rfl
@[simp] theorem Hart.addFlags_stops (h : Hart) (f : Flags) : (h.addFlags f).stops = h.stops := by
  rfl
@[simp] theorem Hart.addFlags_owed (h : Hart) (f : Flags) : (h.addFlags f).owed = h.owed := by
  rfl
@[simp] theorem Hart.addFlags_waitObj (h : Hart) (f : Flags) : (h.addFlags f).waitObj = h.waitObj := by
  rfl
@[simp] theorem Hart.addFlags_reads (h : Hart) (f : Flags) : (h.addFlags f).reads = h.reads := by
  rfl
@[simp] theorem Hart.addFlags_readsHeld (h : Hart) (f : Flags) : (h.addFlags f).readsHeld = h.readsHeld := by
  rfl
@[simp] theorem Hart.addFlags_draining (h : Hart) (f : Flags) : (h.addFlags f).draining = h.draining := by
  rfl
@[simp] theorem Hart.addFlags_preempt (h : Hart) (f : Flags) : (h.addFlags f).preempt = h.preempt := by
  rfl
@[simp] theorem Hart.addFlags_service (h : Hart) (f : Flags) : (h.addFlags f).service = h.service := by
  rfl
@[simp] theorem Hart.addFlags_emptyAt (h : Hart) (f : Flags) : (h.addFlags f).emptyAt = h.emptyAt := by
  rfl
@[simp] theorem Hart.addFlags_vstateAt (h : Hart) (f : Flags) : (h.addFlags f).vstateAt = h.vstateAt := by
  rfl
@[simp] theorem Hart.addFlags_failedAt (h : Hart) (f : Flags) : (h.addFlags f).failedAt = h.failedAt := by
  rfl
@[simp] theorem Hart.addFlags_slots (h : Hart) (f : Flags) : (h.addFlags f).slots = h.slots := by
  rfl
@[simp] theorem Hart.addFlags_nextPc (h : Hart) (f : Flags) : (h.addFlags f).nextPc = h.nextPc := by
  rfl
@[simp] theorem Hart.addFlags_gathers (h : Hart) (f : Flags) : (h.addFlags f).gathers = h.gathers := by
  rfl
@[simp] theorem Hart.addFlags_cut (h : Hart) (f : Flags) : (h.addFlags f).cut = h.cut := by
  rfl
@[simp] theorem Hart.addFlags_latched (h : Hart) (f : Flags) : (h.addFlags f).latched = h.latched := by
  rfl
@[simp] theorem Hart.addFlags_waitFor (h : Hart) (f : Flags) : (h.addFlags f).waitFor = h.waitFor := by
  rfl
@[simp] theorem Hart.addFlags_arrived (h : Hart) (f : Flags) : (h.addFlags f).arrived = h.arrived := by
  rfl
@[simp] theorem Hart.addFlags_finMark (h : Hart) (f : Flags) : (h.addFlags f).finMark = h.finMark := by
  rfl
@[simp] theorem Hart.addFlags_entering (h : Hart) (f : Flags) : (h.addFlags f).entering = h.entering := by
  rfl
@[simp] theorem Hart.addFlags_exiting (h : Hart) (f : Flags) : (h.addFlags f).exiting = h.exiting := by
  rfl
@[simp] theorem Hart.addFlags_traps (h : Hart) (f : Flags) : (h.addFlags f).traps = h.traps := by
  rfl

theorem Hart.vreg_putV_self (h : Hart) (r : Reg) (v : BitVec 16384) : (h.putV r v).vreg r = v :=
  Vector.getElem_set_self _
theorem Hart.vreg_putV_ne (h : Hart) {r q : Reg} (v : BitVec 16384) (e : q ≠ r) : (h.putV r v).vreg q = h.vreg q :=
  Vector.getElem_set_ne (hi := r.isLt) q.isLt (fun x => e (BitVec.eq_of_toNat_eq x.symm))

end Sys2Proof.Machine
end

