-- ==== Sys2Proof/Laws/Memory.lean ====
section
/-! SUPPORT. Every operation that writes memory keeps its canonical form, and what the shared writes leave alone. -/
namespace Sys2Proof.Machine

/-! ## Lists of cells -/

theorem NatMap.risingFrom_iff {α : Type} (m : NatMap α) (lo : Nat) :
    m.risingFrom lo = true ↔ m.Pairwise (fun a b => a.1 < b.1) ∧ ∀ p ∈ m, lo ≤ p.1 := by
  induction m generalizing lo with
  | nil => simp [NatMap.risingFrom]
  | cons p t ih =>
    obtain ⟨j, b⟩ := p
    simp only [NatMap.risingFrom, Bool.and_eq_true, decide_eq_true_eq, ih, List.pairwise_cons, List.mem_cons,
      forall_eq_or_imp]
    constructor
    · rintro ⟨h1, h2, h3⟩
      exact ⟨⟨fun q hq => h3 q hq, h2⟩, h1, fun q hq => by have := h3 q hq; omega⟩
    · rintro ⟨⟨h1, h2⟩, h3, _⟩
      exact ⟨h3, h2, fun q hq => h1 q hq⟩

/-- The canonical form: addresses strictly rising, and no zero listed. -/
theorem memWf_iff (m : List Host.Cell) :
    memWf m = true ↔ m.Pairwise (fun a b => a.1 < b.1) ∧ ∀ c ∈ m, c.2 ≠ 0 := by
  simp [memWf, NatMap.wf, NatMap.risingFrom_iff]

theorem memWf_filter {m : List Host.Cell} (p : Host.Cell → Bool) (w : memWf m = true) : memWf (m.filter p) = true := by
  rw [memWf_iff] at w ⊢
  exact ⟨w.1.filter p, fun c h => w.2 c (List.mem_filter.1 h).1⟩

theorem memWf_append {m n : List Host.Cell} (wm : memWf m = true) (wn : memWf n = true)
    (h : ∀ a ∈ m, ∀ b ∈ n, a.1 < b.1) : memWf (m ++ n) = true := by
  rw [memWf_iff] at wm wn ⊢
  exact ⟨List.pairwise_append.2 ⟨wm.1, wn.1, h⟩, fun c hc => (List.mem_append.1 hc).elim (wm.2 c) (wn.2 c)⟩

/-- Bytes written one after another. -/
theorem memWf_foldl {β : Type} (l : List β) (f : List Host.Cell → β → List Host.Cell)
    (hf : ∀ m b, memWf m = true → memWf (f m b) = true) {m : List Host.Cell} (w : memWf m = true) :
    memWf (l.foldl f m) = true := by
  induction l generalizing m with
  | nil => exact w
  | cons b t ih => exact ih (hf m b w)

/-! ## Rows -/

theorem memWf_rowCells (base : Nat) (bits : BitVec 65536) : memWf (rowCells base bits) = true := by
  rw [memWf_iff]
  refine ⟨List.Pairwise.filter _ (List.pairwise_map.2 ?_), fun c h => by simpa using (List.mem_filter.1 h).2⟩
  exact List.pairwise_lt_range.imp fun h => by omega

theorem rowCells_range {base : Nat} {bits : BitVec 65536} {c : Host.Cell} (h : c ∈ rowCells base bits) :
    base ≤ c.1 ∧ c.1 < base + 8192 := by
  simp only [rowCells, List.mem_filter, List.mem_map, List.mem_range] at h
  obtain ⟨⟨o, ho, rfl⟩, _⟩ := h
  exact ⟨Nat.le_add_right _ _, by simpa using ho⟩

@[simp] theorem markSeen_mem (s : State) (l : List Nat) (b : Option Nat) : (markSeen s l b).mem = s.mem := rfl
@[simp] theorem replaceUnits_mem (s : State) (pa n : Nat) : (replaceUnits s pa n).mem = s.mem := by
  unfold replaceUnits; split <;> rfl

/-- A row written whole (10 R271): memory stays canonical. -/
theorem Canonical_rowWrite {s : State} (key g row : Nat) (bits : BitVec 65536) (bad : BitVec 128) (w : s.Canonical) :
    (rowWrite s key g row bits bad).Canonical := by
  simp only [State.Canonical, rowWrite, markSeen_mem] at w ⊢
  refine memWf_append (memWf_append (memWf_filter _ w) (memWf_rowCells _ _) ?_) (memWf_filter _ w) ?_
  · intro a ha b hb
    have h1 : a.1 < rowKey key g row := by simpa using (List.mem_filter.1 ha).2
    exact Nat.lt_of_lt_of_le h1 (rowCells_range hb).1
  · intro a ha b hb
    have h2 : rowKey key g row + 8192 ≤ b.1 := by simpa using (List.mem_filter.1 hb).2
    rcases List.mem_append.1 ha with h | h
    · have h1 : a.1 < rowKey key g row := by simpa using (List.mem_filter.1 h).2
      omega
    · have := (rowCells_range h).2
      omega

/-! ## Bytes -/

/-- A store through the window into a tile store writes its core alone, and the free-value counter. -/
@[simp] theorem putTileByte_mem (s : State) (c o : Nat) (b : Byte) : (putTileByte s c o b).mem = s.mem := by
  unfold putTileByte
  dsimp only
  split
  · split <;> rfl
  · rfl

theorem Canonical_putHomeByte {s : State} (h : Home) (b : Byte) (w : s.Canonical) : (putHomeByte s h b).Canonical := by
  unfold putHomeByte
  cases h with
  | mem k =>
    dsimp only
    split
    · exact w
    · exact memWf_memWrite _ _ _ w
  | vreg k o => dsimp only; split <;> exact w
  | acc c o => dsimp only; split <;> exact w
  | tile c o => exact (congrArg memWf (putTileByte_mem s c o b)).trans w
  | _ => exact w

theorem Canonical_putPhysByte {s : State} (pa : Nat) (b : Byte) (w : s.Canonical) : (putPhysByte s pa b).Canonical :=
  Canonical_putHomeByte _ _ w

theorem Canonical_putPhysBytes (bs : List Byte) {s : State} (pa : Nat) (w : s.Canonical) :
    (putPhysBytes s pa bs).Canonical := by
  induction bs generalizing s pa with
  | nil => exact w
  | cons b t ih => exact ih _ (Canonical_putPhysByte _ _ w)

/-- A store of bytes by an agent: memory stays canonical. -/
theorem Canonical_store {s : State} (pa : Nat) (bs : List Byte) (k : Option Nat) (w : s.Canonical) :
    (store s pa bs k).Canonical := by
  show memWf (putPhysBytes (replaceUnits s pa bs.length) pa bs).mem = true
  exact Canonical_putPhysBytes bs pa (by simpa [State.Canonical] using w)

theorem Canonical_physWrite {s : State} (pa n v : Nat) (w : s.Canonical) : (physWrite s pa n v).Canonical :=
  Canonical_store _ _ _ w

theorem Canonical_spadWrite {s : State} (c off : Nat) (bs : List Byte) (w : s.Canonical) :
    (spadWrite s c off bs).Canonical := Canonical_store _ _ _ w

theorem Canonical_physWords (ws : List Nat) {s : State} (pa : Nat) (w : s.Canonical) : (physWords s pa ws).Canonical := by
  induction ws generalizing s pa with
  | nil => exact w
  | cons v t ih => exact ih _ (Canonical_physWrite _ _ _ w)

/-! ## Ranges cleared, copied and moved -/

theorem Canonical_zeroRange {s : State} (pa n : Nat) (w : s.Canonical) : (zeroRange s pa n).Canonical := by
  simp only [State.Canonical, zeroRange, markSeen_mem] at w ⊢
  exact memWf_filter _ w

theorem Canonical_foldl {β : Type} (l : List β) (f : State → β → State)
    (hf : ∀ s b, s.Canonical → (f s b).Canonical) {s : State} (w : s.Canonical) : (l.foldl f s).Canonical := by
  induction l generalizing s with
  | nil => exact w
  | cons b t ih => exact ih (hf s b w)

theorem Canonical_copyCells {s : State} (base n pa : Nat) (w : s.Canonical) : (copyCells s base n pa).Canonical :=
  Canonical_foldl _ _ (fun _ _ h => Canonical_putPhysByte _ _ h) w

theorem Canonical_restoreCore {s : State} (g : Group) (slot core pa : Nat) (w : s.Canonical) :
    (restoreCore s g slot core pa).Canonical := by
  simp only [State.Canonical, restoreCore]
  refine memWf_foldl _ _ (fun m o h => ?_) (Canonical_zeroRange _ _ (by simpa [State.Canonical] using w))
  split
  · exact h
  · exact memWf_memWrite _ _ _ h

theorem Canonical_openCore {s : State} (k : Kernel) (c : Nat) (w : s.Canonical) : (openCore s k c).Canonical := by
  simp only [State.Canonical, openCore, State.setCore_mem] at w ⊢
  exact memWf_filter _ w

theorem Canonical_moveSpread {s : State} (t : Nat) (x y : Tower) : (moveSpread s t x y).Canonical := by
  simp only [State.Canonical, moveSpread]
  refine memWf_foldl _ _ (fun m c h => ?_) (by rfl)
  split
  · exact memWf_memWrite _ _ _ h
  · exact h

/-- Memory at reset lists nothing. -/
theorem Canonical_reset : State.reset.Canonical := rfl

/-! ## A byte written and read -/

theorem memRead_putHomeByte_ne {s : State} {h : Home} {b : Byte} {k : Nat} (e : h ≠ .mem k) :
    memRead (putHomeByte s h b).mem k = memRead s.mem k := by
  unfold putHomeByte
  cases h with
  | mem j =>
    dsimp only
    split
    · rfl
    · exact memRead_memWrite_ne _ _ fun c => e (by rw [c])
  | vreg j o => dsimp only; split <;> rfl
  | acc c o => dsimp only; split <;> rfl
  | tile c o => exact congrArg (memRead · k) (putTileByte_mem s c o b)
  | _ => rfl

/-- A store leaves every cell that none of its bytes is at home in. -/
theorem memRead_putPhysBytes_ne (bs : List Byte) {s : State} (pa : Nat) {k : Nat}
    (e : ∀ t : State, ∀ i < bs.length, physHome t (pa + i) ≠ .mem k) :
    memRead (putPhysBytes s pa bs).mem k = memRead s.mem k := by
  induction bs generalizing s pa with
  | nil => rfl
  | cons b t ih =>
    refine (ih (pa + 1) fun u i hi => ?_).trans (memRead_putHomeByte_ne ?_)
    · have := e u (i + 1) (by simpa using hi)
      rwa [show pa + 1 + i = pa + (i + 1) by omega]
    · simpa using e s 0 (by simp)

end Sys2Proof.Machine
end

