-- ==== Sys2Proof/Laws/PerInstr.lean ====
section
/-! SUPPORT. Statements made for each instruction: the family RoundTrip. -/

/-- The words of a well-formed instruction decode to it (03 R71 to R74, R83 to R89); a step of the device has none. -/
def Sys2Proof.Laws.RoundTrip.Statement (i : Sys2Proof.Instr) : Prop :=
  i.wf = true → Sys2Proof.encode i = .none ∨ Sys2Proof.decodeEncoded (Sys2Proof.encode i) = .ok i

namespace Sys2Proof.Laws.RoundTrip

theorem oprFields {w : Parcel} {f4 : BitVec 4} {f6 : BitVec 6} {b a d : Reg} {r : Decoded}
    (h : w = packR f4 f6 b a d 0) (hr : ∀ w : Parcel, fld w 28 4 = f4 → fld w 22 6 = f6 → fld w 17 5 = b →
      fld w 12 5 = a → fld w 7 5 = d → decodeOpr w = r) : decodeEncoded (.parcel w) = r := by
  subst h
  exact (decodeEncoded_parcel _ (bit0_packR ..)).trans ((decodeScalar_opr _ (packR_1 ..)).trans
    (hr _ (packR_28 ..) (packR_22 ..) (packR_17 ..) (packR_12 ..) (packR_7 ..)))

theorem matrixFields (op : BitVec 8) {m : MWord} {r : Decoded} (hr : ∀ w : BitVec 64, fld w 0 8 = op → unpackM w = m →
    decodeMatrix w = r) : decodeEncoded (.slot 8 (packM op m)) = r := hr _ (opcode_packM ..) (unpackM_packM ..)

theorem bankFields (op : BitVec 8) {b : BWord} {r : Decoded} (hr : ∀ w : BitVec 64, fld w 0 8 = op → unpackB w = b →
    decodeBank w = r) : decodeEncoded (.bank (packB op b)) = r := hr _ (opcode_packB ..) (unpackB_packB ..)

theorem brFields {w : Parcel} {o : BitVec 12} {c : BitVec 3} {b a : Reg} {r : Decoded}
    (h : w = packBr o c b a) (hr : ∀ w : Parcel, fld w 17 3 = c → fld w 20 12 = o → fld w 12 5 = b → fld w 7 5 = a →
      decodeBr w = r) : decodeEncoded (.parcel w) = r := by
  subst h
  exact (decodeEncoded_parcel _ (bit0_packBr ..)).trans ((decodeScalar_br _ (packBr_1 ..)).trans
    (hr _ (packBr_17 ..) (packBr_20 ..) (packBr_12 ..) (packBr_7 ..)))

theorem amoFields {w : Parcel} {z : Bool} {sc : BitVec 3} {sem : BitVec 2} {op : BitVec 4} {b a d : Reg} {r : Decoded}
    (h : w = packAmo z sc sem op b a d 0x0F) (hr : ∀ w : Parcel, fld w 22 4 = op → (fld w 31 1 == 1) = z →
      fld w 28 3 = sc → fld w 26 2 = sem → fld w 17 5 = b → fld w 12 5 = a → fld w 7 5 = d → decodeAmo w = r) :
    decodeEncoded (.parcel w) = r := by
  subst h
  exact (decodeEncoded_parcel _ (bit0_packAmo ..)).trans ((decodeScalar_amo _ (packAmo_1 ..)).trans
    (hr _ (packAmo_22 ..) (by rw [packAmo_31, bit1_eq]) (packAmo_28 ..) (packAmo_26 ..) (packAmo_17 ..) (packAmo_12 ..)
      (packAmo_7 ..)))

theorem add (d a b : Reg) : Statement (.add d a b) := fun h => .inr <| oprFields rfl fun w h1 h2 h3 h4 h5 => by
  subst h3 h4 h5; delta decodeOpr; rw [h1, h2]; rfl
theorem addW (d a b : Reg) : Statement (.addW d a b) := fun h => .inr <| oprFields rfl fun w h1 h2 h3 h4 h5 => by
  subst h3 h4 h5; delta decodeOpr; rw [h1, h2]; rfl
theorem sub (d a b : Reg) : Statement (.sub d a b) := fun h => .inr <| oprFields rfl fun w h1 h2 h3 h4 h5 => by
  subst h3 h4 h5; delta decodeOpr; rw [h1, h2]; rfl
theorem subW (d a b : Reg) : Statement (.subW d a b) := fun h => .inr <| oprFields rfl fun w h1 h2 h3 h4 h5 => by
  subst h3 h4 h5; delta decodeOpr; rw [h1, h2]; rfl
theorem and (d a b : Reg) : Statement (.and d a b) := fun h => .inr <| oprFields rfl fun w h1 h2 h3 h4 h5 => by
  subst h3 h4 h5; delta decodeOpr; rw [h1, h2]; rfl
theorem or (d a b : Reg) : Statement (.or d a b) := fun h => .inr <| oprFields rfl fun w h1 h2 h3 h4 h5 => by
  subst h3 h4 h5; delta decodeOpr; rw [h1, h2]; rfl
theorem xor (d a b : Reg) : Statement (.xor d a b) := fun h => .inr <| oprFields rfl fun w h1 h2 h3 h4 h5 => by
  subst h3 h4 h5; delta decodeOpr; rw [h1, h2]; rfl
theorem andn (d a b : Reg) : Statement (.andn d a b) := fun h => .inr <| oprFields rfl fun w h1 h2 h3 h4 h5 => by
  subst h3 h4 h5; delta decodeOpr; rw [h1, h2]; rfl
theorem sll (d a b : Reg) : Statement (.sll d a b) := fun h => .inr <| oprFields rfl fun w h1 h2 h3 h4 h5 => by
  subst h3 h4 h5; delta decodeOpr; rw [h1, h2]; rfl
theorem sllW (d a b : Reg) : Statement (.sllW d a b) := fun h => .inr <| oprFields rfl fun w h1 h2 h3 h4 h5 => by
  subst h3 h4 h5; delta decodeOpr; rw [h1, h2]; rfl
theorem srl (d a b : Reg) : Statement (.srl d a b) := fun h => .inr <| oprFields rfl fun w h1 h2 h3 h4 h5 => by
  subst h3 h4 h5; delta decodeOpr; rw [h1, h2]; rfl
theorem srlW (d a b : Reg) : Statement (.srlW d a b) := fun h => .inr <| oprFields rfl fun w h1 h2 h3 h4 h5 => by
  subst h3 h4 h5; delta decodeOpr; rw [h1, h2]; rfl
theorem sra (d a b : Reg) : Statement (.sra d a b) := fun h => .inr <| oprFields rfl fun w h1 h2 h3 h4 h5 => by
  subst h3 h4 h5; delta decodeOpr; rw [h1, h2]; rfl
theorem sraW (d a b : Reg) : Statement (.sraW d a b) := fun h => .inr <| oprFields rfl fun w h1 h2 h3 h4 h5 => by
  subst h3 h4 h5; delta decodeOpr; rw [h1, h2]; rfl
theorem rol (d a b : Reg) : Statement (.rol d a b) := fun h => .inr <| oprFields rfl fun w h1 h2 h3 h4 h5 => by
  subst h3 h4 h5; delta decodeOpr; rw [h1, h2]; rfl
theorem ror (d a b : Reg) : Statement (.ror d a b) := fun h => .inr <| oprFields rfl fun w h1 h2 h3 h4 h5 => by
  subst h3 h4 h5; delta decodeOpr; rw [h1, h2]; rfl
theorem slt (d a b : Reg) : Statement (.slt d a b) := fun h => .inr <| oprFields rfl fun w h1 h2 h3 h4 h5 => by
  subst h3 h4 h5; delta decodeOpr; rw [h1, h2]; rfl
theorem sltn (d a b : Reg) : Statement (.sltn d a b) := fun h => .inr <| oprFields rfl fun w h1 h2 h3 h4 h5 => by
  subst h3 h4 h5; delta decodeOpr; rw [h1, h2]; rfl
theorem min (d a b : Reg) : Statement (.min d a b) := fun h => .inr <| oprFields rfl fun w h1 h2 h3 h4 h5 => by
  subst h3 h4 h5; delta decodeOpr; rw [h1, h2]; rfl
theorem max (d a b : Reg) : Statement (.max d a b) := fun h => .inr <| oprFields rfl fun w h1 h2 h3 h4 h5 => by
  subst h3 h4 h5; delta decodeOpr; rw [h1, h2]; rfl
theorem minn (d a b : Reg) : Statement (.minn d a b) := fun h => .inr <| oprFields rfl fun w h1 h2 h3 h4 h5 => by
  subst h3 h4 h5; delta decodeOpr; rw [h1, h2]; rfl
theorem maxn (d a b : Reg) : Statement (.maxn d a b) := fun h => .inr <| oprFields rfl fun w h1 h2 h3 h4 h5 => by
  subst h3 h4 h5; delta decodeOpr; rw [h1, h2]; rfl
theorem mul (d a b : Reg) : Statement (.mul d a b) := fun h => .inr <| oprFields rfl fun w h1 h2 h3 h4 h5 => by
  subst h3 h4 h5; delta decodeOpr; rw [h1, h2]; rfl
theorem mulW (d a b : Reg) : Statement (.mulW d a b) := fun h => .inr <| oprFields rfl fun w h1 h2 h3 h4 h5 => by
  subst h3 h4 h5; delta decodeOpr; rw [h1, h2]; rfl
theorem mulh (d a b : Reg) : Statement (.mulh d a b) := fun h => .inr <| oprFields rfl fun w h1 h2 h3 h4 h5 => by
  subst h3 h4 h5; delta decodeOpr; rw [h1, h2]; rfl
theorem mulhn (d a b : Reg) : Statement (.mulhn d a b) := fun h => .inr <| oprFields rfl fun w h1 h2 h3 h4 h5 => by
  subst h3 h4 h5; delta decodeOpr; rw [h1, h2]; rfl
theorem div (d a b : Reg) : Statement (.div d a b) := fun h => .inr <| oprFields rfl fun w h1 h2 h3 h4 h5 => by
  subst h3 h4 h5; delta decodeOpr; rw [h1, h2]; rfl
theorem divW (d a b : Reg) : Statement (.divW d a b) := fun h => .inr <| oprFields rfl fun w h1 h2 h3 h4 h5 => by
  subst h3 h4 h5; delta decodeOpr; rw [h1, h2]; rfl
theorem divn (d a b : Reg) : Statement (.divn d a b) := fun h => .inr <| oprFields rfl fun w h1 h2 h3 h4 h5 => by
  subst h3 h4 h5; delta decodeOpr; rw [h1, h2]; rfl
theorem divnW (d a b : Reg) : Statement (.divnW d a b) := fun h => .inr <| oprFields rfl fun w h1 h2 h3 h4 h5 => by
  subst h3 h4 h5; delta decodeOpr; rw [h1, h2]; rfl
theorem rem (d a b : Reg) : Statement (.rem d a b) := fun h => .inr <| oprFields rfl fun w h1 h2 h3 h4 h5 => by
  subst h3 h4 h5; delta decodeOpr; rw [h1, h2]; rfl
theorem remW (d a b : Reg) : Statement (.remW d a b) := fun h => .inr <| oprFields rfl fun w h1 h2 h3 h4 h5 => by
  subst h3 h4 h5; delta decodeOpr; rw [h1, h2]; rfl
theorem remn (d a b : Reg) : Statement (.remn d a b) := fun h => .inr <| oprFields rfl fun w h1 h2 h3 h4 h5 => by
  subst h3 h4 h5; delta decodeOpr; rw [h1, h2]; rfl
theorem remnW (d a b : Reg) : Statement (.remnW d a b) := fun h => .inr <| oprFields rfl fun w h1 h2 h3 h4 h5 => by
  subst h3 h4 h5; delta decodeOpr; rw [h1, h2]; rfl
theorem clz (d a : Reg) : Statement (.clz d a) := fun h => .inr <| oprFields rfl fun w h1 h2 h3 h4 h5 => by
  subst h4 h5; delta decodeOpr; rw [h1, h2]; exact need_ok (by rw [h3]; rfl)
theorem ctz (d a : Reg) : Statement (.ctz d a) := fun h => .inr <| oprFields rfl fun w h1 h2 h3 h4 h5 => by
  subst h4 h5; delta decodeOpr; rw [h1, h2]; exact need_ok (by rw [h3]; rfl)
theorem popc (d a : Reg) : Statement (.popc d a) := fun h => .inr <| oprFields rfl fun w h1 h2 h3 h4 h5 => by
  subst h4 h5; delta decodeOpr; rw [h1, h2]; exact need_ok (by rw [h3]; rfl)
theorem addi (d a : Reg) (imm : BitVec 15) : Statement (.addi d a imm) :=
  fun _ => .inr <| (decodeEncoded_parcel _ (bit0_packI ..)).trans <|
  (decodeScalar_addi _ (packI_1 ..)).trans (by rw [packI_17, packI_12, packI_7])
theorem andi (d a : Reg) (imm : BitVec 15) : Statement (.andi d a imm) :=
  fun _ => .inr <| (decodeEncoded_parcel _ (bit0_packI ..)).trans <|
  (decodeScalar_andi _ (packI_1 ..)).trans (by rw [packI_17, packI_12, packI_7])
theorem ori (d a : Reg) (imm : BitVec 15) : Statement (.ori d a imm) :=
  fun _ => .inr <| (decodeEncoded_parcel _ (bit0_packI ..)).trans <|
  (decodeScalar_ori _ (packI_1 ..)).trans (by rw [packI_17, packI_12, packI_7])
theorem xori (d a : Reg) (imm : BitVec 15) : Statement (.xori d a imm) :=
  fun _ => .inr <| (decodeEncoded_parcel _ (bit0_packI ..)).trans <|
  (decodeScalar_xori _ (packI_1 ..)).trans (by rw [packI_17, packI_12, packI_7])
theorem slti (d a : Reg) (imm : BitVec 15) : Statement (.slti d a imm) :=
  fun _ => .inr <| (decodeEncoded_parcel _ (bit0_packI ..)).trans <|
  (decodeScalar_slti _ (packI_1 ..)).trans (by rw [packI_17, packI_12, packI_7])
theorem sltni (d a : Reg) (imm : BitVec 15) : Statement (.sltni d a imm) :=
  fun _ => .inr <| (decodeEncoded_parcel _ (bit0_packI ..)).trans <|
  (decodeScalar_sltni _ (packI_1 ..)).trans (by rw [packI_17, packI_12, packI_7])
theorem slli (d a : Reg) (sh : BitVec 6) : Statement (.slli d a sh) := by
  intro h
  refine .inr ((decodeEncoded_parcel _ (bit0_packShi ..)).trans ((decodeScalar_shi _ (packShi_1 ..)).trans ?_))
  unfold decodeShi
  simp only [packShi_25, packShi_23, packShi_17, packShi_12, packShi_7]
  rfl
theorem srli (d a : Reg) (sh : BitVec 6) : Statement (.srli d a sh) := by
  intro h
  refine .inr ((decodeEncoded_parcel _ (bit0_packShi ..)).trans ((decodeScalar_shi _ (packShi_1 ..)).trans ?_))
  unfold decodeShi
  simp only [packShi_25, packShi_23, packShi_17, packShi_12, packShi_7]
  rfl
theorem srai (d a : Reg) (sh : BitVec 6) : Statement (.srai d a sh) := by
  intro h
  refine .inr ((decodeEncoded_parcel _ (bit0_packShi ..)).trans ((decodeScalar_shi _ (packShi_1 ..)).trans ?_))
  unfold decodeShi
  simp only [packShi_25, packShi_23, packShi_17, packShi_12, packShi_7]
  rfl
theorem rori (d a : Reg) (sh : BitVec 6) : Statement (.rori d a sh) := by
  intro h
  refine .inr ((decodeEncoded_parcel _ (bit0_packShi ..)).trans ((decodeScalar_shi _ (packShi_1 ..)).trans ?_))
  unfold decodeShi
  simp only [packShi_25, packShi_23, packShi_17, packShi_12, packShi_7]
  rfl
theorem ldhi (d : Reg) (imm : BitVec 20) : Statement (.ldhi d imm) :=
  fun _ => .inr <| (decodeEncoded_parcel _ (bit0_packU ..)).trans <|
  (decodeScalar_ldhi _ (packU_1 ..)).trans (by rw [packU_12, packU_7])
theorem addpc (d : Reg) (imm : BitVec 20) : Statement (.addpc d imm) :=
  fun _ => .inr <| (decodeEncoded_parcel _ (bit0_packU ..)).trans <|
  (decodeScalar_addpc _ (packU_1 ..)).trans (by rw [packU_12, packU_7])
theorem ld (d a : Reg) (cls : BitVec 4) (size : BitVec 2) (sx : Bool) (imm : BitVec 8) : Statement (.ld d a cls size sx imm) :=
  by
  intro h
  refine .inr ((decodeEncoded_parcel _ (bit0_packMem ..)).trans ((decodeScalar_ld _ (packMem_1 ..)).trans ?_))
  simp only [packMem_24, packMem_23, packMem_21, packMem_17, packMem_12, packMem_7, bit1_eq]
  exact need_ok h
theorem st (b a : Reg) (cls : BitVec 4) (size : BitVec 2) (imm : BitVec 8) : Statement (.st b a cls size imm) := by
  intro h
  refine .inr ((decodeEncoded_parcel _ (bit0_packMem ..)).trans ((decodeScalar_st _ (packMem_1 ..)).trans ?_))
  simp only [packMem_24, packMem_23, packMem_21, packMem_17, packMem_12, packMem_7, bit1_eq]
  rfl
theorem beq (a b : Reg) (off : BitVec 12) : Statement (.beq a b off) :=
  fun _ => .inr <| brFields rfl fun w h1 h2 h3 h4 => by
  subst h2 h3 h4; delta decodeBr; rw [h1]; rfl
theorem bne (a b : Reg) (off : BitVec 12) : Statement (.bne a b off) :=
  fun _ => .inr <| brFields rfl fun w h1 h2 h3 h4 => by
  subst h2 h3 h4; delta decodeBr; rw [h1]; rfl
theorem blt (a b : Reg) (off : BitVec 12) : Statement (.blt a b off) :=
  fun _ => .inr <| brFields rfl fun w h1 h2 h3 h4 => by
  subst h2 h3 h4; delta decodeBr; rw [h1]; rfl
theorem bge (a b : Reg) (off : BitVec 12) : Statement (.bge a b off) :=
  fun _ => .inr <| brFields rfl fun w h1 h2 h3 h4 => by
  subst h2 h3 h4; delta decodeBr; rw [h1]; rfl
theorem bltn (a b : Reg) (off : BitVec 12) : Statement (.bltn a b off) :=
  fun _ => .inr <| brFields rfl fun w h1 h2 h3 h4 => by
  subst h2 h3 h4; delta decodeBr; rw [h1]; rfl
theorem bgen (a b : Reg) (off : BitVec 12) : Statement (.bgen a b off) :=
  fun _ => .inr <| brFields rfl fun w h1 h2 h3 h4 => by
  subst h2 h3 h4; delta decodeBr; rw [h1]; rfl
theorem jal (d : Reg) (off : BitVec 20) : Statement (.jal d off) :=
  fun _ => .inr <| (decodeEncoded_parcel _ (bit0_packU ..)).trans <|
  (decodeScalar_jal _ (packU_1 ..)).trans (by rw [packU_12, packU_7])
theorem jalr (d a : Reg) (imm : BitVec 15) : Statement (.jalr d a imm) :=
  fun _ => .inr <| (decodeEncoded_parcel _ (bit0_packI ..)).trans <|
  (decodeScalar_jalr _ (packI_1 ..)).trans (by rw [packI_17, packI_12, packI_7])
theorem amoswap (d a b : Reg) (sem : BitVec 2) (scope : BitVec 3) (w : Bool) : Statement (.amoswap d a b sem scope w) :=
  fun h => .inr <| amoFields rfl fun w h1 h2 h3 h4 h5 h6 h7 => by
  subst h2 h3 h4 h5 h6 h7; delta decodeAmo; rw [h1]; exact need_ok h
theorem amoadd (d a b : Reg) (sem : BitVec 2) (scope : BitVec 3) (w : Bool) : Statement (.amoadd d a b sem scope w) :=
  fun h => .inr <| amoFields rfl fun w h1 h2 h3 h4 h5 h6 h7 => by
  subst h2 h3 h4 h5 h6 h7; delta decodeAmo; rw [h1]; exact need_ok h
theorem amoand (d a b : Reg) (sem : BitVec 2) (scope : BitVec 3) (w : Bool) : Statement (.amoand d a b sem scope w) :=
  fun h => .inr <| amoFields rfl fun w h1 h2 h3 h4 h5 h6 h7 => by
  subst h2 h3 h4 h5 h6 h7; delta decodeAmo; rw [h1]; exact need_ok h
theorem amoor (d a b : Reg) (sem : BitVec 2) (scope : BitVec 3) (w : Bool) : Statement (.amoor d a b sem scope w) :=
  fun h => .inr <| amoFields rfl fun w h1 h2 h3 h4 h5 h6 h7 => by
  subst h2 h3 h4 h5 h6 h7; delta decodeAmo; rw [h1]; exact need_ok h
theorem amoxor (d a b : Reg) (sem : BitVec 2) (scope : BitVec 3) (w : Bool) : Statement (.amoxor d a b sem scope w) :=
  fun h => .inr <| amoFields rfl fun w h1 h2 h3 h4 h5 h6 h7 => by
  subst h2 h3 h4 h5 h6 h7; delta decodeAmo; rw [h1]; exact need_ok h
theorem amomin (d a b : Reg) (sem : BitVec 2) (scope : BitVec 3) (w : Bool) : Statement (.amomin d a b sem scope w) :=
  fun h => .inr <| amoFields rfl fun w h1 h2 h3 h4 h5 h6 h7 => by
  subst h2 h3 h4 h5 h6 h7; delta decodeAmo; rw [h1]; exact need_ok h
theorem amomax (d a b : Reg) (sem : BitVec 2) (scope : BitVec 3) (w : Bool) : Statement (.amomax d a b sem scope w) :=
  fun h => .inr <| amoFields rfl fun w h1 h2 h3 h4 h5 h6 h7 => by
  subst h2 h3 h4 h5 h6 h7; delta decodeAmo; rw [h1]; exact need_ok h
theorem amominn (d a b : Reg) (sem : BitVec 2) (scope : BitVec 3) (w : Bool) : Statement (.amominn d a b sem scope w) :=
  fun h => .inr <| amoFields rfl fun w h1 h2 h3 h4 h5 h6 h7 => by
  subst h2 h3 h4 h5 h6 h7; delta decodeAmo; rw [h1]; exact need_ok h
theorem amomaxn (d a b : Reg) (sem : BitVec 2) (scope : BitVec 3) (w : Bool) : Statement (.amomaxn d a b sem scope w) :=
  fun h => .inr <| amoFields rfl fun w h1 h2 h3 h4 h5 h6 h7 => by
  subst h2 h3 h4 h5 h6 h7; delta decodeAmo; rw [h1]; exact need_ok h
theorem cas (d a b : Reg) (sem : BitVec 2) (scope : BitVec 3) (w : Bool) : Statement (.cas d a b sem scope w) := by
  intro h
  refine .inr ((decodeEncoded_parcel _ (bit0_packAmo ..)).trans ((decodeScalar_cas _ (packAmo_1 ..)).trans ?_))
  simp only [packAmo_31, packAmo_28, packAmo_26, packAmo_22, packAmo_17, packAmo_12, packAmo_7, bit1_eq]
  exact need_ok h
theorem fence (mask : BitVec 16) (scope : BitVec 3) : Statement (.fence mask scope) := by
  intro h
  have e : ∀ o k : Nat, fld (((0 : BitVec 1) ++ scope ++ mask ++ (0 : BitVec 5) ++ majorBits 0x11 : Parcel)) o k =
      fld ((0 : BitVec 1) ++ scope ++ mask ++ (0 : BitVec 5) ++ majorBits 0x11) o k := fun _ _ => rfl
  have h1 : fld (((0 : BitVec 1) ++ scope ++ mask ++ (0 : BitVec 5) ++ majorBits 0x11 : Parcel)) 1 6 = 0x11 := by
    simp (disch := decide) only [e, fld_high, fld_low, Nat.reduceSub, fld_all]
  have h2 : fld (((0 : BitVec 1) ++ scope ++ mask ++ (0 : BitVec 5) ++ majorBits 0x11 : Parcel)) 31 1 = 0 := by
    simp (disch := decide) only [e, fld_high, fld_low, Nat.reduceSub, fld_all]
  have h3 : fld (((0 : BitVec 1) ++ scope ++ mask ++ (0 : BitVec 5) ++ majorBits 0x11 : Parcel)) 7 5 = 0 := by
    simp (disch := decide) only [e, fld_high, fld_low, Nat.reduceSub, fld_all]
  have h4 : fld (((0 : BitVec 1) ++ scope ++ mask ++ (0 : BitVec 5) ++ majorBits 0x11 : Parcel)) 12 16 = mask := by
    simp (disch := decide) only [e, fld_high, fld_low, Nat.reduceSub, fld_all]
  have h5 : fld (((0 : BitVec 1) ++ scope ++ mask ++ (0 : BitVec 5) ++ majorBits 0x11 : Parcel)) 28 3 = scope := by
    simp (disch := decide) only [e, fld_high, fld_low, Nat.reduceSub, fld_all]
  refine .inr ((decodeEncoded_parcel _ (getLsbD_majorBits ((0 : BitVec 1) ++ scope ++ mask ++ (0 : BitVec 5)) _)).trans ((decodeScalar_fence _ h1).trans ?_))
  unfold decodeFence
  rw [h2, h3, h4, h5]
  exact need_ok h
theorem fenceI : Statement .fenceI := fun _ => .inr rfl
theorem trap (code : BitVec 10) : Statement (.trap code) := by
  intro h
  have e : ∀ o k : Nat, fld (((0 : BitVec 4) ++ (0 : BitVec 6) ++ code ++ (0 : BitVec 5) ++ majorBits 0x12 : Parcel)) o k =
      fld ((0 : BitVec 4) ++ (0 : BitVec 6) ++ code ++ (0 : BitVec 5) ++ majorBits 0x12) o k := fun _ _ => rfl
  have h1 : fld (((0 : BitVec 4) ++ (0 : BitVec 6) ++ code ++ (0 : BitVec 5) ++ majorBits 0x12 : Parcel)) 1 6 = 0x12 := by
    simp (disch := decide) only [e, fld_high, fld_low, Nat.reduceSub, fld_all]
  have h2 : fld (((0 : BitVec 4) ++ (0 : BitVec 6) ++ code ++ (0 : BitVec 5) ++ majorBits 0x12 : Parcel)) 28 4 = 0 := by
    simp (disch := decide) only [e, fld_high, fld_low, Nat.reduceSub, fld_all]
  have h3 : fld (((0 : BitVec 4) ++ (0 : BitVec 6) ++ code ++ (0 : BitVec 5) ++ majorBits 0x12 : Parcel)) 22 6 = 0 := by
    simp (disch := decide) only [e, fld_high, fld_low, Nat.reduceSub, fld_all]
  have h4 : fld (((0 : BitVec 4) ++ (0 : BitVec 6) ++ code ++ (0 : BitVec 5) ++ majorBits 0x12 : Parcel)) 7 5 = 0 := by
    simp (disch := decide) only [e, fld_high, fld_low, Nat.reduceSub, fld_all]
  have h5 : fld (((0 : BitVec 4) ++ (0 : BitVec 6) ++ code ++ (0 : BitVec 5) ++ majorBits 0x12 : Parcel)) 12 10 = code := by
    simp (disch := decide) only [e, fld_high, fld_low, Nat.reduceSub, fld_all]
  refine .inr ((decodeEncoded_parcel _ (getLsbD_majorBits ((0 : BitVec 4) ++ (0 : BitVec 6) ++ code ++ (0 : BitVec 5)) _)).trans ((decodeScalar_sys _ h1).trans ?_))
  unfold decodeSys
  rw [h2, h3, h4, h5]
  rfl
theorem rett : Statement .rett := by
  intro h
  refine .inr ((decodeEncoded_parcel _ (bit0_packR ..)).trans ((decodeScalar_sys _ (packR_1 ..)).trans ?_))
  unfold decodeSys
  simp only [packR_28, packR_22, packR_17, packR_12, packR_7]
  first | rfl | exact need_ok h | exact (if_pos h).trans (need_ok rfl) | simp_all [need, Instr.wf]
theorem yield (v : Bool) : Statement (.yield v) := fun _ => .inr (by cases v <;> rfl)
theorem waite (d a : Reg) : Statement (.waite d a) := by
  intro h
  refine .inr ((decodeEncoded_parcel _ (bit0_packR ..)).trans ((decodeScalar_sys _ (packR_1 ..)).trans ?_))
  unfold decodeSys
  simp only [packR_28, packR_22, packR_17, packR_12, packR_7]
  first | rfl | exact need_ok h | exact (if_pos h).trans (need_ok rfl) | simp_all [need, Instr.wf]
theorem csrr (d : Reg) (csr : BitVec 12) : Statement (.csrr d csr) := by
  intro h
  refine .inr ((decodeEncoded_parcel _ (bit0_packCsr ..)).trans ((decodeScalar_csr _ (packCsr_1 ..)).trans ?_))
  unfold decodeCsr
  simp only [packCsr_29, packCsr_17, packCsr_12, packCsr_7]
  rfl
theorem csrw (a : Reg) (csr : BitVec 12) : Statement (.csrw a csr) := by
  intro h
  refine .inr ((decodeEncoded_parcel _ (bit0_packCsr ..)).trans ((decodeScalar_csr _ (packCsr_1 ..)).trans ?_))
  unfold decodeCsr
  simp only [packCsr_29, packCsr_17, packCsr_12, packCsr_7]
  rfl
theorem csrs (a : Reg) (csr : BitVec 12) : Statement (.csrs a csr) := by
  intro h
  refine .inr ((decodeEncoded_parcel _ (bit0_packCsr ..)).trans ((decodeScalar_csr _ (packCsr_1 ..)).trans ?_))
  unfold decodeCsr
  simp only [packCsr_29, packCsr_17, packCsr_12, packCsr_7]
  rfl
theorem csrc (a : Reg) (csr : BitVec 12) : Statement (.csrc a csr) := by
  intro h
  refine .inr ((decodeEncoded_parcel _ (bit0_packCsr ..)).trans ((decodeScalar_csr _ (packCsr_1 ..)).trans ?_))
  unfold decodeCsr
  simp only [packCsr_29, packCsr_17, packCsr_12, packCsr_7]
  rfl
theorem csrx (d a : Reg) (csr : BitVec 12) : Statement (.csrx d a csr) := by
  intro h
  refine .inr ((decodeEncoded_parcel _ (bit0_packCsr ..)).trans ((decodeScalar_csr _ (packCsr_1 ..)).trans ?_))
  unfold decodeCsr
  simp only [packCsr_29, packCsr_17, packCsr_12, packCsr_7]
  rfl
theorem setvl (d a : Reg) (ty : BitVec 5) : Statement (.setvl d a ty) := by
  intro h
  have e : ∀ o k : Nat, fld (((0 : BitVec 4) ++ (0 : BitVec 5) ++ (0 : BitVec 1) ++ ty ++ a ++ d ++ majorBits 0x14 : Parcel)) o k =
      fld ((0 : BitVec 4) ++ (0 : BitVec 5) ++ (0 : BitVec 1) ++ ty ++ a ++ d ++ majorBits 0x14) o k := fun _ _ => rfl
  have h1 : fld (((0 : BitVec 4) ++ (0 : BitVec 5) ++ (0 : BitVec 1) ++ ty ++ a ++ d ++ majorBits 0x14 : Parcel)) 1 6 = 0x14 := by
    simp (disch := decide) only [e, fld_high, fld_low, Nat.reduceSub, fld_all]
  have h2 : fld (((0 : BitVec 4) ++ (0 : BitVec 5) ++ (0 : BitVec 1) ++ ty ++ a ++ d ++ majorBits 0x14 : Parcel)) 28 4 = 0 := by
    simp (disch := decide) only [e, fld_high, fld_low, Nat.reduceSub, fld_all]
  have h3 : fld (((0 : BitVec 4) ++ (0 : BitVec 5) ++ (0 : BitVec 1) ++ ty ++ a ++ d ++ majorBits 0x14 : Parcel)) 23 5 = 0 := by
    simp (disch := decide) only [e, fld_high, fld_low, Nat.reduceSub, fld_all]
  have h4 : fld (((0 : BitVec 4) ++ (0 : BitVec 5) ++ (0 : BitVec 1) ++ ty ++ a ++ d ++ majorBits 0x14 : Parcel)) 22 1 = 0 := by
    simp (disch := decide) only [e, fld_high, fld_low, Nat.reduceSub, fld_all]
  have h5 : fld (((0 : BitVec 4) ++ (0 : BitVec 5) ++ (0 : BitVec 1) ++ ty ++ a ++ d ++ majorBits 0x14 : Parcel)) 17 5 = ty := by
    simp (disch := decide) only [e, fld_high, fld_low, Nat.reduceSub, fld_all]
  have h6 : fld (((0 : BitVec 4) ++ (0 : BitVec 5) ++ (0 : BitVec 1) ++ ty ++ a ++ d ++ majorBits 0x14 : Parcel)) 12 5 = a := by
    simp (disch := decide) only [e, fld_high, fld_low, Nat.reduceSub, fld_all]
  have h7 : fld (((0 : BitVec 4) ++ (0 : BitVec 5) ++ (0 : BitVec 1) ++ ty ++ a ++ d ++ majorBits 0x14 : Parcel)) 7 5 = d := by
    simp (disch := decide) only [e, fld_high, fld_low, Nat.reduceSub, fld_all]
  refine .inr ((decodeEncoded_parcel _ (getLsbD_majorBits ((0 : BitVec 4) ++ (0 : BitVec 5) ++ (0 : BitVec 1) ++ ty ++ a ++ d) _)).trans ((decodeScalar_setvl _ h1).trans ?_))
  unfold decodeSetvl
  simp only [h2, h3, h4, h5, h6, h7]
  simp_all [need, Instr.wf]
  intro x; simp_all
theorem setvlDistance (d a b : Reg) (ty : BitVec 5) : Statement (.setvlDistance d a b ty) := by
  intro h
  have e : ∀ o k : Nat, fld (((0 : BitVec 4) ++ b ++ (1 : BitVec 1) ++ ty ++ a ++ d ++ majorBits 0x14 : Parcel)) o k =
      fld ((0 : BitVec 4) ++ b ++ (1 : BitVec 1) ++ ty ++ a ++ d ++ majorBits 0x14) o k := fun _ _ => rfl
  have h1 : fld (((0 : BitVec 4) ++ b ++ (1 : BitVec 1) ++ ty ++ a ++ d ++ majorBits 0x14 : Parcel)) 1 6 = 0x14 := by
    simp (disch := decide) only [e, fld_high, fld_low, Nat.reduceSub, fld_all]
  have h2 : fld (((0 : BitVec 4) ++ b ++ (1 : BitVec 1) ++ ty ++ a ++ d ++ majorBits 0x14 : Parcel)) 28 4 = 0 := by
    simp (disch := decide) only [e, fld_high, fld_low, Nat.reduceSub, fld_all]
  have h3 : fld (((0 : BitVec 4) ++ b ++ (1 : BitVec 1) ++ ty ++ a ++ d ++ majorBits 0x14 : Parcel)) 23 5 = b := by
    simp (disch := decide) only [e, fld_high, fld_low, Nat.reduceSub, fld_all]
  have h4 : fld (((0 : BitVec 4) ++ b ++ (1 : BitVec 1) ++ ty ++ a ++ d ++ majorBits 0x14 : Parcel)) 22 1 = 1 := by
    simp (disch := decide) only [e, fld_high, fld_low, Nat.reduceSub, fld_all]
  have h5 : fld (((0 : BitVec 4) ++ b ++ (1 : BitVec 1) ++ ty ++ a ++ d ++ majorBits 0x14 : Parcel)) 17 5 = ty := by
    simp (disch := decide) only [e, fld_high, fld_low, Nat.reduceSub, fld_all]
  have h6 : fld (((0 : BitVec 4) ++ b ++ (1 : BitVec 1) ++ ty ++ a ++ d ++ majorBits 0x14 : Parcel)) 12 5 = a := by
    simp (disch := decide) only [e, fld_high, fld_low, Nat.reduceSub, fld_all]
  have h7 : fld (((0 : BitVec 4) ++ b ++ (1 : BitVec 1) ++ ty ++ a ++ d ++ majorBits 0x14 : Parcel)) 7 5 = d := by
    simp (disch := decide) only [e, fld_high, fld_low, Nat.reduceSub, fld_all]
  refine .inr ((decodeEncoded_parcel _ (getLsbD_majorBits ((0 : BitVec 4) ++ b ++ (1 : BitVec 1) ++ ty ++ a ++ d) _)).trans ((decodeScalar_setvl _ h1).trans ?_))
  unfold decodeSetvl
  simp only [h2, h3, h4, h5, h6, h7]
  simp_all [Instr.wf]
  intro x; simp_all
theorem cpw (idx : BitVec 5) (a : Reg) : Statement (.cpw idx a) := by
  intro h
  refine .inr ((decodeEncoded_parcel _ (bit0_packEng ..)).trans ((decodeScalar_eng _ (packEng_1 ..)).trans ?_))
  unfold decodeEng
  simp only [packEng_31, packEng_28, packEng_22, packEng_17, packEng_12, packEng_7]
  first | rfl | exact need_ok h | exact (if_pos h).trans (need_ok rfl) | simp_all [need, Instr.wf]
theorem cpgo (d a : Reg) : Statement (.cpgo d a) := by
  intro h
  refine .inr ((decodeEncoded_parcel _ (bit0_packEng ..)).trans ((decodeScalar_eng _ (packEng_1 ..)).trans ?_))
  unfold decodeEng
  simp only [packEng_31, packEng_28, packEng_22, packEng_17, packEng_12, packEng_7]
  first | rfl | exact need_ok h | exact (if_pos h).trans (need_ok rfl) | simp_all [need, Instr.wf]
theorem tlwait (a b : Reg) (scope : BitVec 3) : Statement (.tlwait a b scope) := by
  intro h
  refine .inr ((decodeEncoded_parcel _ (bit0_packEng ..)).trans ((decodeScalar_eng _ (packEng_1 ..)).trans ?_))
  unfold decodeEng
  simp only [packEng_31, packEng_28, packEng_22, packEng_17, packEng_12, packEng_7]
  first | rfl | exact need_ok h | exact (if_pos h).trans (need_ok rfl) | simp_all [need, Instr.wf]
theorem tlread (d a : Reg) : Statement (.tlread d a) := by
  intro h
  refine .inr ((decodeEncoded_parcel _ (bit0_packEng ..)).trans ((decodeScalar_eng _ (packEng_1 ..)).trans ?_))
  unfold decodeEng
  simp only [packEng_31, packEng_28, packEng_22, packEng_17, packEng_12, packEng_7]
  first | rfl | exact need_ok h | exact (if_pos h).trans (need_ok rfl) | simp_all [need, Instr.wf]
theorem binit (a b : Reg) : Statement (.binit a b) := by
  intro h
  refine .inr ((decodeEncoded_parcel _ (bit0_packEng ..)).trans ((decodeScalar_eng _ (packEng_1 ..)).trans ?_))
  unfold decodeEng
  simp only [packEng_31, packEng_28, packEng_22, packEng_17, packEng_12, packEng_7]
  first | rfl | exact need_ok h | exact (if_pos h).trans (need_ok rfl) | simp_all [need, Instr.wf]
theorem barrive (d a : Reg) : Statement (.barrive d a) := by
  intro h
  refine .inr ((decodeEncoded_parcel _ (bit0_packEng ..)).trans ((decodeScalar_eng _ (packEng_1 ..)).trans ?_))
  unfold decodeEng
  simp only [packEng_31, packEng_28, packEng_22, packEng_17, packEng_12, packEng_7]
  first | rfl | exact need_ok h | exact (if_pos h).trans (need_ok rfl) | simp_all [need, Instr.wf]
theorem bexp (a b : Reg) : Statement (.bexp a b) := by
  intro h
  refine .inr ((decodeEncoded_parcel _ (bit0_packEng ..)).trans ((decodeScalar_eng _ (packEng_1 ..)).trans ?_))
  unfold decodeEng
  simp only [packEng_31, packEng_28, packEng_22, packEng_17, packEng_12, packEng_7]
  first | rfl | exact need_ok h | exact (if_pos h).trans (need_ok rfl) | simp_all [need, Instr.wf]
theorem bwait (a : Reg) (scope : BitVec 3) : Statement (.bwait a scope) := by
  intro h
  refine .inr ((decodeEncoded_parcel _ (bit0_packEng ..)).trans ((decodeScalar_eng _ (packEng_1 ..)).trans ?_))
  unfold decodeEng
  simp only [packEng_31, packEng_28, packEng_22, packEng_17, packEng_12, packEng_7]
  first | rfl | exact need_ok h | exact (if_pos h).trans (need_ok rfl) | simp_all [need, Instr.wf]
theorem btest (d a : Reg) : Statement (.btest d a) := by
  intro h
  refine .inr ((decodeEncoded_parcel _ (bit0_packEng ..)).trans ((decodeScalar_eng _ (packEng_1 ..)).trans ?_))
  unfold decodeEng
  simp only [packEng_31, packEng_28, packEng_22, packEng_17, packEng_12, packEng_7]
  first | rfl | exact need_ok h | exact (if_pos h).trans (need_ok rfl) | simp_all [need, Instr.wf]
theorem binval (a : Reg) : Statement (.binval a) := by
  intro h
  refine .inr ((decodeEncoded_parcel _ (bit0_packEng ..)).trans ((decodeScalar_eng _ (packEng_1 ..)).trans ?_))
  unfold decodeEng
  simp only [packEng_31, packEng_28, packEng_22, packEng_17, packEng_12, packEng_7]
  first | rfl | exact need_ok h | exact (if_pos h).trans (need_ok rfl) | simp_all [need, Instr.wf]
theorem klaunch (d a b : Reg) : Statement (.klaunch d a b) := by
  intro h
  refine .inr ((decodeEncoded_parcel _ (bit0_packEng ..)).trans ((decodeScalar_eng _ (packEng_1 ..)).trans ?_))
  unfold decodeEng
  simp only [packEng_31, packEng_28, packEng_22, packEng_17, packEng_12, packEng_7]
  first | rfl | exact need_ok h | exact (if_pos h).trans (need_ok rfl) | simp_all [need, Instr.wf]
theorem gsync (id : BitVec 5) (scope : BitVec 3) : Statement (.gsync id scope) := by
  intro h
  refine .inr ((decodeEncoded_parcel _ (bit0_packEng ..)).trans ((decodeScalar_eng _ (packEng_1 ..)).trans ?_))
  unfold decodeEng
  simp only [packEng_31, packEng_28, packEng_22, packEng_17, packEng_12, packEng_7]
  first | rfl | exact need_ok h | exact (if_pos h).trans (need_ok rfl) | simp_all [need, Instr.wf]
theorem gexit : Statement .gexit := by
  intro h
  refine .inr ((decodeEncoded_parcel _ (bit0_packEng ..)).trans ((decodeScalar_eng _ (packEng_1 ..)).trans ?_))
  unfold decodeEng
  simp only [packEng_31, packEng_28, packEng_22, packEng_17, packEng_12, packEng_7]
  first | rfl | exact need_ok h | exact (if_pos h).trans (need_ok rfl) | simp_all [need, Instr.wf]
theorem mxgo (d a : Reg) : Statement (.mxgo d a) := by
  intro h
  refine .inr ((decodeEncoded_parcel _ (bit0_packEng ..)).trans ((decodeScalar_eng _ (packEng_1 ..)).trans ?_))
  unfold decodeEng
  simp only [packEng_31, packEng_28, packEng_22, packEng_17, packEng_12, packEng_7]
  first | rfl | exact need_ok h | exact (if_pos h).trans (need_ok rfl) | simp_all [need, Instr.wf]
theorem hint (imm : BitVec 25) : Statement (.hint imm) := by
  intro h
  have e : ∀ o k : Nat, fld ((imm ++ majorBits 0x3F : Parcel)) o k =
      fld (imm ++ majorBits 0x3F) o k := fun _ _ => rfl
  have h1 : fld ((imm ++ majorBits 0x3F : Parcel)) 1 6 = 0x3F := by
    simp (disch := decide) only [e, fld_high, fld_low, Nat.reduceSub, fld_all]
  have h2 : fld ((imm ++ majorBits 0x3F : Parcel)) 7 25 = imm := by
    simp (disch := decide) only [e, fld_high, fld_low, Nat.reduceSub, fld_all]
  refine .inr ((decodeEncoded_parcel _ (getLsbD_majorBits imm _)).trans ((decodeScalar_hint _ h1).trans ?_))
  rw [h2]
theorem vadd (w : VWord) : Statement (.vadd w) := fun h => .inr ((decodeVector_0 0 w).trans (need_ok h))
theorem vsub (w : VWord) : Statement (.vsub w) := fun h => .inr ((decodeVector_0 1 w).trans (need_ok h))
theorem vmul (w : VWord) : Statement (.vmul w) := fun h => .inr ((decodeVector_0 2 w).trans (need_ok h))
theorem vmulh (w : VWord) : Statement (.vmulh w) := fun h => .inr ((decodeVector_0 3 w).trans (need_ok h))
theorem vmin (w : VWord) : Statement (.vmin w) := fun h => .inr ((decodeVector_0 4 w).trans (need_ok h))
theorem vmax (w : VWord) : Statement (.vmax w) := fun h => .inr ((decodeVector_0 5 w).trans (need_ok h))
theorem vand (w : VWord) : Statement (.vand w) := fun h => .inr ((decodeVector_0 6 w).trans (need_ok h))
theorem vor (w : VWord) : Statement (.vor w) := fun h => .inr ((decodeVector_0 7 w).trans (need_ok h))
theorem vxor (w : VWord) : Statement (.vxor w) := fun h => .inr ((decodeVector_0 8 w).trans (need_ok h))
theorem vsll (w : VWord) : Statement (.vsll w) := fun h => .inr ((decodeVector_0 9 w).trans (need_ok h))
theorem vsrl (w : VWord) : Statement (.vsrl w) := fun h => .inr ((decodeVector_0 10 w).trans (need_ok h))
theorem vsra (w : VWord) : Statement (.vsra w) := fun h => .inr ((decodeVector_0 11 w).trans (need_ok h))
theorem vsadd (w : VWord) : Statement (.vsadd w) := fun h => .inr ((decodeVector_0 12 w).trans (need_ok h))
theorem vssub (w : VWord) : Statement (.vssub w) := fun h => .inr ((decodeVector_0 13 w).trans (need_ok h))
theorem vabsd (w : VWord) : Statement (.vabsd w) := fun h => .inr ((decodeVector_0 14 w).trans (need_ok h))
theorem vmerge (w : VWord) : Statement (.vmerge w) := fun h => .inr ((decodeVector_0 15 w).trans (need_ok h))
theorem vmovx (w : VWord) : Statement (.vmovx w) := fun h => .inr ((decodeVector_0 16 w).trans (need_ok h))
theorem vidx (w : VWord) : Statement (.vidx w) := fun h => .inr ((decodeVector_0 17 w).trans (need_ok h))
theorem vcmp (w : VWord) : Statement (.vcmp w) := fun h => .inr ((decodeVector_0 18 w).trans (need_ok h))
theorem vwmul (w : VWord) : Statement (.vwmul w) := fun h => .inr ((decodeVector_0 19 w).trans (need_ok h))
theorem vwadd (w : VWord) : Statement (.vwadd w) := fun h => .inr ((decodeVector_0 20 w).trans (need_ok h))
theorem vnarrow (w : VWord) : Statement (.vnarrow w) := fun h => .inr ((decodeVector_0 21 w).trans (need_ok h))
theorem pand (w : VWord) : Statement (.pand w) := fun h => .inr ((decodeVector_0 32 w).trans (need_ok h))
theorem por (w : VWord) : Statement (.por w) := fun h => .inr ((decodeVector_0 33 w).trans (need_ok h))
theorem pxor (w : VWord) : Statement (.pxor w) := fun h => .inr ((decodeVector_0 34 w).trans (need_ok h))
theorem pandn (w : VWord) : Statement (.pandn w) := fun h => .inr ((decodeVector_0 35 w).trans (need_ok h))
theorem pset (w : VWord) : Statement (.pset w) := fun h => .inr ((decodeVector_0 36 w).trans (need_ok h))
theorem pcnt (w : VWord) : Statement (.pcnt w) := fun h => .inr ((decodeVector_0 37 w).trans (need_ok h))
theorem pfirst (w : VWord) : Statement (.pfirst w) := fun h => .inr ((decodeVector_0 38 w).trans (need_ok h))
theorem vfadd (w : VWord) : Statement (.vfadd w) := fun h => .inr ((decodeVector_2 0 w).trans (need_ok h))
theorem vfsub (w : VWord) : Statement (.vfsub w) := fun h => .inr ((decodeVector_2 1 w).trans (need_ok h))
theorem vfmul (w : VWord) : Statement (.vfmul w) := fun h => .inr ((decodeVector_2 2 w).trans (need_ok h))
theorem vfma (w : VWord) : Statement (.vfma w) := fun h => .inr ((decodeVector_2 3 w).trans (need_ok h))
theorem vfms (w : VWord) : Statement (.vfms w) := fun h => .inr ((decodeVector_2 4 w).trans (need_ok h))
theorem vfnma (w : VWord) : Statement (.vfnma w) := fun h => .inr ((decodeVector_2 5 w).trans (need_ok h))
theorem vfdiv (w : VWord) : Statement (.vfdiv w) := fun h => .inr ((decodeVector_2 6 w).trans (need_ok h))
theorem vfsqrt (w : VWord) : Statement (.vfsqrt w) := fun h => .inr ((decodeVector_2 7 w).trans (need_ok h))
theorem vfmin (w : VWord) : Statement (.vfmin w) := fun h => .inr ((decodeVector_2 8 w).trans (need_ok h))
theorem vfmax (w : VWord) : Statement (.vfmax w) := fun h => .inr ((decodeVector_2 9 w).trans (need_ok h))
theorem vfcmp (w : VWord) : Statement (.vfcmp w) := fun h => .inr ((decodeVector_2 10 w).trans (need_ok h))
theorem vfcvt (w : VWord) : Statement (.vfcvt w) := fun h => .inr ((decodeVector_2 11 w).trans (need_ok h))
theorem vfrece (w : VWord) : Statement (.vfrece w) := fun h => .inr ((decodeVector_2 12 w).trans (need_ok h))
theorem vfrsqe (w : VWord) : Statement (.vfrsqe w) := fun h => .inr ((decodeVector_2 13 w).trans (need_ok h))
theorem vld (w : VWord) : Statement (.vld w) := fun h => .inr ((decodeVector_3 0 w).trans (need_ok h))
theorem vlds (w : VWord) : Statement (.vlds w) := fun h => .inr ((decodeVector_3 1 w).trans (need_ok h))
theorem vldx (w : VWord) : Statement (.vldx w) := fun h => .inr ((decodeVector_3 2 w).trans (need_ok h))
theorem vldff (w : VWord) : Statement (.vldff w) := fun h => .inr ((decodeVector_3 3 w).trans (need_ok h))
theorem vst (w : VWord) : Statement (.vst w) := fun h => .inr ((decodeVector_3 4 w).trans (need_ok h))
theorem vsts (w : VWord) : Statement (.vsts w) := fun h => .inr ((decodeVector_3 5 w).trans (need_ok h))
theorem vstx (w : VWord) : Statement (.vstx w) := fun h => .inr ((decodeVector_3 6 w).trans (need_ok h))
theorem vperm (w : VWord) : Statement (.vperm w) := fun h => .inr ((decodeVector_4 0 w).trans (need_ok h))
theorem vslideup (w : VWord) : Statement (.vslideup w) := fun h => .inr ((decodeVector_4 1 w).trans (need_ok h))
theorem vslidedn (w : VWord) : Statement (.vslidedn w) := fun h => .inr ((decodeVector_4 2 w).trans (need_ok h))
theorem vcompress (w : VWord) : Statement (.vcompress w) := fun h => .inr ((decodeVector_4 3 w).trans (need_ok h))
theorem vexpand (w : VWord) : Statement (.vexpand w) := fun h => .inr ((decodeVector_4 4 w).trans (need_ok h))
theorem vbcaste (w : VWord) : Statement (.vbcaste w) := fun h => .inr ((decodeVector_4 5 w).trans (need_ok h))
theorem vzip (w : VWord) : Statement (.vzip w) := fun h => .inr ((decodeVector_4 6 w).trans (need_ok h))
theorem vunzip (w : VWord) : Statement (.vunzip w) := fun h => .inr ((decodeVector_4 7 w).trans (need_ok h))
theorem vredsum (w : VWord) : Statement (.vredsum w) := fun h => .inr ((decodeVector_4 8 w).trans (need_ok h))
theorem vredmax (w : VWord) : Statement (.vredmax w) := fun h => .inr ((decodeVector_4 9 w).trans (need_ok h))
theorem vredmin (w : VWord) : Statement (.vredmin w) := fun h => .inr ((decodeVector_4 10 w).trans (need_ok h))
theorem vfredsum (w : VWord) : Statement (.vfredsum w) := fun h => .inr ((decodeVector_4 11 w).trans (need_ok h))
theorem vxqadd (w : VWord) : Statement (.vxqadd w) := fun h => .inr ((decodeVector_5 0 w).trans (need_ok h))
theorem vxqmax (w : VWord) : Statement (.vxqmax w) := fun h => .inr ((decodeVector_5 1 w).trans (need_ok h))
theorem vxqfma (w : VWord) : Statement (.vxqfma w) := fun h => .inr ((decodeVector_5 2 w).trans (need_ok h))
theorem vexta (w : VWord) : Statement (.vexta w) := fun h => .inr ((decodeVector_6 0 w).trans (need_ok h))
theorem vinsa (w : VWord) : Statement (.vinsa w) := fun h => .inr ((decodeVector_6 1 w).trans (need_ok h))
theorem vzera (w : VWord) : Statement (.vzera w) := fun h => .inr ((decodeVector_6 2 w).trans (need_ok h))
theorem srd (w : VWord) : Statement (.srd w) := fun h => .inr ((decodeVector_7 0 w).trans (need_ok h))
theorem srstat (w : VWord) : Statement (.srstat w) := fun h => .inr ((decodeVector_7 1 w).trans (need_ok h))
theorem mma (w : MWord) : Statement (.mma w) := fun h => .inr <| matrixFields 0 fun x h1 h2 => by
  subst h2; delta decodeMatrix; rw [h1]; exact need_ok h
theorem mzero (w : MWord) : Statement (.mzero w) := fun h => .inr <| matrixFields 1 fun x h1 h2 => by
  subst h2; delta decodeMatrix; rw [h1]; exact need_ok h
theorem mtld (w : MWord) : Statement (.mtld w) := fun h => .inr <| matrixFields 2 fun x h1 h2 => by
  subst h2; delta decodeMatrix; rw [h1]; exact need_ok h
theorem mtst (w : MWord) : Statement (.mtst w) := fun h => .inr <| matrixFields 3 fun x h1 h2 => by
  subst h2; delta decodeMatrix; rw [h1]; exact need_ok h
theorem mqld (w : MWord) : Statement (.mqld w) := fun h => .inr <| matrixFields 4 fun x h1 h2 => by
  subst h2; delta decodeMatrix; rw [h1]; exact need_ok h
theorem mqst (w : MWord) : Statement (.mqst w) := fun h => .inr <| matrixFields 5 fun x h1 h2 => by
  subst h2; delta decodeMatrix; rw [h1]; exact need_ok h
theorem mqadd (w : MWord) : Statement (.mqadd w) := fun h => .inr <| matrixFields 6 fun x h1 h2 => by
  subst h2; delta decodeMatrix; rw [h1]; exact need_ok h
theorem mqmul (w : MWord) : Statement (.mqmul w) := fun h => .inr <| matrixFields 7 fun x h1 h2 => by
  subst h2; delta decodeMatrix; rw [h1]; exact need_ok h
theorem chisel (w : MWord) : Statement (.chisel w) := fun h => .inr <| matrixFields 8 fun x h1 h2 => by
  subst h2; delta decodeMatrix; rw [h1]; exact need_ok h
theorem mqcast (w : MWord) : Statement (.mqcast w) := fun h => .inr <| matrixFields 9 fun x h1 h2 => by
  subst h2; delta decodeMatrix; rw [h1]; exact need_ok h
theorem mqrank (w : MWord) : Statement (.mqrank w) := fun h => .inr <| matrixFields 10 fun x h1 h2 => by
  subst h2; delta decodeMatrix; rw [h1]; exact need_ok h
theorem mqfree (w : MWord) : Statement (.mqfree w) := fun h => .inr <| matrixFields 11 fun x h1 h2 => by
  subst h2; delta decodeMatrix; rw [h1]; exact need_ok h
theorem mqscl (w : MWord) : Statement (.mqscl w) := fun h => .inr <| matrixFields 12 fun x h1 h2 => by
  subst h2; delta decodeMatrix; rw [h1]; exact need_ok h
theorem mthdr (w : MWord) : Statement (.mthdr w) := fun h => .inr <| matrixFields 13 fun x h1 h2 => by
  subst h2; delta decodeMatrix; rw [h1]; exact need_ok h
theorem act (w : BWord) : Statement (.act w) := fun h => .inr <| bankFields 0 fun x h1 h2 => by
  subst h2; delta decodeBank; rw [h1]; exact need_ok h
theorem pre (w : BWord) : Statement (.pre w) := fun h => .inr <| bankFields 1 fun x h1 h2 => by
  subst h2; delta decodeBank; rw [h1]; exact need_ok h
theorem wb (w : BWord) : Statement (.wb w) := fun h => .inr <| bankFields 2 fun x h1 h2 => by
  subst h2; delta decodeBank; rw [h1]; exact need_ok h
theorem refb (w : BWord) : Statement (.refb w) := fun h => .inr <| bankFields 3 fun x h1 h2 => by
  subst h2; delta decodeBank; rw [h1]; exact need_ok h
theorem refq (w : BWord) : Statement (.refq w) := fun h => .inr <| bankFields 4 fun x h1 h2 => by
  subst h2; delta decodeBank; rw [h1]; exact need_ok h
theorem rcopy (w : BWord) : Statement (.rcopy w) := fun h => .inr <| bankFields 5 fun x h1 h2 => by
  subst h2; delta decodeBank; rw [h1]; exact need_ok h
theorem rzero (w : BWord) : Statement (.rzero w) := fun h => .inr <| bankFields 6 fun x h1 h2 => by
  subst h2; delta decodeBank; rw [h1]; exact need_ok h
theorem radd (w : BWord) : Statement (.radd w) := fun h => .inr <| bankFields 8 fun x h1 h2 => by
  subst h2; delta decodeBank; rw [h1]; exact need_ok h
theorem rsub (w : BWord) : Statement (.rsub w) := fun h => .inr <| bankFields 9 fun x h1 h2 => by
  subst h2; delta decodeBank; rw [h1]; exact need_ok h
theorem rmul (w : BWord) : Statement (.rmul w) := fun h => .inr <| bankFields 10 fun x h1 h2 => by
  subst h2; delta decodeBank; rw [h1]; exact need_ok h
theorem rmax (w : BWord) : Statement (.rmax w) := fun h => .inr <| bankFields 11 fun x h1 h2 => by
  subst h2; delta decodeBank; rw [h1]; exact need_ok h
theorem rmin (w : BWord) : Statement (.rmin w) := fun h => .inr <| bankFields 12 fun x h1 h2 => by
  subst h2; delta decodeBank; rw [h1]; exact need_ok h
theorem rand (w : BWord) : Statement (.rand w) := fun h => .inr <| bankFields 13 fun x h1 h2 => by
  subst h2; delta decodeBank; rw [h1]; exact need_ok h
theorem rior (w : BWord) : Statement (.rior w) := fun h => .inr <| bankFields 14 fun x h1 h2 => by
  subst h2; delta decodeBank; rw [h1]; exact need_ok h
theorem rxor (w : BWord) : Statement (.rxor w) := fun h => .inr <| bankFields 15 fun x h1 h2 => by
  subst h2; delta decodeBank; rw [h1]; exact need_ok h
theorem rshr (w : BWord) : Statement (.rshr w) := fun h => .inr <| bankFields 16 fun x h1 h2 => by
  subst h2; delta decodeBank; rw [h1]; exact need_ok h
theorem rscadd (w : BWord) : Statement (.rscadd w) := fun h => .inr <| bankFields 17 fun x h1 h2 => by
  subst h2; delta decodeBank; rw [h1]; exact need_ok h
theorem rcmp (w : BWord) : Statement (.rcmp w) := fun h => .inr <| bankFields 18 fun x h1 h2 => by
  subst h2; delta decodeBank; rw [h1]; exact need_ok h
theorem rsel (w : BWord) : Statement (.rsel w) := fun h => .inr <| bankFields 19 fun x h1 h2 => by
  subst h2; delta decodeBank; rw [h1]; exact need_ok h
theorem rcvt (w : BWord) : Statement (.rcvt w) := fun h => .inr <| bankFields 20 fun x h1 h2 => by
  subst h2; delta decodeBank; rw [h1]; exact need_ok h
theorem qzero (w : BWord) : Statement (.qzero w) := fun h => .inr <| bankFields 24 fun x h1 h2 => by
  subst h2; delta decodeBank; rw [h1]; exact need_ok h
theorem qacc (w : BWord) : Statement (.qacc w) := fun h => .inr <| bankFields 25 fun x h1 h2 => by
  subst h2; delta decodeBank; rw [h1]; exact need_ok h
theorem qmac (w : BWord) : Statement (.qmac w) := fun h => .inr <| bankFields 26 fun x h1 h2 => by
  subst h2; delta decodeBank; rw [h1]; exact need_ok h
theorem qwb (w : BWord) : Statement (.qwb w) := fun h => .inr <| bankFields 27 fun x h1 h2 => by
  subst h2; delta decodeBank; rw [h1]; exact need_ok h
theorem qld (w : BWord) : Statement (.qld w) := fun h => .inr <| bankFields 28 fun x h1 h2 => by
  subst h2; delta decodeBank; rw [h1]; exact need_ok h
theorem rsweep (w : BWord) : Statement (.rsweep w) := fun h => .inr <| bankFields 32 fun x h1 h2 => by
  subst h2; delta decodeBank; rw [h1]; exact need_ok h
theorem shmov (w : BWord) : Statement (.shmov w) := fun h => .inr <| bankFields 40 fun x h1 h2 => by
  subst h2; delta decodeBank; rw [h1]; exact need_ok h
theorem bufst (w : BWord) : Statement (.bufst w) := fun h => .inr <| bankFields 41 fun x h1 h2 => by
  subst h2; delta decodeBank; rw [h1]; exact need_ok h
theorem bufld (w : BWord) : Statement (.bufld w) := fun h => .inr <| bankFields 42 fun x h1 h2 => by
  subst h2; delta decodeBank; rw [h1]; exact need_ok h
theorem bli (w : BWord) : Statement (.bli w) := fun h => .inr <| bankFields 48 fun x h1 h2 => by
  subst h2; delta decodeBank; rw [h1]; exact need_ok h
theorem badd (w : BWord) : Statement (.badd w) := fun h => .inr <| bankFields 49 fun x h1 h2 => by
  subst h2; delta decodeBank; rw [h1]; exact need_ok h
theorem bbr (w : BWord) : Statement (.bbr w) := fun h => .inr <| bankFields 50 fun x h1 h2 => by
  subst h2; delta decodeBank; rw [h1]; exact need_ok h
theorem bloop (w : BWord) : Statement (.bloop w) := fun h => .inr <| bankFields 51 fun x h1 h2 => by
  subst h2; delta decodeBank; rw [h1]; exact need_ok h
theorem bpset (w : BWord) : Statement (.bpset w) := fun h => .inr <| bankFields 52 fun x h1 h2 => by
  subst h2; delta decodeBank; rw [h1]; exact need_ok h
theorem bsplit (w : BWord) : Statement (.bsplit w) := fun h => .inr <| bankFields 53 fun x h1 h2 => by
  subst h2; delta decodeBank; rw [h1]; exact need_ok h
theorem bjoin (w : BWord) : Statement (.bjoin w) := fun h => .inr <| bankFields 54 fun x h1 h2 => by
  subst h2; delta decodeBank; rw [h1]; exact need_ok h
theorem bsig (w : BWord) : Statement (.bsig w) := fun h => .inr <| bankFields 55 fun x h1 h2 => by
  subst h2; delta decodeBank; rw [h1]; exact need_ok h
theorem bend (w : BWord) : Statement (.bend w) := fun h => .inr <| bankFields 56 fun x h1 h2 => by
  subst h2; delta decodeBank; rw [h1]; exact need_ok h
theorem bwaitt (w : BWord) : Statement (.bwaitt w) := fun h => .inr <| bankFields 57 fun x h1 h2 => by
  subst h2; delta decodeBank; rw [h1]; exact need_ok h
theorem brett (w : BWord) : Statement (.brett w) := fun h => .inr <| bankFields 58 fun x h1 h2 => by
  subst h2; delta decodeBank; rw [h1]; exact need_ok h
theorem bnop (w : BWord) : Statement (.bnop w) := fun h => .inr <| bankFields 59 fun x h1 h2 => by
  subst h2; delta decodeBank; rw [h1]; exact need_ok h
theorem tacuElapsed (bank slot : Nat) : Statement (.tacuElapsed bank slot) := fun _ => .inl rfl
theorem rowPassEnd (bank : Nat) : Statement (.rowPassEnd bank) := fun _ => .inl rfl
theorem twbkElapsed (bank slot : Nat) : Statement (.twbkElapsed bank slot) := fun _ => .inl rfl
theorem tpreElapsed (bank slot : Nat) : Statement (.tpreElapsed bank slot) := fun _ => .inl rfl
theorem rcopyComplete (bank slot : Nat) : Statement (.rcopyComplete bank slot) := fun _ => .inl rfl
theorem refbComplete (bank : Nat) : Statement (.refbComplete bank) := fun _ => .inl rfl
theorem busMoveEnd (stream : Nat) : Statement (.busMoveEnd stream) := fun _ => .inl rfl
theorem refreshInterval (bank : Nat) : Statement (.refreshInterval bank) := fun _ => .inl rfl
theorem refreshDeadline (stream : Nat) : Statement (.refreshDeadline stream) := fun _ => .inl rfl
theorem forcedRefresh (bank : Nat) : Statement (.forcedRefresh bank) := fun _ => .inl rfl
theorem plinthRefresh (bank : Nat) : Statement (.plinthRefresh bank) := fun _ => .inl rfl
theorem ordinaryAccess (bank group row : Nat) : Statement (.ordinaryAccess bank group row) := fun _ => .inl rfl
theorem streamYield (stream : Nat) : Statement (.streamYield stream) := fun _ => .inl rfl
theorem yieldEnd (stream : Nat) : Statement (.yieldEnd stream) := fun _ => .inl rfl
theorem activateHint (bank group row : Nat) : Statement (.activateHint bank group row) := fun _ => .inl rfl
theorem streamWake (stream : Nat) : Statement (.streamWake stream) := fun _ => .inl rfl
theorem streamPark (stream : Nat) : Statement (.streamPark stream) := fun _ => .inl rfl
theorem streamResume (stream : Nat) : Statement (.streamResume stream) := fun _ => .inl rfl
theorem hartWake (hart : Nat) : Statement (.hartWake hart) := fun _ => .inl rfl
theorem hartUnstall (hart : Nat) : Statement (.hartUnstall hart) := fun _ => .inl rfl
theorem preempt (hart : Nat) : Statement (.preempt hart) := fun _ => .inl rfl
theorem preemptionRequest (group : Nat) : Statement (.preemptionRequest group) := fun _ => .inl rfl
theorem coreRecordSave (group core : Nat) : Statement (.coreRecordSave group core) := fun _ => .inl rfl
theorem hartResume (group member core : Nat) : Statement (.hartResume group member core) := fun _ => .inl rfl
theorem tilePlacement (ctx queue : Nat) (cores : List Nat) : Statement (.tilePlacement ctx queue cores) :=
  fun _ => .inl rfl
theorem queueAging (ctx queue : Nat) : Statement (.queueAging ctx queue) := fun _ => .inl rfl
theorem kernelAdmission (ctx queue : Nat) : Statement (.kernelAdmission ctx queue) := fun _ => .inl rfl
theorem kernelComplete (kernel : Nat) : Statement (.kernelComplete kernel) := fun _ => .inl rfl
theorem kernelSkipped (kernel : Nat) : Statement (.kernelSkipped kernel) := fun _ => .inl rfl
theorem tileHardwareFault (group core : Nat) (coreLost : Bool) : Statement (.tileHardwareFault group core coreLost) :=
  fun _ => .inl rfl
theorem accHandoff (core acc : Nat) : Statement (.accHandoff core acc) := fun _ => .inl rfl
theorem matrixWordComplete (core : Nat) : Statement (.matrixWordComplete core) := fun _ => .inl rfl
theorem gatherDelivered (hart vd : Nat) : Statement (.gatherDelivered hart vd) := fun _ => .inl rfl
theorem transferOpStart (ctx chan num : Nat) : Statement (.transferOpStart ctx chan num) := fun _ => .inl rfl
theorem elementGroupLands (ctx chan num : Nat) : Statement (.elementGroupLands ctx chan num) := fun _ => .inl rfl
theorem transferOpComplete (ctx chan num : Nat) : Statement (.transferOpComplete ctx chan num) := fun _ => .inl rfl
theorem transferOpFault (ctx chan num : Nat) : Statement (.transferOpFault ctx chan num) := fun _ => .inl rfl
theorem lamAdmission (ctx chan num : Nat) : Statement (.lamAdmission ctx chan num) := fun _ => .inl rfl
theorem lamDeadline (tower entry : Nat) : Statement (.lamDeadline tower entry) := fun _ => .inl rfl
theorem lamComputeStart (tower entry : Nat) : Statement (.lamComputeStart tower entry) := fun _ => .inl rfl
theorem lamWeightFault (tower entry : Nat) : Statement (.lamWeightFault tower entry) := fun _ => .inl rfl
theorem lamComputeEnd (tower entry : Nat) : Statement (.lamComputeEnd tower entry) := fun _ => .inl rfl
theorem lamSplitComplete (tower entry : Nat) : Statement (.lamSplitComplete tower entry) := fun _ => .inl rfl
theorem createContext (addr : BitVec 58) : Statement (.createContext addr) := fun _ => .inl rfl
theorem enableQueue (addr : BitVec 58) : Statement (.enableQueue addr) := fun _ => .inl rfl
theorem disableQueue (addr : BitVec 58) : Statement (.disableQueue addr) := fun _ => .inl rfl
theorem suspendContext (addr : BitVec 58) : Statement (.suspendContext addr) := fun _ => .inl rfl
theorem resumeContext (addr : BitVec 58) : Statement (.resumeContext addr) := fun _ => .inl rfl
theorem clearContextFault (addr : BitVec 58) : Statement (.clearContextFault addr) := fun _ => .inl rfl
theorem destroyContext (addr : BitVec 58) : Statement (.destroyContext addr) := fun _ => .inl rfl
theorem ringNotify (addr : BitVec 58) : Statement (.ringNotify addr) := fun _ => .inl rfl
theorem tlbinvVa (ctx : BitVec 16) : Statement (.tlbinvVa ctx) := fun _ => .inl rfl
theorem tlbinvAll (ctx : BitVec 16) : Statement (.tlbinvAll ctx) := fun _ => .inl rfl
theorem tlbinvDone : Statement .tlbinvDone := fun _ => .inl rfl
theorem acctrSelect : Statement .acctrSelect := fun _ => .inl rfl
theorem acctrClear : Statement .acctrClear := fun _ => .inl rfl
theorem remapRetireBank (tower : BitVec 3) (pc : BitVec 6) (bank : BitVec 4) : Statement (.remapRetireBank tower pc bank) :=
  fun _ => .inl rfl
theorem remapSetFloor (tower : BitVec 3) (floor : BitVec 12) : Statement (.remapSetFloor tower floor) :=
  fun _ => .inl rfl
theorem remapDone : Statement .remapDone := fun _ => .inl rfl
theorem hosterrClear : Statement .hosterrClear := fun _ => .inl rfl
theorem podidWrite (v : Word) : Statement (.podidWrite v) := fun _ => .inl rfl
theorem registerWrite (mgmt : Bool) (off : Nat) (v : Word) : Statement (.registerWrite mgmt off v) := fun _ => .inl rfl
theorem hostBar2Read (addr len : Nat) : Statement (.hostBar2Read addr len) := fun _ => .inl rfl
theorem hostBar2Write (addr : Nat) (data : List Byte) : Statement (.hostBar2Write addr data) := fun _ => .inl rfl
theorem poolPortUp (port width size : Nat) : Statement (.poolPortUp port width size) := fun _ => .inl rfl
theorem poolPortDown (port : Nat) : Statement (.poolPortDown port) := fun _ => .inl rfl
theorem ulportEnable (port : Nat) : Statement (.ulportEnable port) := fun _ => .inl rfl
theorem ulportDrain (port : Nat) : Statement (.ulportDrain port) := fun _ => .inl rfl
theorem ulportRetireLane (port : Nat) (lane : BitVec 2) : Statement (.ulportRetireLane port lane) := fun _ => .inl rfl
theorem laneTrainingDone (port : Nat) (lanes : BitVec 4) (peer : BitVec 11) (peerPort : BitVec 6) : Statement (.laneTrainingDone port lanes peer peerPort) :=
  fun _ => .inl rfl
theorem laneErrorThreshold (port : Nat) (lane : BitVec 2) : Statement (.laneErrorThreshold port lane) :=
  fun _ => .inl rfl
theorem partnerLost (port : Nat) : Statement (.partnerLost port) := fun _ => .inl rfl
theorem portDrained (port : Nat) : Statement (.portDrained port) := fun _ => .inl rfl
theorem flitReceived (port : Nat) (flit : Flit) : Statement (.flitReceived port flit) := fun _ => .inl rfl
theorem podRequestReceived (peer addr : Nat) (op : PodOp) : Statement (.podRequestReceived peer addr op) :=
  fun _ => .inl rfl
theorem podResponseReceived (peer req : Nat) (reply : PodReply) : Statement (.podResponseReceived peer req reply) :=
  fun _ => .inl rfl
theorem laneRateChange (core : Nat) (half : Bool) : Statement (.laneRateChange core half) := fun _ => .inl rfl
theorem voltageDroop (core : Nat) : Statement (.voltageDroop core) := fun _ => .inl rfl
theorem wayGate (tower : Nat) : Statement (.wayGate tower) := fun _ => .inl rfl
theorem wayEnable (tower : Nat) : Statement (.wayEnable tower) := fun _ => .inl rfl
theorem hotTrip (die col : Nat) : Statement (.hotTrip die col) := fun _ => .inl rfl
theorem hotClear (die col : Nat) : Statement (.hotClear die col) := fun _ => .inl rfl
theorem throttleTrip (die col : Nat) : Statement (.throttleTrip die col) := fun _ => .inl rfl
theorem throttleClear (die col : Nat) : Statement (.throttleClear die col) := fun _ => .inl rfl
theorem critTrip (die col : Nat) : Statement (.critTrip die col) := fun _ => .inl rfl
theorem supplyLoss : Statement .supplyLoss := fun _ => .inl rfl
theorem hardPowerOff : Statement .hardPowerOff := fun _ => .inl rfl
theorem watchdogExpiry : Statement .watchdogExpiry := fun _ => .inl rfl
theorem bistGo (tower : BitVec 3) (pc : BitVec 6) (bank : BitVec 4) : Statement (.bistGo tower pc bank) :=
  fun _ => .inl rfl
theorem bistDone (pass : Bool) : Statement (.bistDone pass) := fun _ => .inl rfl
theorem fwCommit : Statement .fwCommit := fun _ => .inl rfl
theorem fwAttest : Statement .fwAttest := fun _ => .inl rfl
theorem fwBootromRestore : Statement .fwBootromRestore := fun _ => .inl rfl
theorem deviceReset : Statement .deviceReset := fun _ => .inl rfl
theorem taprElapsed (bank slot : Nat) : Statement (.taprElapsed bank slot) := fun _ => .inl rfl
theorem taadElapsed (bank : Nat) : Statement (.taadElapsed bank) := fun _ => .inl rfl
theorem tfawWindowElapsed (tower pc : Nat) : Statement (.tfawWindowElapsed tower pc) := fun _ => .inl rfl
theorem yieldRowCopyEnd (bank : Nat) : Statement (.yieldRowCopyEnd bank) := fun _ => .inl rfl
theorem plinthBufferCrossingEnd (tower entry : Nat) : Statement (.plinthBufferCrossingEnd tower entry) :=
  fun _ => .inl rfl

end Sys2Proof.Laws.RoundTrip
end

