-- ==== Sys2Proof/Tests/Slice0.lean ====
section
/-! SUPPORT. Tests of single steps and of single words, with expected results from the spec's tables and examples; the
refusals of WellFormed; and for the hypotheses of every statement a state and operands that meet them. -/

set_option Elab.async false
set_option linter.unusedVariables false

open Sys2Proof Sys2Proof.Machine

namespace Sys2Proof.Tests

/-! ## Helpers -/

/-- The field `f` of the next state of an outcome. -/
def got {α : Type} (o : Host.Outcome State Fault Refusal) (f : State → α) : Option α :=
  match o with
  | .next t => some (f t)
  | _ => none

theorem ok_of {ε α : Type} {e : Except ε α} {a : α} (h : e.toOption = some a) : e = .ok a := by
  cases e with
  | error _ => cases h
  | ok b => cases h; rfl

/-- Hart 0 of core 0, issuing at 0x1_0004 in context 1, whose virtual addresses below 64 GiB are physical ones; it is
its turn. -/
def base : State :=
  { cur := some (.hart 0), fresh := 3,
    mem := [(2 ^ 47 + 0x2100, 1), (2 ^ 47 + 0x2102, 8), (2 ^ 47 + 0x2200, 0x3F), (2 ^ 47 + 0x2000_2004, 2)],
    ctxs := [(1, { desc := 0x2_0000, state := .resident, ptroot := 0x4_0000 })],
    kernels := [(2, placedKernel false 0x1_0004)],
    groups := [(1, { kernel := 2, tile := 0, state := .running, cores := [0], members := [(0, { at_ := .place 0 })] })],
    harts := [(0, { life := .issuing, group := 1, pc := 0x1_0004, vgrant := 1024 })] }

theorem base_eq : base = { State.reset.withFetchWord 32 2 with cur := some (.hart 0), agenda := [] } := by decide +kernel

/-- The same with registers x[r] = v. -/
def regs (l : List (Nat × Nat)) (s : State) : State :=
  s.modHart 0 fun h => l.foldl (fun h p => h.wr (BitVec.ofNat 5 p.1) (BitVec.ofNat 64 p.2)) h

/-- The same with `n` bytes of `v` at a physical address. -/
def poke (a n v : Nat) (s : State) : State := store s a (toBytes n v) none

/-- x[r] of hart 0. -/
def xr (r : Nat) (s : State) : Nat := ((s.hart 0).rd (BitVec.ofNat 5 r)).toNat

/-! ## Turns (StepRunsDecoded, and the statements whose one hypothesis is the turn) -/

theorem witness_HartTurn : base.HartTurn 0 := by unfold State.HartTurn; decide +kernel

theorem test_add_wraps : got (exec (.add 1 2 3) (regs [(2, 2 ^ 64 - 1), (3, 2)] base)) (xr 1) = some 1 := by
  decide +kernel
/-- 04, the example of DIVN.W. -/
theorem test_divnW : got (exec (.divnW 3 4 5) (regs [(4, 0xFFFF_FFFF), (5, 1)] base)) (xr 3) = some (2 ^ 64 - 1) := by
  decide +kernel
theorem test_div_most_negative : got (exec (.div 3 4 5) (regs [(4, 2 ^ 63), (5, 2 ^ 64 - 1)] base)) (xr 3) = some (2 ^ 63) := by
  decide +kernel
theorem test_mulh_signs : got (exec (.mulh 3 4 5) (regs [(4, 2 ^ 64 - 1), (5, 3)] base)) (xr 3) = some (2 ^ 64 - 1) := by
  decide +kernel
theorem test_addi_negative : got (exec (.addi 5 6 0x7FFD) (regs [(6, 10)] base)) (fun t => (xr 5 t, (t.hart 0).pc)) =
    some (7, 0x1_0008) := by decide +kernel
theorem test_sraW : got (exec (.sraW 3 4 5) (regs [(4, 0x8000_0000), (5, 33)] base)) (xr 3) = some 0xFFFF_FFFF_C000_0000 := by
  decide +kernel
theorem test_bgen_taken : got (exec (.bgen 1 2 0xFFF) (regs [(1, 2 ^ 63), (2, 1)] base)) (fun t => (t.hart 0).pc) =
    some 0x1_0000 := by decide +kernel

/-! ## Scalar statements -/

theorem witness_JumpsLinkAndGo_aligned :
    base.HartTurn 0 ∧ (BitVec.ofInt 64 ((((regs [(2, 0x100)] base).hart 0).rd 2).toNat + (4 : BitVec 15).toInt) : Word).toNat % 4 = 0 := by
  unfold State.HartTurn; decide +kernel
theorem witness_JumpsLinkAndGo_misaligned :
    base.HartTurn 0 ∧ (BitVec.ofInt 64 ((((regs [(2, 0x100)] base).hart 0).rd 2).toNat + (3 : BitVec 15).toInt) : Word).toNat % 4 ≠ 0 := by
  unfold State.HartTurn; decide +kernel

/-- x6 = 0x2_0000, where the dword 0x1122_3344_8566_7788 lies; x5 and x7 as given. -/
def memS (x5 x7 : Nat) : State := poke 0x2_0000 8 0x1122_3344_8566_7788 (regs [(5, x5), (6, 0x2_0000), (7, x7)] base)

theorem witness_LoadsAndStoresComplete_load : let s := memS 0 0
    let h := s.hart 0
    let ea : Word := BitVec.ofInt 64 ((h.rd 6).toNat + (0 : BitVec 8).toInt * (2 ^ 2 : Nat))
    s.HartTurn 0 ∧ ea.toNat % 2 ^ 2 = 0 ∧ hartLoad s h ea 4 .load 0 = .ok (⟨0x2_0000, 0, false, false⟩, 0x8566_7788) :=
  ⟨by unfold State.HartTurn; decide +kernel, by decide +kernel, ok_of (by decide +kernel)⟩
theorem witness_LoadsAndStoresComplete_store : let s := memS 0 0
    hartAddr s (s.hart 0) 0x2_0000 8 .store 0 (.write (toBytes 8 0)) = .ok ⟨0x2_0000, 0, false, false⟩ :=
  ok_of (by decide +kernel)
theorem witness_LoadsAndStoresComplete_misaligned : let s := regs [(6, 0x2_0001)] base
    let h := s.hart 0
    let ea : Word := BitVec.ofInt 64 ((h.rd 6).toNat + (0 : BitVec 8).toInt * (2 ^ 1 : Nat))
    s.HartTurn 0 ∧ ea.toNat % 2 ^ 1 ≠ 0 ∧ (h.rd 6).toNat % 4 ≠ 0 ∧ (h.rd 6).toNat % 8 ≠ 0 := by
  unfold State.HartTurn; decide +kernel
theorem test_ld_sign : got (exec (.ld 5 6 3 2 true 0) (memS 0 0)) (xr 5) = some 0xFFFF_FFFF_8566_7788 := by decide +kernel
theorem test_st_little_endian : got (exec (.st 7 6 3 1 1) (memS 0 0xABCD)) (fun t => physBytes t 0x2_0002 2) =
    some [0xCD, 0xAB] := by decide +kernel

theorem witness_StoreFrame : let s := memS 0 5
    s.HartTurn 0 ∧ memWf s.mem = true ∧ (s.hart 0).life ≠ .free ∧ (false && s.host.acen) = false ∧
      (∀ i < 8, physHome s (0x2_0000 + i) = .mem (homeKey s (0x2_0000 + i)) ∧ isRowZero (homeKey s (0x2_0000 + i)) = false) ∧
      (∀ i < 8, ∀ j < 8, homeKey s (0x2_0000 + i) = homeKey s (0x2_0000 + j) → i = j) := by
  unfold State.HartTurn; decide +kernel

theorem witness_AtomicsReadModifyWrite : let s := memS 0 0
    s.HartTurn 0 ∧ ((s.hart 0).rd 6).toNat % 4 = 0 ∧
      hartLoad s (s.hart 0) ((s.hart 0).rd 6) 4 .atomic 0 (.amo .cas true 0 0) =
        .ok (⟨0x2_0000, 0, false, false⟩, 0x8566_7788) :=
  ⟨by unfold State.HartTurn; decide +kernel, by decide +kernel, ok_of (by decide +kernel)⟩
/-- 07, the example of CAS: the low 32 bits are compared. -/
theorem test_casW : got (exec (.cas 5 6 7 3 4 true) (memS 0xFFFF_FFFF_8566_7788 0x1234))
    (fun t => (xr 5 t, physRead t 0x2_0000 4)) = some (0xFFFF_FFFF_8566_7788, 0x1234) := by decide +kernel

/-- A hart whose monitor is `m` and whose life is `l`. -/
def waitS (m : Option Monitor) (l : Life) : State := (memS 0 0).modHart 0 fun h => { h with monitor := m, life := l }
/-- The line of memory at 0x2_0000. -/
def line : Nat := homeKey base 0x2_0000 / 64
theorem witness_WaiteArmsWaitsAndWakes : (waitS none .issuing).HartTurn 0 ∧
    hartAddr (waitS none .issuing) ((waitS none .issuing).hart 0) (((waitS none .issuing).hart 0).rd 6) 1 .load 0 =
      .ok ⟨0x2_0000, 0, false, false⟩ := ⟨by unfold State.HartTurn; decide +kernel, ok_of (by decide +kernel)⟩
theorem test_waite_arms : got (exec (.waite 5 6) (waitS none .issuing)) (fun t => (xr 5 t, (t.hart 0).monitor)) =
    some (1, some ⟨line, false⟩) := by decide +kernel
theorem test_waite_other_line : got (exec (.waite 5 6) (waitS (some ⟨3, true⟩) .issuing)) (xr 5) = some 1 := by decide +kernel
theorem test_waite_waits : got (exec (.waite 5 6) (waitS (some ⟨line, false⟩) .issuing)) (fun t => (t.hart 0).life) =
    some .waiting := by decide +kernel
theorem test_waite_wakes : got (exec (.waite 5 6) (waitS (some ⟨line, true⟩) .waiting)) (xr 5) = some 0 := by decide +kernel
theorem test_waite_other_wake : got (exec (.waite 5 6) (waitS (some ⟨line, false⟩) .waiting)) (xr 5) = some 1 := by
  decide +kernel

/-- An SRD of v1 in flight, from st1, of eight 32-bit elements. -/
def flying : StreamRead := { vd := 1, strm := 1, ty := 2, done := 0, vl := 8 }
theorem witness_TrapAndReturn_busy :
    let s := base.modHart 0 fun h => { h with gathers := [⟨1, 32, [], none⟩] }
    let t := base.modHart 0 fun h => { h with reads := [flying] }
    s.HartTurn 0 ∧ (s.hart 0).busyRegs = true ∧ t.HartTurn 0 ∧ (t.hart 0).busyRegs = true := by
  unfold State.HartTurn; decide +kernel
/-- In service, with an SRD stopped at the PREEMPT, and with VSTATE OFF or not. -/
theorem witness_TrapAndReturn : ∀ v ∈ [VState.off, .dirty],
    let s := base.modHart 0 fun h => { h with service := true, reads := [flying], readsHeld := true, vstate := v }
    s.HartTurn 0 ∧ (s.hart 0).busyRegs = false ∧ (s.hart 0).vstate = v := by
  unfold State.HartTurn; decide +kernel
theorem test_rett_goes_on : got (exec .rett (base.modHart 0 fun h =>
    { h with service := true, reads := [flying], readsHeld := true, vstate := .clean, full := ~~~4, emptyAt := 2,
             s := { h.s with tepc := 0x400 }, tstat := { h.tstat with prv := true } }))
    (fun t => let h := t.hart 0; (h.pc, h.full, h.reads, h.tstat.prv)) =
    some (0x400, ~~~4, [], false) := by decide +kernel
theorem test_trap_entry : got (exec (.trap 7) (base.modHart 0 fun h => { h with s := { h.s with tvec := 0x400 } }))
    (fun t => let h := t.hart 0; (h.pc, h.s.tepc, h.s.tcause, h.s.tval, h.tstat.prv)) =
    some (0x400, 0x1_0004, 20, 7, true) := by decide +kernel

/-- A hart with a request pending or in service. -/
def yieldS (service preempt : Bool) : State := base.modHart 0 fun h => { h with service := service, preempt := preempt }
theorem witness_YieldReleasesAndTakesItsPlace : (yieldS false false).HartTurn 0 ∧ ((yieldS false false).hart 0).gathers = [] ∧
    ((yieldS false true).hart 0).preempt = true ∧ ((yieldS true false).hart 0).service = true := by
  unfold State.HartTurn; decide +kernel
theorem witness_YieldReleasesAndTakesItsPlace_waits :
    (((yieldS false false).modHart 0 fun h => { h with gathers := [⟨1, 32, [], none⟩] }).hart 0).busyRegs = true ∧
    (let s := base.modHart 0 fun h => { h with service := true }
     let t := (s.setCore 0 { s.core 0 with job := some ⟨none, false⟩ }).setHart 8 { s.hart 0 with group := 1 }
     isSeqPlace 8 = true ∧ (t.core (8 / 9)).job.isSome = true ∧ (t.hart 8).service = true) := by decide +kernel
/-- In service, with room for its record. -/
theorem witness_YieldReleasesAndTakesItsPlace_park :
    let s := (yieldS true false).setGroup 1 { base.groups.getD 1 { kernel := 0, tile := 0 } with
      members := [(0, { at_ := .place 0, parkAt := some 0 })] }
    (s.groupOf (s.hart 0)).map (fun p => p.1.members.get? (memberNo p.1 0 (s.hart 0))) =
      some (some { at_ := .place 0, parkAt := some 0 }) ∧ (s.ctxs.get? 1).isSome = true ∧
    got (exec (.yield false) s) (fun t => ((t.hart 0).life, (t.groups.get? 1).map fun g => (g.members.getD 0 {}).at_)) =
      some (.free, some .parked) := by decide +kernel
theorem witness_YieldReleasesAndTakesItsPlace_preempt : let s := yieldS false true
    (s.hart 0).exiting = false ∧ s.pod.all (fun p => p.by_ != 0) = true ∧ (s.hart 0).tdeleg.getLsbD 21 = false := by
  decide +kernel
theorem test_yield_v : got (exec (.yield true) (yieldS false false)) (fun t => ((t.hart 0).vstate, (t.hart 0).released)) =
    some (.off, true) := by decide +kernel

/-! ## CSRs -/

theorem witness_mayCsr : (base.hart 0).busyRegs = false ∧ csrAccess (isSeqPlace 0) 0x030 = some (.rw, .rw) ∧
    (base.hart 0).tstat.prv = false := by decide +kernel
theorem witness_mayCsr_instret : let s := base.modHart 0 fun h => { h with tstat := { h.tstat with prv := true } }
    (s.hart 0).tstat.prv = true ∧ csrAccess (isSeqPlace 0) 0x061 = some (.r, .rw) := by decide +kernel
theorem witness_CsrAccessTraps : csrAccess (isSeqPlace 0) 0x00F = none ∧ csrAccess (isSeqPlace 0) 0x081 = none ∧
    csrAccess (isSeqPlace 0) 0x040 = none ∧ csrAccess (isSeqPlace 8) 0x020 = none ∧
    csrAccess (isSeqPlace 0) 0x003 = some (.r, .r) ∧ csrAccess (isSeqPlace 0) 0x015 = some (.no, .rw) ∧
    csrAccess (isSeqPlace 0) 0x021 = some (.rw, .rw) ∧ csrAccess (isSeqPlace 0) 0x026 = some (.rw, .rw) := by decide +kernel
theorem test_csrr_vec_absent : got (exec (.csrr 5 0x026) (base.modHart 0 fun h => { h with vstate := .off }))
    (fun t => ((t.hart 0).s.tcause, (t.hart 0).s.tval2)) = some (10, 0x1_0026) := by decide +kernel
theorem test_csrr_privilege : got (exec (.csrr 5 0x01D) base) (fun t => ((t.hart 0).s.tcause, (t.hart 0).s.tval2)) =
    some (3, 0x1D) := by decide +kernel
theorem test_csrx_swaps : got (exec (.csrx 5 6 0x030) ((regs [(6, 0xFF)] base).modHart 0 fun h => { h with fflags := 3 }))
    (fun t => (xr 5 t, (t.hart 0).fflags)) = some (3, 0x1F) := by decide +kernel
theorem test_tdeleg_mask : got (exec (.csrw 6 0x015) ((regs [(6, 0xFFFF_FFFF)] base).modHart 0 fun h =>
    { h with tstat := { h.tstat with prv := true } })) (fun t => (t.hart 0).tdeleg) = some 0xFFDF_FA17 := by decide +kernel

theorem witness_SetvlResults : base.HartTurn 0 ∧ isSeqPlace 0 = false ∧ (base.hart 0).vstate ≠ .off ∧
    (14 ≤ 14 ∨ 16 ≤ 14 ∧ 14 ≤ 22) ∧ (22 ≤ 14 ∨ 16 ≤ 22 ∧ 22 ≤ 22) := by unfold State.HartTurn; decide +kernel
/-- 05, the examples of SETVL at VGRANT 4,096. -/
theorem test_setvl : got (exec (.setvl 9 8 9) ((regs [(8, 1000)] base).modHart 0 fun h => { h with vgrant := 4096 }))
    (xr 9) = some 128 := by decide +kernel
theorem test_setvl_distance : got (exec (.setvlDistance 9 8 7 9) ((regs [(8, 1000), (7, 3)] base).modHart 0 fun h =>
    { h with vgrant := 4096 })) (xr 9) = some 3 := by decide +kernel

/-! ## Timelines and engines -/

theorem witness_TimelinesRead : (regs [(6, 3)] base).HartTurn 0 ∧ (3 : BitVec 5).toNat < 10 ∧
    tlView (regs [(6, 3)] base) ((regs [(6, 3)] base).ctxOf ((regs [(6, 3)] base).hart 0))
      (((regs [(6, 3)] base).groupOf ((regs [(6, 3)] base).hart 0)).map (·.1)) 3 = some ⟨0, []⟩ := by
  unfold State.HartTurn; decide +kernel
/-- Channel 3 of context 1 with watermark 5, the number 8 faulted, and x6 = 3, x7 = n. -/
def chanS (n : Nat) : State :=
  let s := regs [(6, 3), (7, n)] base
  s.setCtx 1 { s.ctxs.getD 1 { desc := 0 } with xfer := [(3, { line := { last := 9, mark := 5, faulted := [8] } })] }
theorem witness_TimelinesRead_wait : tlView (chanS 7) ((chanS 7).ctxOf ((chanS 7).hart 0))
    (((chanS 7).groupOf ((chanS 7).hart 0)).map (·.1)) 3 = some ⟨5, [8]⟩ ∧ ((chanS 7).hart 0).life ≠ .waiting := by decide +kernel
theorem witness_TimelinesRead_view : ∀ n ∈ [4, 7, 8], waitView (chanS n) ((chanS n).ctxOf ((chanS n).hart 0))
    (((chanS n).groupOf ((chanS n).hart 0)).map (·.1)) 3 none = some ⟨5, [8]⟩ ∧ ((chanS n).hart 0).rd 7 = BitVec.ofNat 64 n := by
  decide +kernel
/-- A waiting hart that has kept the binding of stream 5 to kernel 2, and one that sees that it has ended (11 R307). -/
theorem witness_TimelinesRead_binding :
    let s := (regs [(6, 0x3005), (7, 1)] base).modHart 0 fun h => { h with life := .waiting, waitFor := some (2, 5) }
    (waitView s 1 none 0x3005 (s.hart 0).waitFor).isSome = true := by decide +kernel
theorem test_cpw_keeps : got (exec (.cpw 6 7) (regs [(7, 2 ^ 64 - 1)] base)) (fun t => ((t.hart 0).shadow[6]).toNat) =
    some (2 ^ 14 - 1) := by decide +kernel
theorem test_tlwait_waits : got (exec (.tlwait 6 7 0) (chanS 7)) (fun t => (t.hart 0).life) = some .waiting := by decide +kernel
theorem test_tlwait_done : got (exec (.tlwait 6 7 0) (chanS 5)) (fun t => (t.hart 0).pc) = some 0x1_0008 := by decide +kernel
theorem test_tlwait_fault : got (exec (.tlwait 6 7 0) (chanS 8)) (fun t =>
    ((t.hart 0).s.tcause, (t.hart 0).s.tval, (t.hart 0).engfault)) = some (12, 3, 0x8_0003) := by decide +kernel
theorem test_tlread : got (exec (.tlread 5 6) (chanS 0)) (xr 5) = some 5 := by decide +kernel

/-- A hart with the shadow registers `w` and x6 = handle. -/
def shadowS (handle : Nat) (w : List Nat) : State :=
  (regs [(6, handle)] base).modHart 0 fun h =>
    { h with shadow := Vector.ofFn fun i => BitVec.ofNat 64 (w.getD i.1 0) }
/-- A copy of one row of 64 bytes. -/
def copyS : State := shadowS 2 [0x2_0000, 0x5_0000, 64, 0, 0, 1]
theorem witness_EnginesLaunch : let s := copyS
    let h := s.hart 0
    s.ctxOf h = 1 ∧ (s.ctxs.get? 1).isSome = true ∧ (h.rd 6).toNat ≤ 63 ∧ Shadow.reset h.shadow = false ∧
      Shadow.rscope h.shadow < 6 ∧ bitsAt (h.shadow[8]).toNat 0 16 = 0 ∧ xferShape h.shadow = some (64, 64, 64) := by
  decide +kernel
theorem witness_EnginesLaunch_bar : captureBar copyS (copyS.hart 0) (copyS.hart 0).shadow = .ok none :=
  ok_of (by decide +kernel)
theorem witness_EnginesLaunch_reset : let s := shadowS 2 [0, 0, 0, 0, 0, 0, 0, 0, 0, 0x400]
    Shadow.reset (s.hart 0).shadow = true := by decide +kernel
theorem test_cpgo : got (exec (.cpgo 5 6) copyS) (fun t => (xr 5 t,
    ((t.ctxs.getD 1 { desc := 0 }).xfer.getD 2 {}).ops.map (·.num))) = some (1, [1]) := by decide +kernel
/-- A lamination request of one activation row and K = N = 64. -/
def lamS : State := shadowS 0x1002 [0, 0, 0x40_0001, 0, 64 + 8 * 2 ^ 16, 0, 8 + 9 * 2 ^ 5]
theorem witness_EnginesLaunch_lam : let s := lamS
    let h := s.hart 0
    s.variant ≠ .nx4m ∧ (s.groupOf h).isSome = true ∧ 0x1000 ≤ (h.rd 6).toNat ∧ (h.rd 6).toNat ≤ 0x100F ∧
      Shadow.reset h.shadow = false ∧ Shadow.rscope h.shadow < 6 ∧ lamFieldsOk h.shadow = true := by decide +kernel
theorem test_mxgo : got (exec (.mxgo 5 6) lamS) (xr 5) = some 1 := by decide +kernel
theorem test_mxgo_absent : got (exec (.mxgo 5 6) { lamS with variant := .nx4m }) (fun t =>
    ((t.hart 0).s.tcause, (t.hart 0).s.tval2)) = some (2, 0x13) := by decide +kernel

/-- A copy to v registers 0 and 1 of hart 0, through a page at virtual address 2^36. -/
def vregS : State :=
  [(0x8_0008, 0x9_0001), (0x9_0000, 0xA_0001), (0xA_0000, 0xB_0001), (0xB_0000, 0x7F00_0008_00AF)].foldl
    (fun s p => poke p.1 8 p.2 s) (shadowS 2 [0x2_0000, 2 ^ 36, 256, 0, 0, 1])
theorem witness_EnginesLaunch_registers : boundRegs vregS (vregS.hart 0) (vregS.hart 0).shadow 256 = some (0, 0x7F00_0008, 3) := by
  decide +kernel
theorem test_cpgo_empties : got (exec (.cpgo 5 6) vregS) (fun t => (t.hart 0).full) = some (~~~3) := by decide +kernel
theorem witness_EnginesLaunch_full : (32 : Nat) ≤
    (Timeline.outstanding { last := 40, mark := 3 : Timeline }) := by decide +kernel

/-! ## Barriers -/

/-- A barrier object at virtual address 2^36, physical 0x3_0000, with x6 its address, or a token. -/
def barS (gen phase valid expect penda pendb x6 x7 : Nat) : State :=
  [(0x8_0008, 0x9_0001), (0x9_0000, 0xA_0001), (0xA_0000, 0xB_0001), (0xB_0000, 0x3_00EF),
    (0x3_0000, gen + phase * 2 ^ 16 + valid * 2 ^ 32), (0x3_0008, expect), (0x3_0010, penda), (0x3_0018, pendb)].foldl
    (fun s p => poke p.1 8 p.2 s) (regs [(6, x6), (7, x7)] base)
theorem witness_Barrier : ∀ op ∈ [PodOp.binit 4, .read 32, .binval, .barrive, .bexp 4],
    barAddr (barS 7 1 1 2 1 0 (2 ^ 36) 4) ((barS 7 1 1 2 1 0 (2 ^ 36) 4).hart 0)
      (((barS 7 1 1 2 1 0 (2 ^ 36) 4).hart 0).rd 6) .barWrite op = .ok 0x3_0000 := by
  intro op h
  have h2 : (barAddr (barS 7 1 1 2 1 0 (2 ^ 36) 4) ((barS 7 1 1 2 1 0 (2 ^ 36) 4).hart 0)
      (((barS 7 1 1 2 1 0 (2 ^ 36) 4).hart 0).rd 6) .barWrite op).toOption = some 0x3_0000 := by
    revert op; decide +kernel
  exact ok_of h2
theorem witness_Barrier_fields : let s := barS 7 1 1 2 1 0 (2 ^ 36) 4
    let o := barRead s 0x3_0000
    s.cur = some (.hart 0) ∧ o = ⟨7, 1, true, 2, 1, 0⟩ ∧ ((s.hart 0).rd 7).toNat = 4 := by decide +kernel
/-- A token of phase 1 of the object. -/
def token : Nat := 7 * 2 ^ 48 + 1 * 2 ^ 43 + 2 ^ 31
theorem witness_Barrier_waits : tokenTest (barS 7 1 1 2 1 0 token 0) ((barS 7 1 1 2 1 0 token 0).hart 0)
    (((barS 7 1 1 2 1 0 token 0).hart 0).rd 6) = .ok (0x3_0000, false) := ok_of (by decide +kernel)
theorem witness_Barrier_done : tokenTest (barS 7 2 1 2 1 0 token 0) ((barS 7 2 1 2 1 0 token 0).hart 0)
    (((barS 7 2 1 2 1 0 token 0).hart 0).rd 6) = .ok (0x3_0000, true) := ok_of (by decide +kernel)
theorem test_barrive_completes : got (exec (.barrive 5 6) (barS 7 1 1 2 1 0 (2 ^ 36) 0)) (fun t =>
    (xr 5 t, barRead t 0x3_0000)) = some (token, ⟨7, 2, true, 2, 2, 0⟩) := by decide +kernel
theorem test_bexp_counts : got (exec (.bexp 6 7) (barS 7 1 1 2 1 0 (2 ^ 36) 64)) (fun t => (barRead t 0x3_0000).pendb) =
    some 64 := by decide +kernel
theorem test_binit : got (exec (.binit 6 7) (barS 7 1 1 2 1 0 (2 ^ 36) 4)) (fun t => barRead t 0x3_0000) =
    some ⟨8, 0, true, 4, 4, 0⟩ := by decide +kernel
theorem test_bwait_waits : got (exec (.bwait 6 0) (barS 7 1 1 2 1 0 token 0)) (fun t => (t.hart 0).life) = some .waiting := by
  decide +kernel
theorem test_btest : got (exec (.btest 5 6) (barS 7 2 1 2 1 0 token 0)) (xr 5) = some 1 := by decide +kernel

theorem witness_EnginesLaunch_capture :
    (barAddr (barS 7 1 1 2 1 0 (2 ^ 36) 4) ((barS 7 1 1 2 1 0 (2 ^ 36) 4).hart 0) (BitVec.ofNat 64 (2 ^ 36)) .barWrite (.read 32)).toOption =
      some 0x3_0000 := by decide +kernel

/-! ## Kernels launched, groups, exits -/

/-- Queue 4 of context 1, device-fed, with `wr` records in a ring of 4; x6 = the record's address, x7 = 4. -/
def ringS (wr : Nat) : State :=
  let s := regs [(6, 0x2_0000), (7, 4)] base
  s.setCtx 1 { s.ctxs.getD 1 { desc := 0 } with
    queues := [(4, { state := .active, feed := true, desc := 0x6_0000, ring := 0x7_0000, size := 4, wr := wr })] }
theorem witness_Klaunch : let s := ringS 1
    s.cur = some (.hart 0) ∧ s.ctxOf (s.hart 0) = 1 ∧ ((s.hart 0).rd 6).toNat % 64 = 0 ∧
      (hartLoads s (s.hart 0) ((s.hart 0).rd 6) 32).toOption.map (·.2) = some (List.replicate 256 0) ∧
      (match (s.ctxs.getD 1 { desc := 0 }).queues.get? 4 with
        | some q => q.state != .disabled && q.feed && decide (q.held ≠ q.size - 1) | none => false) = true := by decide +kernel
theorem witness_Klaunch_full : (match ((ringS 3).ctxs.getD 1 { desc := 0 }).queues.get? 4 with
    | some q => decide (q.held = q.size - 1) | none => false) = true := by decide +kernel
theorem test_klaunch : got (exec (.klaunch 5 6 7) (ringS 1)) (xr 5) = some (2 * 2 ^ 16 + 0x4004) := by decide +kernel
theorem test_klaunch_full : got (exec (.klaunch 5 6 7) (ringS 3)) (fun t => ((t.hart 0).s.tcause, (t.hart 0).s.tval)) =
    some (26, 4) := by decide +kernel

/-- A group of `n` harts on core 0, hart 0 having arrived at barrier 2 of scope 1 or not. -/
def groupS (n count : Nat) (phase : Bool) (arrived : Option Bool) : State :=
  let s := base.modHart 0 fun h => { h with arrived := match arrived with | some p => [(34, p)] | none => [] }
  let g := (s.hart 0).group
  s.setGroup g { s.groups.getD g { kernel := 0, tile := 0 } with
    members := (List.range n).map (fun i => (i, { at_ := .place i })), bars := [(34, ⟨count, phase⟩)] }
theorem witness_GroupSync : let s := groupS 2 1 false none
    (match s.groupOf (s.hart 0) with
    | some (g, kk) => decide (s.cur = some (.hart 0) ∧ isSeqPlace 0 = false ∧ (s.hart 0).arrived.get? 34 = none ∧
        (gbarGet g kk (gbarKey 1 2 0 0)).count + 1 = gbarParties s (s.hart 0).group g kk 1 0 0)
    | none => false) = true := by decide +kernel
theorem witness_GroupSync_waits : let s := groupS 2 0 false none
    (match s.groupOf (s.hart 0) with
    | some (g, kk) => decide ((gbarGet g kk (gbarKey 1 2 0 0)).count + 1 ≠ gbarParties s (s.hart 0).group g kk 1 0 0)
    | none => false) = true := by decide +kernel
theorem witness_GroupSync_goes : let s := groupS 2 0 true (some false)
    (match s.groupOf (s.hart 0) with
    | some (g, kk) => decide ((s.hart 0).arrived.get? 34 = some false ∧ (gbarGet g kk (gbarKey 1 2 0 0)).phase = true)
    | none => false) = true := by decide +kernel
theorem test_gsync_last : got (exec (.gsync 2 1) (groupS 2 1 false none)) (fun t => (t.hart 0).pc) = some 0x1_0008 := by
  decide +kernel
theorem test_gsync_waits : got (exec (.gsync 2 1) (groupS 2 0 false none)) (fun t => (t.hart 0).life) = some .waiting := by
  decide +kernel
/-- A sequencer at hart place 8 whose word is on the array. -/
def seqJobS : State :=
  let s := groupS 2 0 false none
  (s.setCore 0 { s.core 0 with job := some ⟨none, false⟩ }).setHart 8 { s.hart 0 with group := 1 }
theorem witness_Gexit : let s := groupS 2 0 false none
    s.cur = some (.hart 0) ∧ (s.groups.get? (s.hart 0).group).isSome = true ∧ isSeqPlace 0 = false ∧
      (s.hart 0).busyRegs = false ∧ boundInFlight s 0 = false ∧ (seqJobS.hart 8).group = 1 ∧
      (seqJobS.core (8 / 9)).job.isSome = true := by decide +kernel
theorem test_gexit : got (exec .gexit (groupS 2 0 false none)) (fun t => ((t.groups.getD (base.hart 0).group
    { kernel := 0, tile := 0 }).members.getD 0 {}).at_) = some .retired := by decide +kernel

/-! ## Vector slots -/

/-- A hart in a convoy of the slot `i`, with x9 = vl and x[r] = v for the others given. -/
def vecS (i : Instr) (l : List (Nat × Nat)) : State :=
  (regs l base).modHart 0 fun h => { h with slots := [i], nextPc := 0x1_0010 }
/-- A vector word of type t on v1, v2, v3 with xl x9. -/
def vw (t : BitVec 5) : VWord := ⟨1, 2, 3, 0, 9, false, 0, false, t, 0, 0, 0⟩
/-- Of v1 and v2 only, and of v1 only. -/
def vw1 (t : BitVec 5) : VWord := { vw t with vs2 := 0 }
def vw0 (t : BitVec 5) : VWord := { vw t with vs1 := 0, vs2 := 0 }

/-- What the statements on slots assume of a state, for a word, the bound on vl and the source registers. -/
def ready (s : State) (mk : VWord → Instr) (w : VWord) (whole : Bool) (bound : Nat) (srcs : List Reg) : Bool :=
  let h := s.hart 0
  let u := resolveTy h w
  decide (s.cur = some (.hart 0)) && decide (h.vstate ≠ .off) && decide (u.ty ≠ 31) && slotLegal (mk u) &&
    (!whole || decide (h.elem = 0)) && decide (h.cut = none) && decide (h.vgrant ≤ 16384) &&
    decide ((h.rd u.xl).toNat ≤ bound) && (!Ty.isBfp u.ty.toNat || decide ((h.rd u.xl).toNat % 32 = 0)) &&
    srcs.all fun r => h.full.getLsbD r.toNat && decide (h.failed.get? r.toNat = none)
theorem ready_spec {s : State} {mk : VWord → Instr} {w : VWord} {whole : Bool} {bound : Nat} {srcs : List Reg}
    (h : ready s mk w whole bound srcs = true) : s.SlotReady 0 mk w whole ∧
      (s.hart 0).VlReady (resolveTy (s.hart 0) w) bound ∧ ∀ r ∈ srcs, (s.hart 0).RegReady r := by
  simp only [ready, Bool.and_eq_true, Bool.or_eq_true, decide_eq_true_eq, Bool.not_eq_true', List.all_eq_true] at h
  obtain ⟨⟨⟨⟨⟨⟨⟨⟨⟨h1, h2⟩, h3⟩, h4⟩, h5⟩, h6⟩, h7⟩, h8⟩, h9⟩, h10⟩ := h
  exact ⟨⟨h1, h2, h3, h4, fun e => by simp_all, h6, h7⟩, ⟨h8, fun e => by simp_all⟩, fun r hr => h10 r hr⟩

/-- The words for the integer instructions, in the order of `integerElementOps`. -/
def intWords : List (VWord → Instr) :=
  [.vadd, .vsub, .vmul, .vmulh, .vmin, .vmax, .vabsd, .vsadd, .vssub, .vand, .vor, .vxor, .vsll, .vsrl, .vsra]
theorem witness_IntegerVectorElements : ∀ mk ∈ intWords,
    ready (vecS (mk (vw 0)) [(9, 8)]) mk (vw 0) false (vlmax 1024 0 8) [1, 2, 3] = true ∧
      (((vecS (mk (vw 0)) [(9, 8)]).hart 0).rd 9).toNat ≠ 0 ∧ (((vecS (mk (vw 0)) []).hart 0).rd 9).toNat = 0 := by
  decide +kernel
theorem witness_IntegerVectorElements_widening : (∀ mk ∈ [Instr.vwadd, .vwmul],
    ready (vecS (mk (vw 0)) [(9, 8)]) mk (vw 0) false (vlmax 1024 0 16) [1, 2, 3] = true) ∧
    ready (vecS (.vidx (vw0 0)) [(9, 8)]) .vidx (vw0 0) false (vlmax 1024 0 8) [1] = true ∧
    ready (vecS (.vnarrow (vw1 1)) [(9, 8)]) .vnarrow (vw1 1) false (vlmax 1024 1 16) [1, 2] = true := by
  decide +kernel
theorem witness_FloatVectorElements :
    (∀ mk ∈ [Instr.vfadd, .vfsub, .vfmul, .vfdiv, .vfmin, .vfmax, .vfma, .vfms, .vfnma],
      ready (vecS (mk (vw 9)) [(9, 8)]) mk (vw 9) false (vlmax 1024 9 32) [1, 2, 3] = true) ∧
    (∀ mk ∈ [Instr.vfsqrt, .vfrece, .vfrsqe],
      ready (vecS (mk (vw1 9)) [(9, 8)]) mk (vw1 9) false (vlmax 1024 9 32) [1, 2] = true) := by
  decide +kernel

/-- Element `e` of `n` bits of v1 after a step. -/
def ve (n e : Nat) (t : State) : Nat := elemAt ((t.hart 0).vreg 1) n e
/-- A hart with v2 and v3 as given, p2 = 5, and x9 = 4. -/
def dataS (i : Instr) (a b : Nat) (l : List (Nat × Nat)) : State :=
  (vecS i ((9, 4) :: l)).modHart 0 fun h =>
    { h with v := (h.v.set 2 (BitVec.ofNat 16384 a)).set 3 (BitVec.ofNat 16384 b), p := h.p.set 2 5 }
/-- `vw` under p2, merging or zeroing. -/
def vwm (t : BitVec 5) (z : Bool) : VWord := { vw t with me := true, mp := 2, pol := z }

theorem test_vadd_masked : got (exec (.vadd (vwm 0 true)) (dataS (.vadd (vwm 0 true)) 0x04030201 0xFF101010 []))
    (fun t => (List.range 4).map (ve 8 · t)) = some [0x11, 0, 0x13, 0] := by decide +kernel
theorem test_vsadd_saturates : got (exec (.vsadd (vw 0)) (dataS (.vsadd (vw 0)) 0x80FF7F01 0x80017F01 []))
    (fun t => (List.range 4).map (ve 8 · t)) = some [2, 0x7F, 0, 0x80] := by decide +kernel
/-- 1.0 + 2.0 and -1.0 + 1.0 in FP32. -/
theorem test_vfadd : got (exec (.vfadd (vw 9)) (dataS (.vfadd (vw 9)) 0xBF800000_3F800000 0x3F800000_40000000 []))
    (fun t => (ve 32 0 t, ve 32 1 t)) = some (0x40400000, 0) := by decide +kernel
/-- 05, the example of VFRECE: 1/3 rounded to 8 bits. -/
theorem test_vfrece : got (exec (.vfrece (vw1 9)) (dataS (.vfrece (vw1 9)) 0x40400000_40400000_40400000_40400000 0 []))
    (ve 32 0) = some 0x3EAB0000 := by decide +kernel
theorem test_vidx : got (exec (.vidx { vw0 0 with vs3 := 4 }) (dataS (.vidx { vw0 0 with vs3 := 4 }) 0 0 [(4, 254)]))
    (fun t => (List.range 4).map (ve 8 · t)) = some [254, 255, 0, 1] := by decide +kernel

/-! ### Merges, conversions, predicates -/

theorem witness_MergesMovesAndConversions :
    ready (dataS (.vmerge (vwm 0 false)) 0 0 []) .vmerge (vwm 0 false) false (vlmax 1024 0 8) [1, 2, 3] = true ∧
    ready (dataS (.vmovx (vw0 0)) 0 0 []) .vmovx (vw0 0) false (vlmax 1024 0 8) [1] = true ∧
    (vw0 0).imm.getLsbD 0 = false ∧
    ready (dataS (.vmovx { vw1 0 with imm := 1 }) 0 0 []) .vmovx { vw1 0 with imm := 1 } true (vlmax 1024 0 8) [2] = true ∧
    ready (dataS (.vfcvt { vw1 8 with imm := 9 }) 0 0 []) .vfcvt { vw1 8 with imm := 9 } false (cvtBound 1024 8 9) [1, 2] = true ∧
    ready (vecS (.vfcvt { vw1 22 with imm := 9 }) [(9, 32)]) .vfcvt { vw1 22 with imm := 9 } false (cvtBound 1024 22 9) [1, 2] = true := by
  decide +kernel
theorem test_vmerge : got (exec (.vmerge (vwm 0 false)) (dataS (.vmerge (vwm 0 false)) 0x04030201 0x14131211 []))
    (fun t => (List.range 4).map (ve 8 · t)) = some [0x11, 2, 0x13, 4] := by decide +kernel
/-- 02, the example of R47: FP32 0x3E99_999A converted to BF16 under RNE. -/
theorem test_vfcvt : got (exec (.vfcvt { vw1 8 with imm := 9 }) (dataS (.vfcvt { vw1 8 with imm := 9 }) 0x3E99999A 0 []))
    (ve 16 0) = some 0x3E9A := by decide +kernel
theorem witness_PredicateResults :
    (∀ mk ∈ [Instr.vcmp], ready (dataS (mk (vw 0)) 0 0 []) mk (vw 0) false (vlmax 1024 0 8) [2, 3] = true) ∧
    ready (dataS (.vfcmp (vw 9)) 0 0 []) .vfcmp (vw 9) false (vlmax 1024 9 32) [2, 3] = true ∧
    (∀ mk ∈ [Instr.pand, .por, .pxor, .pandn], ready (dataS (mk (vw 0)) 0 0 []) mk (vw 0) false (vlmax 1024 0 8) [] = true) ∧
    ready (dataS (.pset (vw0 0)) 0 0 []) .pset (vw0 0) false (vlmax 1024 0 8) [] = true ∧
    (∀ mk ∈ [Instr.pcnt, .pfirst], ready (dataS (mk (vw1 0)) 0 0 []) mk (vw1 0) true (vlmax 1024 0 8) [] = true) ∧
    ((vecS (.pand (vw 0)) []).hart 0).rd 9 = 0 := by
  decide +kernel
theorem test_vcmp_lt : got (exec (.vcmp { vw 0 with imm := 4 }) (dataS (.vcmp { vw 0 with imm := 4 }) 0x01FF0201 0x01010101 []))
    (fun t => ((t.hart 0).p[1]).toNat % 16) = some 4 := by decide +kernel
theorem test_pcnt : got (exec (.pcnt (vw1 0)) (dataS (.pcnt (vw1 0)) 0 0 [])) (xr 1) = some 2 := by decide +kernel

/-! ### Permutes, reductions, queues -/

theorem witness_PermutesMoveElements :
    (∀ mk ∈ [Instr.vperm, .vzip, .vunzip], ready (dataS (mk (vw 0)) 0 0 []) mk (vw 0) true (vlmax 1024 0 8) [1, 2, 3] = true) ∧
    (∀ mk ∈ [Instr.vslideup, .vslidedn, .vbcaste], ready (dataS (mk (vw1 0)) 0 0 []) mk (vw1 0) true (vlmax 1024 0 8) [1, 2] = true) ∧
    (∀ mk ∈ [Instr.vcompress, .vexpand], ready (dataS (mk { vwm 0 false with vs2 := 0 }) 0 0 []) mk { vwm 0 false with vs2 := 0 }
      true (vlmax 1024 0 8) [1, 2] = true) ∧
    (∀ mk ∈ [Instr.vslideup, .vslidedn, .vbcaste], ready (vecS (mk (vw1 22)) [(9, 32)]) mk (vw1 22) true (vlmax 1024 22 8) [1, 2] = true) := by
  decide +kernel
theorem test_vslideup : got (exec (.vslideup { vw1 0 with vs3 := 4 }) (dataS (.vslideup { vw1 0 with vs3 := 4 }) 0x04030201 0 [(4, 1)]))
    (fun t => (List.range 4).map (ve 8 · t)) = some [0, 1, 2, 3] := by decide +kernel
theorem test_vcompress : got (exec (.vcompress { vwm 0 true with vs2 := 0 })
    (dataS (.vcompress { vwm 0 true with vs2 := 0 }) 0x04030201 0 [])) (fun t => (List.range 4).map (ve 8 · t)) =
    some [1, 3, 0, 0] := by decide +kernel
theorem witness_ReductionsReplaceElementZero :
    (∀ mk ∈ [Instr.vredsum, .vredmax, .vredmin], ready (dataS (mk (vw 0)) 0 0 []) mk (vw 0) true (vlmax 1024 0 8) [1, 2, 3] = true) ∧
    ready (dataS (.vfredsum (vw 9)) 0 0 []) .vfredsum (vw 9) true (vlmax 1024 9 32) [1, 2, 3] = true := by
  decide +kernel
theorem test_vredmin : got (exec (.vredmin (vw 0)) (dataS (.vredmin (vw 0)) 0x04FF0201 0x03 [])) (ve 8 0) = some 0xFF := by
  decide +kernel
theorem witness_QueueInstructionsCarry :
    (∀ mk ∈ [Instr.vxqadd, .vxqmax], ready (dataS (mk (vw1 0)) 0 0 []) mk (vw1 0) false (vlmax 1024 0 8) [1, 2] = true) ∧
    ready (dataS (.vxqfma (vw 9)) 0 0 []) .vxqfma (vw 9) false (vlmax 1024 9 32) [1, 2, 3] = true ∧
    ((dataS (.vxqadd (vw1 0)) 0 0 []).hart 0).elem.toNat < (((dataS (.vxqadd (vw1 0)) 0 0 []).hart 0).rd 9).toNat := by
  decide +kernel
theorem test_vxqadd : got (exec (.vxqadd { vw1 0 with imm := 1 }) (dataS (.vxqadd { vw1 0 with imm := 1 }) 0x04030201 0 []))
    (fun t => ((List.range 4).map (ve 8 · t), (t.hart 0).vxqc)) = some ([1, 3, 6, 10], 10) := by decide +kernel

/-! ### Accumulators, streams, memory -/

/-- Stream register st1 bound, with four elements. -/
def strS (i : Instr) : State := (dataS i 0 0 []).modHart 0 fun h =>
  { h with st := h.st.set 1 { state := .bound, handle := 2, num := 1, fmt := 2, elems := [10, 20, 30, 40, 50] } }
def srdW : VWord := { vw 2 with vs1 := 1, vs2 := 0 }
theorem witness_AccumulatorAndStreamSlots :
    ready (dataS (.vzera { vw0 9 with vd := 0 }) 0 0 []) .vzera { vw0 9 with vd := 0 } false 4096 [] = true ∧
    ready (dataS (.vinsa { vw1 9 with vd := 0 }) 0 0 []) .vinsa { vw1 9 with vd := 0 } false (vlmax 1024 9 32) [2] = true ∧
    ready (dataS (.vexta (vw0 9)) 0 0 []) .vexta (vw0 9) false (vlmax 1024 9 32) [1] = true ∧
    ready (vecS (.vexta (vw0 22)) [(9, 32)]) .vexta (vw0 22) false (vlmax 1024 22 8) [1] = true ∧
    (base.core 0).queue 0 = [] ∧ (base.core 0).accBusy 0 = false ∧
    ready (strS (.srd srdW)) .srd srdW false (vlmax 1024 2 32) [1] = true ∧
    (((strS (.srd srdW)).hart 0).strm 1).state = .bound ∧ strmWidth 2 = strmWidth (((strS (.srd srdW)).hart 0).strm 1).fmt.toNat ∧
    4 - 0 ≤ (((strS (.srd srdW)).hart 0).strm 1).elems.length ∧
    ready (strS (.srstat { srdW with ty := 0, xl := 0 })) .srstat { srdW with ty := 0, xl := 0 } false 0 [] = true := by
  decide +kernel
theorem witness_AccumulatorAndStreamSlots_waits : ∀ mk ∈ [Instr.vzera { vw0 9 with vd := 0 }, .vexta (vw0 9)],
    let s := dataS mk 0 0 []
    let c := (s.setCore 0 ((s.core 0).putQueue 0 [3])).core 0
    (c.queue 0).contains 0 = false ∧ (c.queue 0 ++ [0]).head? ≠ some 0 ∧ 0 + 4 ≤ 4096 := by decide +kernel
/-- Stream register st1 as `r`, at an SRD of eight words. -/
def srdS (r : StreamReg) (l : List StreamRead) : State := (vecS (.srd srdW) [(9, 8)]).modHart 0 fun h =>
  { h with st := h.st.set 1 r, reads := l }
def boundTo (st : StrmState) (fmt : BitVec 5) : StreamReg := { state := st, handle := 2, num := 1, fmt := fmt, elems := [10, 20] }
theorem witness_AccumulatorAndStreamSlots_srd :
    (∀ r ∈ [boundTo .faulted 2, boundTo .bound 1, boundTo .bound 2, boundTo .ended 2], ∀ l ∈ [[], [flying]],
      ready (srdS r l) .srd srdW false (vlmax 1024 2 32) [1] = true ∧ ((srdS r l).hart 0).strm 1 = r ∧
        ((srdS r l).hart 0).reads = l ∧ ((srdS r l).hart 0).readsHeld = false) ∧
    strmWidth 2 ≠ strmWidth 1 ∧ min (unitsOf 2 8 - 0) (boundTo .bound 2).elems.length = 2 := by decide +kernel
theorem test_srd_pending : got (exec (.srd srdW) (srdS (boundTo .bound 2) [])) (fun t => let h := t.hart 0
    (h.full.getLsbD 1, (List.range 3).map (ve 32 · t), h.reads.map fun r => (r.vd, r.done))) =
    some (false, [10, 20, 0], [(1, 2)]) := by decide +kernel
theorem test_srd_ended : got (exec (.srd srdW) (srdS (boundTo .ended 2) [])) (fun t => let h := t.hart 0
    (h.full.getLsbD 1, (List.range 3).map (ve 32 · t), h.ffi, (h.strm 1).state)) =
    some (true, [10, 20, 0], 2, .unbound) := by decide +kernel
theorem test_vinsa_vexta : got (exec (.vinsa { vw1 9 with vd := 0, vs3 := 4 })
    (dataS (.vinsa { vw1 9 with vd := 0, vs3 := 4 }) 0x40000000_3F800000 0 [(4, 4092)]))
    (fun t => getField ((t.core 0).accAt 0) (32 * 4093) 32) = some 0x40000000 := by decide +kernel
theorem test_srd : got (exec (.srd srdW) (strS (.srd srdW))) (fun t =>
    ((List.range 4).map (ve 32 · t), ((t.hart 0).strm 1).elems, (t.hart 0).ffi)) = some ([10, 20, 30, 40], [50], 4) := by
  decide +kernel
theorem test_srstat : got (exec (.srstat { srdW with ty := 0, xl := 0 }) (strS (.srstat { srdW with ty := 0, xl := 0 })))
    (xr 1) = some (1 + 2 * 2 ^ 16 + 5 * 2 ^ 32) := by decide +kernel

/-- A hart with x2 = 0x2_0000, where four words of 1 to 4 lie. -/
def vmS (i : Instr) : State := [(0, 1), (4, 2), (8, 3), (12, 4)].foldl (fun s p => poke (0x2_0000 + p.1) 4 p.2 s)
  (dataS i 0 0 [(2, 0x2_0000), (4, 8)])
def strided : VWord := { vw1 2 with vs3 := 4, xl := 8 }
theorem witness_VectorLoadsAndStoresComplete :
    (∀ mk ∈ [Instr.vld, .vst, .vldff], ready (vmS (mk (vw1 2))) mk (vw1 2) false (vlmax 1024 2 32) [1] = true ∧
      (runUnits (loadUnit (vw1 2) none true) (List.range' 0 4) ⟨vmS (mk (vw1 2)), (vmS (mk (vw1 2))).hart 0, []⟩).2.isNone = true ∧
      (runUnits (storeUnit (vw1 2) none) (List.range' 0 4) ⟨vmS (mk (vw1 2)), (vmS (mk (vw1 2))).hart 0, []⟩).2.isNone = true) ∧
    (∀ mk ∈ [Instr.vlds, .vsts], ready (vmS (mk { vw1 2 with vs3 := 4 })) mk { vw1 2 with vs3 := 4 } false (vlmax 1024 2 32) [1] = true) ∧
    (∀ mk ∈ [Instr.vldx, .vstx], ready (vmS (mk (vw 2))) mk (vw 2) false (vlmax 1024 2 32) [1, 3] = true) := by
  decide +kernel
/-- Each unit's bytes lie at one place, can be corrected and are aligned; the fifth word of a longer load is not mapped. -/
theorem witness_VectorLoadsAndStoresComplete_spans : ∀ mk ∈ [Instr.vld, .vst, .vldff], let s := vmS (mk (vw1 2))
    let h := s.hart 0
    ∀ j < 4, let u := unitSpan h (vw1 2) none j
      misaligned 2 u.1 = false ∧
      (span s h .load j u.1 u.2.1).toOption = some [(⟨0x2_0000 + 4 * j, 0, false, false⟩, 4)] ∧
      (span s h .store j u.1 u.2.1).toOption = some [(⟨0x2_0000 + 4 * j, 0, false, false⟩, 4)] ∧
      spanBad s [(⟨0x2_0000 + 4 * j, 0, false, false⟩, 4)] = false := by decide +kernel
/-- The word at 0x2_0008 cannot be corrected, and ends a VLDFF. -/
theorem witness_VectorLoadsAndStoresComplete_first : let s := { vmS (.vldff (vw1 2)) with bad := [unitOf (homeKey base 0x2_0000)] }
    spanBad s [(⟨0x2_0000 + 4 * 2, 0, false, false⟩, 4)] = true := by decide +kernel
theorem witness_VectorLoadsAndStoresComplete_gather : ∀ k ∈ [Acc.load, .store],
    (passing (vmS (.vldx (vw 2))) ((vmS (.vldx (vw 2))).hart 0) (vw 2) k (List.range' 0 4)).2.isNone = true := by decide +kernel
theorem witness_UnitStrideLoadReadsConsecutiveElements : let s := vmS (.vld (vw1 2))
    s.host.acen = false ∧ Ty.isWhole 2 = true ∧ bitsAt (vw1 2).imm.toNat 4 12 = 0 ∧ (s.hart 0).elem = 0 ∧
    ∀ e < 4, (hartAddr s (s.hart 0) (BitVec.ofNat 64 (0x2_0000 + 4 * e)) 4 .load e).toOption =
        some ⟨0x2_0000 + 4 * e, 0, false, false⟩ ∧ uncorrectable s (0x2_0000 + 4 * e) 4 = false := by decide +kernel
theorem test_vld : got (exec (.vld (vw1 2)) (vmS (.vld (vw1 2)))) (fun t => (List.range 5).map (ve 32 · t)) =
    some [1, 2, 3, 4, 0] := by decide +kernel
theorem test_vldx : got (exec (.vldx (vw 2)) (vmS (.vldx (vw 2)))) (fun t => (t.hart 0).full.getLsbD 1) = some false := by
  decide +kernel

theorem witness_SlotTrapsInOrder : ((vecS (.vadd (vw 0)) [(9, 129)]).modHart 0 fun h => { h with vstate := .off }).cur =
      some (.hart 0) ∧ ready (vecS (.vadd (vw 0)) [(9, 129)]) .vadd (vw 0) false 129 [] = true ∧
      vlmax 1024 0 8 < (((vecS (.vadd (vw 0)) [(9, 129)]).hart 0).rd 9).toNat := by
  decide +kernel
theorem test_vl_range : got (exec (.vadd (vw 0)) (vecS (.vadd (vw 0)) [(9, 129)])) (fun t => ((t.hart 0).s.tcause, (t.hart 0).s.tval)) =
    some (9, 129) := by decide +kernel

/-! ## Matrix words -/

/-- Hart 8, the sequencer of core 0, at its turn with registers x[r] = v. -/
def seqS (l : List (Nat × Nat)) : State :=
  { base with
    cur := some (.hart 8),
    groups := [(1, { kernel := 2, tile := 0, state := .running, cores := [0], members := [(0, { at_ := .place 0 }), (8, { at_ := .place 8 })] })],
    harts := [(8, l.foldl (fun h p => h.wr (BitVec.ofNat 5 p.1) (BitVec.ofNat 64 p.2))
      { life := .issuing, group := 1, pc := 0x1_0004, vgrant := 1024, mqrmax := 8, nextPc := 0x1_0010 })] }
/-- A matrix word of m1, m2, m3, a0, x6 and x7 in the formats `ta` and `tb`. -/
def mw (ta tb : BitVec 5) (imm : BitVec 16) : MWord := ⟨0, 1, 2, 3, 6, 7, ta, tb, 0, false, 0, imm⟩
/-- `s` with the core of hart 8 changed by `f`. -/
def coreS (f : Core → Core) (s : State) : State := s.setCore 0 (f (s.core 0))
/-- A header at offset `off` of the scratchpad of core 0. -/
def hdrS (off fmt rows cols : Nat) (s : State) : State := spadWrite s 0 off (headerBytes fmt 0 rows cols 0x2000 0)

theorem clean_of_bad {s : State} (h : s.bad = []) (a n : Nat) (ha : a + n ≤ 2 ^ 50) :
    ∀ i < n, uncorrectable s (a + i) 1 = false := by
  intro i hi
  have hp : decide (2 ^ 50 ≤ a + i) = false := decide_eq_false (by omega)
  rw [uncorrectable, h, hp]
  rfl

theorem witness_AccumulatorMatrixWords_turn : (seqS []).HartTurn 8 ∧ ((seqS []).core 0).job = none ∧
    ((seqS []).core 0).queue 0 = [] := by unfold State.HartTurn; decide +kernel
theorem witness_AccumulatorMatrixWords_busy : let s := coreS (fun c => { c with job := some ⟨none, false⟩ }) (seqS [])
    s.HartTurn 8 ∧ (s.core 0).job.isSome = true := by unfold State.HartTurn; decide +kernel
theorem witness_AccumulatorMatrixWords_behind : let s := coreS (fun c => c.putQueue 0 [17, 8]) (seqS [])
    s.HartTurn 8 ∧ (s.core 0).job = none ∧ (s.core 0).queue 0 ≠ [] ∧ ((s.core 0).queue 0).head? ≠ some 8 := by
  unfold State.HartTurn; decide +kernel
/-- Operands A at 0 and B at 0x8000, BF16 of 64 rows. -/
def mmaS : State := hdrS 0 8 64 (mmaK 8) (hdrS 0x8000 8 64 (mmaK 8) (seqS [(7, 0x8000)]))
theorem witness_AccumulatorMatrixWords_mma : let s := mmaS
    let h := s.hart 8
    s.HartTurn 8 ∧ (s.core 0).job = none ∧ (s.core 0).queue 0 = [] ∧ (h.rd 6).toNat = 0 ∧ (h.rd 7).toNat = 0x8000 ∧
      0x8000 + 16 + 64 * opRowBytes 8 ≤ 0x8_0000 := by unfold State.HartTurn; decide +kernel
theorem witness_AccumulatorMatrixWords_clean : ∀ i < 16 + 64 * opRowBytes 8,
    uncorrectable mmaS (coreBase 0 + 0x8000 + i) 1 = false := clean_of_bad (by decide +kernel) _ _ (by decide +kernel)
theorem witness_AccumulatorMatrixWords_headers :
    readHeader mmaS 0 0 = .ok ⟨8, 0, 64, mmaK 8⟩ ∧ readHeader mmaS 0 0x8000 = .ok ⟨8, 0, 64, mmaK 8⟩ :=
  ⟨ok_of (by decide +kernel), ok_of (by decide +kernel)⟩
theorem witness_AccumulatorMatrixWords_completes :
    let s := coreS (fun c => { c with job := some ⟨some (1, 7), true⟩ }) (seqS [])
    (s.core 0).job = some ⟨some (1, 7), true⟩ := by decide +kernel
/-- A core whose order of accumulator 1 is headed by hart 3, STALLED. -/
def handoffS : State := (coreS (fun c => c.putQueue 1 [3]) (seqS [])).modHart 3 fun h => { h with life := .stalled }
theorem witness_AccumulatorMatrixWords_handoff : ((handoffS.core 0).queue 1).head? = some 3 ∧
    (handoffS.core 0).accBusy 1 = false ∧ (handoffS.hart 3).life = .stalled := by decide +kernel
theorem test_matrixWordComplete : got (exec (.matrixWordComplete 0)
    (coreS (fun c => { c with job := some ⟨some (1, 7), true⟩ }) (seqS []))) (fun t =>
      ((t.core 0).job, (t.core 0).accAt 1, (t.hart 8).finMark)) = some (none, 7, 1) := by decide +kernel
theorem test_mzero : got (exec (.mzero (mw 9 9 0x8000)) (seqS [])) (fun t =>
    ((t.core 0).job, (t.hart 8).pc)) = some (some ⟨some (0, 0), true⟩, 0x1_0010) := by decide +kernel

/-- The header of a tile of format 9 at 0. -/
def tileS : State := hdrS 0 9 64 64 (seqS [(7, 5 + 6 * 2 ^ 16)])
theorem witness_TileMatrixWords : tileS.HartTurn 8 ∧ (tileS.core 0).job = none ∧ ((tileS.hart 8).rd 6).toNat = 0 ∧
    ((tileS.hart 8).rd 7).toNat < 2 ^ 32 ∧ tileS.variant.hasMaquette = true ∧ tileS.bad = [] := by
  unfold State.HartTurn; decide +kernel
theorem witness_TileMatrixWords_header : readHeader tileS 0 0 = .ok ⟨9, 0, 64, 64⟩ := ok_of (by decide +kernel)
theorem witness_TileMatrixWords_clean : ∀ i < 16 + 512 * Ty.width 9,
    uncorrectable tileS (coreBase 0 + ((tileS.hart 8).rd 6).toNat + i) 1 = false :=
  clean_of_bad (by decide +kernel) _ _ (by decide +kernel)
theorem witness_TileMatrixWords_absent : ({ tileS with variant := .nx4m } : State).variant.hasMaquette = false := by
  decide +kernel
/-- The header of a maquette of rank `r` at 0. -/
def maqS (r : Nat) : State := hdrS 0 9 128 r (seqS [])
theorem witness_TileMatrixWords_maquette :
    readHeader (maqS 8) 0 0 = .ok ⟨9, 0, 128, 8⟩ ∧ 8 ≤ ((maqS 8).hart 8).mqrmax.toNat ∧
      readHeader (maqS 9) 0 0 = .ok ⟨9, 0, 128, 9⟩ ∧ ((maqS 9).hart 8).mqrmax.toNat < 9 :=
  ⟨ok_of (by decide +kernel), by decide +kernel, ok_of (by decide +kernel), by decide +kernel⟩
/-- Tile registers m2 and m3. -/
def tilesS (a b : Tile) : State := coreS (fun c => { c with tile := (c.tile.set 2 a).set 3 b }) (seqS [])
/-- A maquette of rank `r` of the element `x`. -/
def maq (r : Nat) (x : BitVec 32) : Tile := .maquette r (List.replicate (64 * r) x) (List.replicate (64 * r) x)
theorem witness_TileMatrixWords_ranks : let s := tilesS (maq 3 0) (maq 5 0)
    let t := tilesS (maq 8 0) (maq 1 0)
    let c := s.core 0
    let d := t.core 0
    (c.tileAt 2).isDense = false ∧ (c.tileAt 3).isDense = false ∧ (c.tileAt 2).rank + (c.tileAt 3).rank = 8 ∧
      (s.hart 8).mqrmax.toNat = 8 ∧ (d.tileAt 2).rank + (d.tileAt 3).rank = 9 ∧ (d.tileAt 2).isDense = false := by
  decide +kernel
theorem witness_TileMatrixWords_product : let t := coreS (fun c => { c with tile := (c.tile.set 2 (maq 9 0)).set 3 (maq 10 0) }) (seqS [])
    (t.hart 8).mqrmax.toNat < min ((t.core 0).tileAt 2).rank ((t.core 0).tileAt 3).rank := by decide +kernel
theorem witness_TileMatrixWords_dense : let c := (tilesS (.dense32 1) (.dense32 2)).core 0
    c.tileAt 2 = .dense32 1 ∧ c.tileAt 3 = .dense32 2 ∧ ((tilesS (.dense16 1) .empty).core 0).tileAt 2 = .dense16 1 := by
  decide +kernel
theorem witness_TileMatrixWords_infinite :
    (match ((tilesS (maq 1 0x7F80_0000) .empty).core 0).tileAt 2 with
      | .maquette _ u v => (u ++ v).any fun b => (f32 b.toNat).isInf || (f32 b.toNat).isNaN | _ => false) = true ∧
    (match ((tilesS (maq 1 0x3F80_0000) .empty).core 0).tileAt 2 with
      | .maquette _ u v => (u ++ v).any fun b => (f32 b.toNat).isInf || (f32 b.toNat).isNaN | _ => true) = false := by
  decide +kernel
theorem test_mqrank : got (exec (.mqrank (mw 9 9 0)) (tilesS (maq 3 0) .empty)) (fun t => ((t.hart 8).rd 6).toNat) =
    some (3 + 2 * 2 ^ 6 + 2 * 2 ^ 9) := by decide +kernel
theorem test_mqadd_overflow : got (exec (.mqadd (mw 9 9 0)) (tilesS (maq 8 0) (maq 1 0))) (fun t =>
    let h := t.hart 8; (h.s.tcause, h.s.tval, h.s.tval2)) = some (15, 1, 9) := by decide +kernel
theorem test_mqfree : got (exec (.mqfree (mw 9 9 0)) (coreS (fun c => { c with tile := c.tile.set 1 (maq 3 0) }) (seqS []))) (fun t =>
    (t.core 0).freeGranules) = some 256 := by decide +kernel
theorem test_mthdr : got (exec (.mthdr (mw 9 9 0)) tileS) (fun t => (readHeader t 0 0).toOption) =
    some (some ⟨9, 0, 5, 6⟩) := by decide +kernel

/-! ## Bank words -/

/-- Stream 0 at its turn, with its banks by the mask `m`, rows 1 to 99 held and two plinth-buffer entries. -/
def bankS (m : BitVec 16) (f : Stream → Stream) (g : Bank → Bank) : State :=
  { base with
    cur := some (.stream 0), groups := [], harts := [],
    kernels := [(2, { placedKernel true 0 with
      streams := [0]
      record := BitVec.ofNat 2048 (1 + 2 ^ (8 * 0x80 + 8) * 2 +
        2 ^ (8 * 0xB8) * (2 ^ 11 + 2 ^ 12 + 99 * 2 ^ 24 + 0xFFFF * 2 ^ 36)) })],
    streams := [(0, f { state := .running, kernel := 2, bound := m, mask := m, code := [0, 0, 0] })],
    banks := (bankList m).map fun b => (b, g { owner := some 0, b := Vector.replicate 16 (BitVec.ofNat 64 b) }) }
def same {α : Type} (x : α) : α := x
/-- A bank whose slots are OPEN-CLEAN, activated at cycle 0, with `v` as their row. -/
def openB (v : Nat) (x : Bank) : Bank :=
  { x with slot := Vector.replicate 4 { state := .openClean, row := 5, bits := BitVec.ofNat 65536 v } }
/-- A word s0 = s1 op s2 in INT8, of b1 and b2. -/
def bw (imm : BitVec 31) : BWord := ⟨0, 1, 2, false, false, 0, 3, 1, 2, imm⟩

def noStep (s : State) (c : Nat) : Bool := s.banks.all fun p => decide (p.1 / 1024 = 0 → ∀ q ∈ p.2.plan, c < q.at_)
theorem noStep_spec {s : State} {c : Nat} (h : noStep s c = true) : s.NoStep 0 c := by
  intro p hp; exact of_decide_eq_true (List.all_eq_true.mp h p hp)
/-- `State.Due` of tower 0. -/
def dueOk (s : State) (d : Nat) : Bool :=
  noStep s (max (s.tower 0).now d) && (match nextDue s 0 with | some e => decide (d ≤ e) | none => true) &&
    s.streams.all fun p => decide (p.1 / 256 = 0 → p.2.stopping = false ∧ pressing s p.1 p.2 d = false)
theorem dueOk_spec {s : State} {d : Nat} (h : dueOk s d = true) : s.Due 0 d := by
  simp only [dueOk, Bool.and_eq_true] at h
  refine ⟨noStep_spec h.1.1, fun e he => ?_, fun p hp => of_decide_eq_true (List.all_eq_true.mp h.2 p hp)⟩
  simpa [he] using h.1.2
def wordTurn (s : State) (pr : Bool) : Bool :=
  let st := s.stream 0
  let c := streamNow s 0 st
  decide (s.cur = some (.stream 0)) && decide (st.checked = false) && decide (st.begun = 0) && decide (st.window = none) &&
    timeOk s 0 c && noneBefore s 0 c && noStep s c && (executing s 0 st pr).all fun b => (s.tower 0).isLive 0 b
theorem wordTurn_spec {s : State} {pr : Bool} (h : wordTurn s pr = true) : s.WordTurn 0 pr := by
  simp only [wordTurn, Bool.and_eq_true, decide_eq_true_eq, List.all_eq_true] at h
  obtain ⟨⟨⟨⟨⟨⟨⟨h1, h2⟩, h3⟩, h4⟩, h5⟩, h6⟩, h7⟩, h8⟩ := h
  exact ⟨h1, h2, h3, h4, h5, h6, noStep_spec h7, h8⟩
def lanesReady (s : State) (srcs : List Nat) (dest : List Nat) : Bool :=
  (executing s 0 (s.stream 0) false).all fun b => (s.bank b).lanesFree && (srcs ++ dest).all (fun n => (s.bank b).isOpen n) &&
    srcs.all fun n => decide (((s.bank b).slotAt n).bad = 0)

/-- Two banks with open slots. -/
def openS : State := bankS 3 same (openB 0x01FF)
theorem witness_RowArithmeticWords : wordTurn openS false = true ∧ lanesReady openS [1, 2, 0] [0] = true ∧
    (bw 0).tw ∣ 65536 ∧ Ty.width (bitsAt (bw 0).imm.toNat 0 5) = (bw 0).tw ∧ bitsAt (bw 0).imm.toNat 5 1 = 0 := by
  decide +kernel
/-- RCVT from INT8 and from BF16, in the low and the high half. -/
theorem witness_RowArithmeticWords_rcvt : ∀ f ∈ [(0, 8), (8, 16), (9, 32), (8 + 32, 16)],
    Ty.width (bitsAt (bw (BitVec.ofNat 31 f.1)).imm.toNat 0 5) = f.2 ∧ (bw 0).tw = 8 := by decide +kernel
theorem witness_AccumulatorRowWords : (bw 0).tw = 8 ∧ ((bw 0).imm.getLsbD 1 = false ∧ (bw 2).imm.getLsbD 1 = true) := by
  decide +kernel
/-- The slot that the row pass of bank 0 writes. -/
def passElem (n e : Nat) (t : State) : Option Nat :=
  match (t.bank 0).pass with
  | some ⟨_, _, .slot _ bits _, _⟩ => some (getField bits (n * e) n)
  | some ⟨_, _, .acc _ bits, _⟩ => some (getField bits (n * e) n)
  | _ => none
/-- 10 R278, R279: RCVT widens the elements of the half that H names. -/
theorem test_rcvt_high : got (exec (.rcvt { bw (0 + 32) with ty := 1 }) (bankS 1 same fun x =>
    openB 1 { x with slot := x.slot } |> fun x => x.putSlot 1 { x.slotAt 1 with bits := BitVec.ofNat 65536 (0x80 * 2 ^ 32768) }))
    (passElem 16 0) = some (some 0xFF80) := by decide +kernel
theorem test_radd : got (exec (.radd (bw 0)) openS) (fun t => (passElem 8 0 t, passElem 8 1 t)) = some (some 0xFE, some 2) := by
  decide +kernel
theorem test_qacc_sign : got (exec (.qacc (bw 0)) openS) (fun t => (passElem 32 0 t, passElem 32 1 t)) =
    some (some 0xFFFF_FFFF, some 1) := by decide +kernel

/-- One bank with slots as `g` makes them. -/
def slotS (g : Bank → Bank) : State := bankS 1 same g
theorem witness_SlotWords_closed : let s := slotS same
    wordTurn s false = true ∧ (s.bank 0).projected 0 = none ∧ actReady s 0 0 (streamNow s 0 (s.stream 0)) false = some 0 ∧
      actReady s 0 0 (streamNow s 0 (s.stream 0)) true = some 0 ∧ timeOk s 0 0 = true ∧
      rowTrap s (s.stream 0) 0 0 (actRow s 0 (s.stream 0) 0 (bw 7)) false = none ∧
      rowTrap s (s.stream 0) 0 0 7 true = none ∧ (s.bank 0).allClosed = true ∧ (s.bank 0).lanesFree = true := by
  decide +kernel
/-- At cycle 28, with slot 0 dirty or clean. -/
def dirtyS (d : Bool) : State :=
  { slotS (fun x => (openB 1 x).putSlot 0 { ((openB 1 x).slotAt 0) with state := if d then .openDirty else .openClean }) with
    towers := [(0, { now := 28 })] }
theorem witness_SlotWords_open : ∀ d : Bool, let s := dirtyS d
    wordTurn s false = true ∧ (s.bank 0).isOpen 0 = true ∧ (s.bank 0).passOn 0 = false ∧
      ((s.bank 0).slotAt 0).actAt + 28 ≤ streamNow s 0 (s.stream 0) ∧ (s.bank 0).projected 0 = some d ∧
      rowTrap s (s.stream 0) 0 0 ((s.bank 0).slotAt 0).row true = none := by decide +kernel
/-- Two banks, of which one has slot 0 CLOSED, open or dirty as a trap of PRE, WB or ACT asks. -/
theorem witness_SlotWords_traps :
    (let s := bankS 3 same same
     wordTurn s false = true ∧ (executing s 0 (s.stream 0) false).filter (fun b => (s.bank b).projected 0 == none) = [0, 1] ∧
       rowTrap s (s.stream 0) 0 0 (actRow s 0 (s.stream 0) 0 (bw 7)) false = none) ∧
    (let s := bankS 3 same fun x => (openB 1 x).putSlot 0 { (openB 1 x).slotAt 0 with state := .openDirty }
     wordTurn s false = true ∧ (bw 0).imm.getLsbD 0 = false ∧
       (executing s 0 (s.stream 0) false).filter (fun b => (s.bank b).projected 0 == some true) = [0, 1] ∧
       ∀ b < 2, rowTrap s (s.stream 0) b 0 7 false = none) := by decide +kernel
theorem test_act : got (exec (.act (bw 7)) (slotS same)) (fun t => let x := (t.bank 0).slotAt 0; (x.state, x.row, x.due)) =
    some (.opening, 7, 16) := by decide +kernel
theorem test_pre_dirty : got (exec (.pre (bw 0)) (dirtyS true)) (fun t => ((t.stream 0).btcause, (t.stream 0).state)) =
    some (0x1_0004, .faulted) := by decide +kernel
theorem test_pre : got (exec (.pre (bw 0)) (dirtyS false)) (fun t => let x := (t.bank 0).slotAt 0; (x.state, x.due)) =
    some (.precharging, 40) := by decide +kernel

/-- One bank with slots as `g` makes them, whose stream has found that its word must wait. -/
def heldS (g : Bank → Bank) : State := bankS 1 (fun st => { st with held := true }) g
/-- A bank with slot 0 in a passage that ends at cycle 9. -/
def dueS (st : SlotState) : State := heldS fun x => x.putSlot 0 { state := st, row := 5, bits := 9, due := 9 }
theorem witness_BankTimersComeAbout : ∀ st ∈ [SlotState.opening, .writing, .precharging], let s := dueS st
    ((s.bank 0).slotAt 0).state = st ∧ (s.bank 0).copying 0 = false ∧ dueOk s 9 = true := by decide +kernel
/-- A bank with a row pass, a refresh, an RCOPY, copies of the yield row, and a tower with a crossing. -/
def busyS (g : Bank → Bank) : State :=
  { heldS g with towers := [(0, { crossing := [⟨1, 0, 3⟩], acts := [(0, [1])] })] }
theorem witness_BankTimersComeAbout_pass : ∀ p ∈ [PassTarget.slot 0 5 0, .acc true 5, .nothing],
    let s := busyS fun x => { x with pass := some ⟨9, [0], p, false⟩ }
    (s.bank 0).pass = some ⟨9, [0], p, false⟩ ∧ dueOk s 9 = true := by decide +kernel
theorem witness_BankTimersComeAbout_rcopy : let s := busyS fun x => { x with rcopy := [⟨0, 5, 6, 1, 0, 0⟩] }
    (s.bank 0).rcopy.find? (fun r => r.slot == 0) = some ⟨0, 5, 6, 1, 0, 0⟩ ∧ dueOk s 56 = true := by decide +kernel
theorem witness_BankTimersComeAbout_refb : let s := busyS fun x => { x with refb := some 9 }
    (s.bank 0).refb = some 9 ∧ dueOk s 9 = true ∧ (s.bank 0).reopen.getD [] = [] ∧ (s.bank 0).owner ≠ none := by
  decide +kernel
/-- A forced refresh that goes on, of a bank that no stream holds any more, and a transparent one. -/
theorem witness_BankTimersComeAbout_refreshes :
    (let s := busyS fun x => { x with refb := some 9, forced := true, owner := none, debt := 12 }
     (s.bank 0).forced = true ∧ (s.bank 0).owner = none ∧ dueOk s 9 = true) ∧
    (let s := busyS fun x => { x with refb := some 9, reopen := some [0, 2] }
     (s.bank 0).reopen = some [0, 2] ∧ [0, 2].Nodup ∧ (s.bank 0).forced = false ∧ dueOk s 9 = true) := by decide +kernel
theorem test_refb_forced : got (exec (.refbComplete 0) (busyS fun x =>
    { x with refb := some 9, forced := true, owner := none, debt := 12 })) (fun t => ((t.bank 0).debt, (t.bank 0).refb)) =
    some (11, some 289) := by decide +kernel
theorem test_refb_reopens : got (exec (.refbComplete 0) (busyS fun x => { x with refb := some 9, reopen := some [0, 2] }))
    (fun t => ((t.bank 0).slotAt 0 |>.actAt, (t.bank 0).slotAt 2 |>.actAt, ((t.bank 0).slotAt 1).state)) =
    some (9, 13, .closed) := by decide +kernel
theorem witness_BankTimersComeAbout_yield : ∀ back : Bool, let s := busyS fun x => { x with yieldCopies := [(9, 0, back)] }
    (s.bank 0).yieldCopies = [(9, 0, back)] ∧ mayPass s 0 9 = true ∧ (s.bank 0).plan = [] ∧ (s.stream 0).stopping = false ∧ dueOk s 9 = true := by decide +kernel
theorem witness_BankTimersComeAbout_activates : let s := busyS fun x => { openB 0 x with acts := [0] }
    (s.bank 0).projected 0 ≠ none ∧ (s.tower 0).now ≤ ((s.bank 0).slotAt 0).actAt + 28 ∧ (s.bank 0).acts.getLast? = some 0 ∧
      dueOk s 28 = true ∧ dueOk s 4 = true ∧ dueOk s 21 = true ∧ (((s.tower 0).acts.getD 0 []).filter fun a => decide ((s.tower 0).now < a + 20)).head? = some 1 ∧
      (s.tower 0).crossing.find? (fun c => c.entry == 1) = some ⟨1, 0, 3⟩ := by decide +kernel
theorem test_twbk_writes_row : got (exec (.twbkElapsed 0 0) (dueS .writing)) (fun t =>
    (((t.bank 0).slotAt 0).state, getField (rowRead t 0 0 5).1 0 8)) = some (.openClean, 9) := by decide +kernel
theorem test_refb_complete : got (exec (.refbComplete 0) (busyS fun x => { x with refb := some 9, debt := 3 })) (fun t =>
    ((t.bank 0).debt, (t.tower 0).now)) = some (2, 9) := by decide +kernel

theorem witness_ScalarBankWords : (slotS same).StreamTurn 0 ∧
    mayAct (slotS same) 0 ((slotS same).stream 0) (streamNow (slotS same) 0 ((slotS same).stream 0)) false = true ∧
    noStep (slotS same) 0 = true := by
  unfold State.StreamTurn; decide +kernel
/-- 11 R303: b0 reads the index in the group. -/
theorem test_badd : got (exec (.badd { bw (2 * 5 + 1) with bs1 := 0 }) (bankS 6 same same)) (fun t =>
    ((t.bank 1).b[3], (t.bank 2).b[3])) = some (5, 6) := by decide +kernel
theorem test_bli : got (exec (.bli (bw 0x7FFF_FFFF)) (slotS same)) (fun t => (t.bank 0).b[3]) = some (0xFFFF_FFFF_FFFF_FFFF) := by
  decide +kernel
theorem test_bpset : got (exec (.bpset { bw 4 with bs1 := 0 }) (bankS 6 same same)) (fun t =>
    ((t.bank 1).pred, (t.bank 2).pred)) = some (true, true) := by decide +kernel

/-- Stream 0 at word 1 of three with two banks. -/
def branchS (f : Stream → Stream) (g : Bank → Bank) : State := bankS 3 (fun st => f { st with bpc := 1 }) g
theorem witness_BankBranchesAndSignals : let s := branchS same same
    let st := s.stream 0
    s.cur = some (.stream 0) ∧ mayAct s 0 st (streamNow s 0 st) false = true ∧ noStep s (streamNow s 0 st) = true ∧ st.split = [] ∧ activeBanks s 0 st = [0, 1] ∧
      (st.pos : Int) + signedOf 12 (bitsAt (bw (0xFFF * 8)).imm.toNat 3 12) = 0 ∧
      (st.pos : Int) + signedOf 12 (bitsAt (bw (2 * 8)).imm.toNat 3 12) = 3 ∧ st.code.length = 3 ∧
      (∀ b ∈ bankList st.mask, (s.bank b).allClosed = true ∧ (s.bank b).refb = none) ∧ st.state ≠ .handler ∧
      ((branchS (fun st => { st with state := .handler }) same).stream 0).state = .handler := by decide +kernel
theorem witness_BankBranchesAndSignals_end : let s := slotS (openB 0)
    (s.stream 0).mask = maskOf [0] ∧ (s.bank 0).projected 0 ≠ none := by decide +kernel
/-- One bank with b1 = `h` and b2 = `n`, and channel 3 of the context at watermark 5 with the number 8 faulted. -/
def waitTS (n : Nat) : State :=
  let s := bankS 1 same fun x => { x with b := (x.b.set 1 3).set 2 (BitVec.ofNat 64 n) }
  s.setCtx 1 { s.ctxs.getD 1 { desc := 0 } with xfer := [(3, { line := { last := 9, mark := 5, faulted := [8] } })] }
theorem witness_BankBranchesAndSignals_waitt : let s := waitTS 5
    (bankList (s.stream 0).mask).head? = some 0 ∧ (s.stream 0).state = .running ∧
      (s.kernels.get? (s.stream 0).kernel).map (·.ctx) = some 1 ∧ tlView s 1 none 3 = some ⟨5, [8]⟩ := by decide +kernel
theorem test_bwaitt : (got (exec (.bwaitt (bw 0)) (waitTS 5)) fun t => (t.stream 0).bpc) = some 1 ∧
    (got (exec (.bwaitt (bw 0)) (waitTS 6)) fun t => (t.stream 0).state) = some .waiting ∧
    (got (exec (.bwaitt (bw 0)) (waitTS 8)) fun t => (t.stream 0).state) = some .faulted := by decide +kernel
theorem test_bloop : got (exec (.bloop (bw (0xFFF * 8))) (branchS same fun x => { x with b := x.b.set 3 2 })) (fun t =>
    ((t.stream 0).bpc, (t.bank 1).b[3])) = some (0, 1) := by decide +kernel
theorem test_bend : got (exec (.bend (bw 0)) (slotS same)) (fun t => ((t.stream 0).state, (t.bank 0).owner)) =
    some (.ended, none) := by decide +kernel

/-- A bank 0 with predicate `p`, and bank 1 with predicate `q`. -/
def predS (p q : Bool) (f : Stream → Stream) : State :=
  let s := bankS 3 f same
  { s with banks := [(0, { s.bank 0 with pred := p }), (1, { s.bank 1 with pred := q })] }
theorem witness_SplitAndJoin : let s := predS true false same
    let st := s.stream 0
    s.cur = some (.stream 0) ∧ mayAct s 0 st (streamNow s 0 st) false = true ∧ noStep s (streamNow s 0 st) = true ∧ (st.pos : Int) + signedOf 12 2 = 2 ∧
      maskOf (activeBanks s 0 st) = 1 ∧ st.mask &&& ~~~(1 : BitVec 16) = 2 ∧ freeSeq s 0 = some 1 ∧ st.split = [] ∧
      maskOf (activeBanks (predS false false same) 0 st) = 0 := by decide +kernel
theorem witness_SplitAndJoin_serial : let s := predS true false same
    let b : Stream := { state := .running }
    freeSeq { s with streams := s.streams ++ [(1, b), (2, b), (3, b)] } 0 = none := by decide +kernel
/-- Stream 1 with entries of its split stack. -/
def joinS (l : List Split) (pri : Option Nat) : State := predS true false fun st => { st with split := l, primary := pri }
theorem witness_SplitAndJoin_join : ∀ k ∈ [SplitKind.parallel 1, .serialFirst, .serialSecond, .alone, .returns],
    let s := joinS [⟨1, 3, 1, 2, 2, k⟩] (some 1)
    (s.stream 0).split = [⟨1, 3, 1, 2, 2, k⟩] ∧ (s.stream 0).primary = some 1 ∧
      3 ≤ ((joinS (List.replicate 3 ⟨1, 3, 1, 2, 2, k⟩) none).stream 0).split.length := by decide +kernel
theorem test_bsplit : got (exec (.bsplit (bw (2 * 8))) (predS true false same)) (fun t =>
    ((t.stream 0).mask, (t.stream 1).mask, (t.stream 1).bpc, (t.bank 1).owner)) = some (1, 2, 2, some 1) := by decide +kernel
theorem test_bjoin_restores : got (exec (.bjoin (bw 0)) (joinS [⟨1, 3, 1, 2, 2, .alone⟩] none)) (fun t =>
    ((t.bank 0).pred, (t.bank 1).pred, (t.stream 0).bpc)) = some (true, false, 1) := by decide +kernel

/-- Sweeps of rows 4 and 5 in one bank. -/
def sweepW : BWord := { bw (4 + 2 * 2 ^ 12) with sd := 0 }
def sweepS (ph swc : Nat) (begun : BitVec 16) (g : Bank → Bank) : State :=
  bankS 1 (fun st => { st with checked := true, phase := ph, swc := BitVec.ofNat 12 swc, begun := begun }) g
theorem witness_SweepAndMovementWords : let s := sweepS 0 2 0 same
    let t := sweepS 1 0 1 same
    let u := sweepS 1 0 0 (openB 5)
    let v := sweepS 0 1 0 same
    s.cur = some (.stream 0) ∧ (s.stream 0).checked = true ∧ mayAct s 0 (s.stream 0) (streamNow s 0 (s.stream 0)) false = true ∧
      noneBefore s 0 0 = true ∧ noStep s 0 = true ∧ sweepW.sweepRows ≤ (s.stream 0).swc.toNat ∧
      ((t.stream 0).begun.getLsbD 0 = true ∧ ((t.bank 0).slotAt 0).state = .closed) ∧
      ((u.bank 0).isOpen 0 = true ∧ (u.bank 0).lanesFree = true ∧ ((u.bank 0).slotAt 0).bad = 0) ∧
      ((v.stream 0).swc.toNat < sweepW.sweepRows ∧ actReady v 0 0 (streamNow v 0 (v.stream 0)) false = some 0 ∧
        timeOk v 0 0 = true) := by decide +kernel
/-- A sweep within a row: its banks activated; a bad line; the slots to precharge, before a trap too; a row to count. -/
theorem witness_SweepAndMovementWords_rows :
    (let s := sweepS 0 1 1 (openB 5)
     (s.stream 0).begun.getLsbD 0 = true ∧ (s.stream 0).swc.toNat < sweepW.sweepRows ∧ (s.stream 0).late 0 = false) ∧
    (let s := sweepS 1 1 0 fun x => (openB 5 x).putSlot 0 { (openB 5 x).slotAt 0 with bad := 1 }
     ((s.bank 0).slotAt 0).bad &&& sweepLines sweepW false != 0) = true ∧
    (∀ ph ∈ [1, 2], let s := { sweepS ph 1 1 (openB 5) with towers := [(0, { now := 28 })] }
     (s.bank 0).isOpen 0 = true ∧ (s.bank 0).passOn 0 = false ∧ (s.bank 0).refb = none ∧
       ((s.bank 0).slotAt 0).actAt + 28 ≤ streamNow s 0 (s.stream 0) ∧ timeOk s 0 (streamNow s 0 (s.stream 0)) = true) ∧
    (∀ ph ∈ [1, 2], ((sweepS ph 1 1 same).bank 0 |>.slotAt 0).state = .closed) := by decide +kernel
theorem test_sweep_counts : got (exec (.rsweep sweepW) (sweepS 1 1 1 same)) (fun t => ((t.stream 0).swc, (t.stream 0).phase)) =
    some (2, 0) := by decide +kernel
theorem witness_SweepAndMovementWords_moves : let s := bankS 3 (fun st => { st with checked := true }) (openB 5)
    (shmovMoves (bw 5) (s.stream 0) [0, 1])[(s.stream 0).swc.toNat]? = some (1, [0]) ∧
      (shmovMoves (bw 5) (s.stream 0) [])[(s.stream 0).swc.toNat]? = none ∧ (s.tower 0).bus.get? 0 = none ∧
      (s.bank 0).lanesFree = true ∧ (s.bank 1).isOpen 1 = true := by decide +kernel
theorem witness_SweepAndMovementWords_buffer : let s := slotS (openB 5)
    wordTurn s false = true ∧ bufTrap s 0 (s.stream 0) 0 (bw 1) = none ∧ lanesReady s [1] [] = true := by decide +kernel
/-- A BUFST of another stream under way to the entry that a BUFLD reads, or none. -/
theorem witness_SweepAndMovementWords_met :
    (let s := { slotS (openB 5) with towers := [(0, { crossing := [⟨1, 8, 3⟩] })] }
     bufMet s 0 1 = [⟨1, 8, 3⟩] ∧ bufMet s 0 0 = [] ∧ bufTrap s 0 (s.stream 0) 0 (bw 1) = none) := by decide +kernel
/-- A move to bank 0 on the bus. -/
def moveS : State := bankS 1 (fun st => { st with phase := 1, checked := true, held := true }) fun x =>
  { openB 5 x with pass := some ⟨9, [0], .slot 0 7 0, true⟩ }
theorem witness_SweepAndMovementWords_end : movingBanks moveS 0 = [0] ∧
    (moveS.bank 0).pass = some ⟨9, [0], .slot 0 7 0, true⟩ ∧ dueOk moveS 9 = true := by decide +kernel
theorem test_busMoveEnd : got (exec (.busMoveEnd 0) moveS) (fun t => (getField ((t.bank 0).slotAt 0).bits 0 8, (t.stream 0).swc)) =
    some (7, 1) := by decide +kernel
theorem test_bufst : got (exec (.bufst (bw 1)) (slotS (openB 5))) (fun t => (t.tower 0).crossing.map fun c =>
    (c.entry, c.stream, getField c.bits 0 8)) = some [(1, 0, 5)] := by decide +kernel

/-- A stream with a handler at word 2, in or out of it. -/
def trapS (st0 : StreamState) (en : Bool) : State := bankS 3 (fun st => { st with en := en, entry := 2, state := st0 }) same
theorem witness_BankTrapEntry : ((trapS .running true).stream 0).en = true ∧ ((trapS .running true).stream 0).state ≠ .handler ∧
    ((trapS .handler true).stream 0).state = .handler ∧ ((trapS .running false).stream 0).en = false := by decide +kernel
theorem test_bankTrap : (let t := bankTrap (trapS .running true) 0 3 [1]
    ((t.stream 0).bpc, (t.stream 0).btcause, (t.bank 0).b[15])) = (2, 0x2_0003, 0x2_0003) := by decide +kernel

theorem witness_Refresh_debt : let s := slotS fun x => { x with debt := 8, forced := true }
    0 / 1024 < s.variant.towers ∧ (s.bank 0).owner = some 0 ∧ (s.bank 0).forced = true ∧ (s.bank 0).debt = 8 ∧
      0 / 256 = 0 / 1024 ∧ 0 % 256 / 4 = 0 % 1024 / 16 ∧ (s.stream 0).mask.getLsbD 0 = true ∧ (s.stream 0).state = .running := by
  decide +kernel
theorem witness_Refresh_plinth : let s := base.setBank 3 { debt := 1 }
    (s.bank 3).owner = none ∧ 0 < (s.bank 3).debt ∧ (s.bank 3).debt < 2 ∧ (s.bank 3).refb = none ∧ (s.bank 3).allClosed = true ∧
      3 / 1024 < s.variant.towers ∧ nextDue s 0 = none := by decide +kernel
theorem witness_Refresh_interval : let s := heldS fun x => { x with debt := 11 }
    (s.bank 0).owner = some 0 ∧ dueOk s ((s.bank 0).refAt + 3120) = true := by decide +kernel
theorem witness_Refresh_forced : let s := slotS fun x => { openB 5 x with forced := true, debt := 12 }
    (s.bank 0).forced = true ∧ (s.bank 0).dues = [] ∧ (s.stream 0).state ≠ .suspended ∧
      (ends s 0).all (fun e => decide ((s.tower 0).now < e)) = true := by decide +kernel
/-- 10 R264: the slots of a bank at debt 12 are written back, its stream is faulted, and a REFB of it follows. -/
theorem test_forcedRefresh : got (exec (.forcedRefresh 0) (slotS fun x => { openB 5 x with forced := true, debt := 12 }))
    (fun t => ((t.stream 0).state, (t.bank 0).owner, (t.bank 0).refb, (t.bank 0).debt)) =
    some (.faulted, none, some 320, 12) := by decide +kernel
/-- Ordinary accesses: to a bank without a stream, and of a RUNNING, a SUSPENDED and a WAITING one. -/
theorem witness_Refresh_ordinary : (base.bank 3).owner = none ∧ bankLive base 3 = true ∧
    (∀ st ∈ [StreamState.running, .handler, .suspended, .waiting], let s := bankS 1 (fun x => { x with state := st }) same
      (s.bank 0).owner = some 0 ∧ (s.stream 0).state = st ∧ bankLive s 0 = true) ∧
    ((bankS 1 same same).bank 0).projected 0 = none ∧ (((bankS 1 same same).bank 0).settled 0).2 = none ∧
    (((bankS 1 same (openB 5)).bank 0).settled 0).2 = some false ∧ (((dirtyS true).bank 0).settled 0).2 = some true ∧ actEarliest (bankS 1 same same) 0 0 false = some 0 ∧
    ((bankS 1 same (openB 5)).bank 0).projected 0 = some false ∧ (((bankS 1 same (openB 5)).bank 0).slotAt 0).row = 5 := by
  decide +kernel
/-- 11 R298: an access accepted at t lets the stream act to t + 8. -/
theorem test_ordinaryAccess : got (exec (.ordinaryAccess 0 0 5) (bankS 1 same same)) (fun t => (t.stream 0).window) =
    some (some 8) := by decide +kernel
theorem test_refreshInterval : got (exec (.refreshInterval 0) (heldS fun x => { x with debt := 8 })) (fun t =>
    ((t.bank 0).debt, (t.bank 0).deadline, (t.bank 0).forced)) = some (9, true, false) := by decide +kernel
theorem witness_Refresh_deadline : let s := slotS fun x => { x with deadline := true }
    deadlineReady s 0 (s.stream 0) = true := by decide +kernel
theorem witness_Refresh_yield : let s := bankS 1 (fun st => { st with window := some 8, held := true }) same
    (s.stream 0).window = some 8 ∧ yieldReady s 0 (s.stream 0) = true ∧ dueOk s (max (s.tower 0).now 9) = true := by
  decide +kernel
theorem witness_Refresh_yield_waiting : let s := bankS 1 (fun st => { st with state := .waiting, window := some 8 }) same
    yieldReady s 0 (s.stream 0) = true ∧ (s.stream 0).state = .waiting ∧ dueOk s 9 = true := by decide +kernel
theorem witness_Refresh_suspended : let s := bankS 1 (fun st => { st with state := .suspended, yieldDue := 5 }) same
    (s.stream 0).state = .suspended ∧ (s.bank 0).yieldCopies = [] ∧ (s.bank 0).plan = [] ∧ (s.bank 0).dues.all (5 < ·) = true ∧ dueOk s 5 = true := by decide +kernel
/-- A word of b registers only. -/
def zw (a b : BitVec 4) : BWord := ⟨0, 0, 0, false, false, 0, 0, a, b, 0⟩
/-- A WAITING stream at a word of the code. -/
def wakeS (w : Instr) (l : List Split) : State :=
  let s := waitTS 5
  s.modStream 0 fun st => { st with state := .waiting, code := [match encode w with | .bank x => x | _ => 0], split := l }
theorem witness_Refresh_wake :
    (let s := wakeS (.bjoin (zw 0 0)) [⟨1, 1, 1, 0, 0, .alone⟩]
     (s.stream 0).state = .waiting ∧ mayAct s 0 (s.stream 0) (streamNow s 0 (s.stream 0)) false = true ∧
      noStep s 0 = true ∧ deadlineReady s 0 (s.stream 0) = false ∧ (s.stream 0).split = [⟨1, 1, 1, 0, 0, .alone⟩] ∧ (s.stream 0).left = .running ∧
      (match (s.stream 0).word.map decodeBank with | some (.ok (.bjoin w)) => decide (w = zw 0 0) | _ => false) = true) ∧
    (let s := wakeS (.bwaitt (zw 1 2)) []
     (s.stream 0).waitFor = none ∧ tlView s 1 none 3 = some ⟨5, [8]⟩ ∧
      (match (s.stream 0).word.map decodeBank with | some (.ok (.bwaitt w)) => decide (w = zw 1 2) | _ => false) = true) := by
  decide +kernel
theorem witness_Refresh_park : let s := bankS 1 (fun st => { st with preempt := true, record := some 0 }) same
    streamParkReady s 0 (s.stream 0) = true ∧ (s.kernels.get? 2).isSome = true ∧ (s.ctxs.get? 1).isSome = true := by
  decide +kernel
theorem witness_Refresh_resume : let s := bankS 1 (fun st => { st with state := .parked }) same
    (s.stream 0).state = .parked ∧ schedulerPaused s = false ∧ (s.ctxs.get? 1).map (·.state) = some .resident ∧
      (s.kernels.get? 2).map (streamsReady s) = some true := by decide +kernel
/-- Two streams of a kernel that come back together, with a bank each. -/
theorem witness_Refresh_resume_saved :
    let s := bankS 1 (fun st => { st with state := .parked, kept := .handler, saved := [(0, openB 5 {})] }) fun _ => {}
    (s.kernels.get? 2).map (streamsReady s) = some true ∧ (s.stream 0).saved.map (·.1) = [0] := by decide +kernel
theorem test_streamResume : got (exec (.streamResume 0)
    (bankS 1 (fun st => { st with state := .parked, kept := .handler, saved := [(0, openB 5 {})] }) fun _ => {})) (fun t =>
      ((t.stream 0).state, (t.bank 0).owner, ((t.bank 0).slotAt 1).state, ((t.bank 0).slotAt 1).row)) =
    some (.handler, some 0, .openClean, 5) := by decide +kernel
theorem test_streamYield : got (exec (.streamYield 0) (bankS 1 (fun st => { st with window := some 8, held := true }) same)) (fun t =>
    (t.stream 0).state) = some .suspended := by decide +kernel

/-! ## Harts, the scheduler -/

/-- The state after an outcome. -/
def nextOf (o : Host.Outcome State Fault Refusal) : State := match o with | .next t => t | _ => base
/-- Whether an option holds a value of which `p` is true. -/
def holds {α : Type} (o : Option α) (p : α → Bool) : Bool := match o with | some x => p x | none => false
theorem holds_spec {α : Type} {o : Option α} {p : α → Bool} (h : holds o p = true) : ∃ x, o = some x ∧ p x = true := by
  cases o with
  | none => cases h
  | some x => exact ⟨x, rfl, h⟩

theorem witness_HartStepsComplete_wake : let s := nextOf (exec (.tlwait 6 7 0) (chanS 7))
    let t := s.setCtx 1 { s.ctxs.getD 1 { desc := 0 } with xfer := [(3, { line := { last := 9, mark := 7 } })] }
    (t.hart 0).life = .waiting ∧ (t.hart 0).latched = some (.tlwait 6 7 0) ∧ t.preemptFirst 0 (t.hart 0) = false ∧
      (got (exec (.tlwait 6 7 0) { t with cur := some (.hart 0) }) fun u => decide ((u.hart 0).life ≠ .waiting)) = some true := by
  decide +kernel
theorem witness_HartStepsComplete_sequencer : let s := (seqS []).modHart 8 fun h => { h with life := .waiting }
    (s.hart 8).life = .waiting ∧ (s.hart 8).latched = none ∧ isSeqPlace 8 = true ∧ (s.core (8 / 9)).job = none ∧
      (handoffS.hart 3).life = .stalled := by decide +kernel
/-- A hart with a request pending and v2 empty. -/
def preemptS : State := base.modHart 0 fun h => { h with preempt := true, s := { h.s with tvec := 0x400 }, full := ~~~4 }
theorem witness_HartStepsComplete_preempt : preemptReady preemptS 0 (preemptS.hart 0) = true ∧
    (preemptS.hart 0).tdeleg.getLsbD 21 = false := by decide +kernel
theorem test_preempt : got (exec (.preempt 0) preemptS) (fun t => let h := t.hart 0
    (h.pc, h.s.tcause, h.full, h.emptyAt, h.service)) = some (0x400, 0x115, 0xFFFF_FFFF, 4, true) := by decide +kernel
/-- A gather of v1 of one 32-bit element that read 0x1234, or that could not be corrected. -/
def gatherS (bad : Bool) : State := base.modHart 0 fun h =>
  { h with gathers := [⟨1, 32, [⟨0, 0x1234⟩], if bad then some (0, 0x2_0000) else none⟩], full := ~~~2 }
theorem witness_HartStepsComplete_gather : ∀ b : Bool, let s := gatherS b
    (s.hart 0).gathers.find? (fun g => g.vd == 1) = some ⟨1, 32, [⟨0, 0x1234⟩], if b then some (0, 0x2_0000) else none⟩ := by
  decide +kernel
theorem test_gather_delivered : got (exec (.gatherDelivered 0 1) (gatherS false)) (fun t =>
    ((t.hart 0).full, elemAt ((t.hart 0).vreg 1) 32 0)) = some (0xFFFF_FFFF, 0x1234) := by decide +kernel
theorem test_gather_failed : got (exec (.gatherDelivered 0 1) (gatherS true)) (fun t => (t.hart 0).failed.get? 1) =
    some (some (0x2_0000, 0)) := by decide +kernel

/-- A hart that waits: in a GSYNC whose phase has turned, on its monitor, on a barrier object, for a peer. -/
theorem witness_HartStepsComplete_waits :
    (let s := (groupS 2 0 true (some false)).modHart 0 fun h => { h with life := .waiting, latched := some (.gsync 2 1) }
     (s.hart 0).latched = some (.gsync 2 1) ∧ (s.hart 0).arrived.get? 34 = some false ∧
      (s.groupOf (s.hart 0)).map (fun p => (gbarGet p.1 p.2 (gbarKey 1 2 0 0)).phase) = some true) ∧
    (let s := (waitS (some ⟨line, true⟩) .waiting).modHart 0 fun h => { h with latched := some (.waite 5 6) }
     (s.hart 0).latched = some (.waite 5 6) ∧ (s.hart 0).monitor = some ⟨line, true⟩) ∧
    (∀ p ∈ [1, 2], let s := (barS 7 p 1 2 1 0 token 0).modHart 0 fun h =>
       { h with life := .waiting, latched := some (.bwait 6 0), waitObj := some 0x3_0000 }
     (s.hart 0).waitObj = some 0x3_0000 ∧ (barRead s 0x3_0000).doneFor ((s.hart 0).rd 6) = decide (p = 2) ∧
      (barAddr s (s.hart 0) (BitVec.ofNat 64 (bitsAt ((s.hart 0).rd 6).toNat 0 43 * 32)) .barRead (.read 32)).toOption = some 0x3_0000) ∧
    (let s := { base.modHart 0 fun h => { h with life := .waiting } with pod := [{ addr := 2 ^ 50, by_ := 0, op := .read 8, answer := some .unmapped }] }
     (s.hart 0).latched = none ∧ ∃ p ∈ s.pod, p.by_ = 4 * 0 ∧ p.answer.isSome) := by
  refine ⟨by decide +kernel, by decide +kernel, by decide +kernel, by decide +kernel⟩
theorem test_bwait_wakes : got (exec (.hartWake 0) ((barS 7 2 1 2 1 0 token 0).modHart 0 fun h =>
    { h with life := .waiting, latched := some (.bwait 6 0), waitObj := some 0x3_0000 })) (fun t => (t.hart 0).pc) =
    some 0x1_0008 := by decide +kernel
/-- A group whose one member is PARKED, with its core record still to write, or PARKED itself. -/
def parkedS (st : GroupState) (cores : List Nat) : State :=
  { base with
    harts := [], ctxs := [(1, { base.ctxs.getD 1 { desc := 0 } with parkbase := 0x100_0000, parksize := 0x100_0000, resume := 0x400, stvec := 0x800 })],
    groups := [(1, { kernel := 2, tile := 0, state := st, cores := cores, records := [(0, 0x4000)], members := [(0, { at_ := .parked, parkAt := some 0 })] })] }
theorem witness_HartStepsComplete_save : let s := parkedS .parking [0]
    holds (s.groups.get? 1) (fun g => g.cores.findIdx? (· == 0) == some 0 && g.records.get? 0 == some 0x4000 &&
      g.state == .parking && g.allParked && !g.written.contains 0) = true ∧
    xferInto s 1 [0] = false ∧ (s.kernels.get? 2).map (·.ctx) = some 1 := by decide +kernel
theorem witness_HartStepsComplete_resume : let s := parkedS .parked []
    holds (s.groups.get? 1) (fun g => holds (s.kernels.get? g.kernel) fun k => g.state == .parked &&
      holds (g.members.get? 0) (fun m => m.at_ == .parked && decide (m.slotOf 0 k.perCore = 0)) &&
      decide (resumeCores s g k 5 (fun l => l[0]? == some 5) = some [5]) && (reserveSiblings (reserveCores s 1 [5]) 1 g k).isSome &&
      holds (g.members.get? 0) (fun m => (placeAgain (reserveCores s 1 [5]) g k 0 m 5 0 (grantsAgain s k 0x100_0000)).isSome)) = true ∧
    schedulerPaused s = false ∧ (s.ctxs.get? 1).map (·.state) = some .resident := by decide +kernel
theorem test_hartResume : got (exec (.hartResume 1 0 5) (parkedS .parked [])) (fun t =>
    ((t.hart 45).pc, (t.hart 45).s.tvec, (t.hart 45).tstat.prv)) = some (0x400, 0x800, true) := by decide +kernel

/-- Context 1 with queue 4, ACTIVE, whose ring at 0x7_0000 holds one record of one tile. -/
def queueS (st : QueueState) (kernels : NatMap Kernel) : State :=
  let s := poke 0x7_0000 32 (2 ^ 8 + 2 ^ 64 * 0x1_0004 + 2 ^ 128 * 0x1_0004 + 2 ^ 192 * 9) { base with groups := [], harts := [], kernels := kernels, rotation := [(1, 4)] }
  s.setCtx 1 { s.ctxs.getD 1 { desc := 0 } with
    queues := [(4, { state := st, desc := 0x6_0000, ring := 0x7_0000, size := 4, wr := 1, starve := 5 })] }
theorem witness_SchedulerStepsComplete_admission : let s := queueS .active []
    holds (s.ctxs.get? 1) (fun cx => holds (cx.queues.get? 4) fun q =>
      let q' := lookAgain s 1 4 q
      let k := (headKernel s 1 4 q').1
      q.state == .active && q'.rd != q'.wr && (headKernel s 1 4 q').2 && (k.faultedWait s q'.waits).isNone && !k.unmet s q'.waits &&
        !k.badWait s && recordOk k && !k.isBank && hartRecordOk s k && k.tiles != 0) = true ∧ schedulerPaused s = false := by
  decide +kernel
/-- The same ring with the record `r` in it. -/
def recordS (r : Nat) : State := poke 0x7_0000 256 r (queueS .active [])
/-- A record of one stream of tower 0, PC 0, bank 2, with one word of code at 0x2_0000; one that waits for number 5 of
transfer channel 3; and one whose address is not memory. -/
def bankRecord : Nat := 1 + 2 ^ (8 * 0x80) * (1 + 2 ^ 16) + 2 ^ (8 * 0x88) * 0x2_0000 + 2 ^ (8 * 0x98) * (4 * 2 ^ 16)
/-- Its kernel admitted, with a tile to place. -/
def tileKS : State := queueS .active [(2, { placedKernel false 0x1_0004 with queue := 4, next := 0 })]
theorem witness_SchedulerStepsComplete_placement : let s := tileKS
    nextQueue s = some (1, 4) ∧ schedulerPaused s = false ∧ holds (tileFits s 1 4) (fun p =>
      !p.2.coside && p.1.gid.isNone && coresOk s (p.1.want p.2) p.2.hosting (p.1.avoid s) [6]) = true ∧
    holds (s.ctxs.get? 1) (fun cx => holds (cx.queues.get? 4) fun q => q.starve != 0 && !q.aged && placeable cx q) = true ∧
    (nextTile s 1 4).isSome = true := by decide +kernel
/-- What the record at the head of the ring says. -/
def headK (s : State) (f : Kernel → Bool) : Bool :=
  holds (s.ctxs.get? 1) fun cx => holds (cx.queues.get? 4) fun q => f (headKernel s 1 4 (lookAgain s 1 4 q)).1
/-- A record that waits for number 5 of channel 3, whose watermark is `m`. -/
def waitRecS (m : Nat) (f : List Nat) : State :=
  let s := recordS (bankRecord + 2 ^ (8 * 0x40) * 3 + 2 ^ (8 * 0x48) * 5)
  s.setCtx 1 { s.ctxs.getD 1 { desc := 0 } with xfer := [(3, { line := { last := 9, mark := m, faulted := f } })] }
theorem witness_SchedulerStepsComplete_bank : let s := recordS bankRecord
    headK s (fun k => recordOk k && k.isBank && bankRecordOk s k && !remapHolds s k && !k.badWait s &&
      (bankRoom s k).isSome && (match copyCode s (codeWho 1 4) 1 k.prv (BitVec.ofNat 64 (recField k 0x88 0 64)) k.codeLen with
        | .ok _ => true | .error _ => false)) = true := by decide +kernel
theorem witness_SchedulerStepsComplete_records :
    headK (waitRecS 4 []) (fun k => k.unmet (waitRecS 4 []) [] && (k.faultedWait (waitRecS 4 []) []).isNone) = true ∧
    headK (waitRecS 4 [5]) (fun k => (k.faultedWait (waitRecS 4 [5]) []).isSome) = true ∧
    headK (recordS 1) (fun k => recordOk k && !bankRecordOk (recordS 1) k) = true ∧
    headK (recordS 0) (fun k => !hartRecordOk (recordS 0) k) = true ∧
    (let s := { queueS .active [] with bad := [unitOf (homeKey base 0x7_0000)] }
     holds (s.ctxs.get? 1) fun cx => holds (cx.queues.get? 4) fun q => !(headKernel s 1 4 q).2) = true := by decide +kernel
/-- A bank kernel admitted while its bank owed refreshes, and then bound. -/
def bankKS : State := (nextOf (execKernelAdmission 1 4 ((recordS bankRecord).setBank 2 { debt := 3 }))).setBank 2 {}
theorem witness_SchedulerStepsComplete_bind : nextQueue bankKS = some (1, 4) ∧ schedulerPaused bankKS = false ∧
    holds (tileFits bankKS 1 4) (fun p => p.2.isBank && (bankRoom bankKS p.2).isSome) = true := by decide +kernel
theorem test_bankPlacement : got (execTilePlacement 1 4 [] bankKS) (fun t =>
    ((t.stream 0).state, (t.stream 0).mask, (t.bank 2).owner)) = some (.running, 4, some 0) := by decide +kernel
theorem test_kernelAdmission : got (exec (.kernelAdmission 1 4) (queueS .active [])) (fun t =>
    ((t.kernels.get? 3).map fun k => (k.num, k.arg), (t.ctxs.get? 1).bind fun c => (c.queues.get? 4).map (·.rd))) =
    some (some (1, 9), some 1) := by decide +kernel
theorem test_tilePlacement : got (exec (.tilePlacement 1 4 [6]) tileKS) (fun t => ((t.hart 54).pc, (t.hart 54).life,
    (t.hart 54).group)) = some (0x1_0004, .ready, 3) := by decide +kernel
/-- A kernel in a state, with one tile finished, its KIND 10 record the first unit of the fault queue, and consumed. -/
def endedS (st : KernState) : State :=
  { base with
    groups := [], harts := [],
    ctxs := [(1, { base.ctxs.getD 1 { desc := 0 } with fqTotal := 8 })],
    kernels := [(2, { placedKernel false 0 with state := st, finished := 1, recordAt := some 0 })] }
theorem witness_SchedulerStepsComplete_ends :
    holds ((endedS .running).kernels.get? 2) (fun k => k.state == .running && kernelDone (endedS .running) 2 k) = true ∧
    holds ((endedS .faulted).kernels.get? 2) (fun k => k.state == .faulted && consumed (endedS .faulted) k) = true := by
  decide +kernel
/-- A hot column under a running group, with room for its records. -/
def hotS : State :=
  let s := base.setCtx 1 { base.ctxs.getD 1 { desc := 0 } with parkbase := 0x100_0000, parksize := 0x1000_0000 }
  { s with svc := { s.svc with therm := [(0, { hot := 1 })] } }
theorem witness_SchedulerStepsComplete_hot : holds (hotS.groups.get? 1) (fun g => holds (hotS.kernels.get? g.kernel) fun k =>
      g.state == .running && !k.coside && g.cores.any (hotCore hotS)) = true ∧ ctxFaulted hotS 1 = false ∧
    (reserveParking hotS 1).isSome = true := by decide +kernel
/-- A group, and a bank kernel, of a FAULTED context, with room for their records. -/
theorem witness_SchedulerStepsComplete_park :
    (let s := base.setCtx 1 { base.ctxs.getD 1 { desc := 0 } with state := .faulted, parkbase := 0x100_0000, parksize := 0x1000_0000 }
     ctxFaulted s 1 = true ∧ (reserveParking s 1).isSome = true) ∧
    (let s := bankS 1 same same
     let s := s.setCtx 1 { s.ctxs.getD 1 { desc := 0 } with state := .faulted, parkbase := 0x100_0000, parksize := 0x1000_0000 }
     ctxFaulted s 1 = true ∧ (reserveStreams 1 [0] s).isSome = true ∧ (s.stream 0).isLive = true ∧ (s.stream 0).preempt = false ∧
      s.groups.get? 2 = none) := by decide +kernel
/-- A kernel of higher priority that needs the whole quad on which a group runs, and the banks that a stream holds. -/
def wantS : State :=
  let q (p : Nat) : Queue := { state := .active, desc := 0x6_0000, ring := 0x7_0000, size := 4, prio := p }
  let k : Kernel := { placedKernel false 0x1_0004 with queue := 4, next := 0, record := BitVec.ofNat 2048 (32 * 2 ^ 8 + 2 ^ 64 * 0x1_0004) }
  let s := { hotS with
    -- columns 1 to 3 of die 0 and every other die are hot, and of column 0 only the first quad is in service
    svc := { base.svc with therm := (0, { hot := 14 }) :: (List.range' 1 7).map fun d => (d, { hot := 15 }) }
    cores := ([16, 17, 18, 19, 32, 33, 34, 35, 48, 49, 50, 51] : List Nat).map fun c => (c, { lost := true })
    kernels := [(2, { placedKernel false 0x1_0004 with queue := 5 }), (7, k)], rotation := [(1, 4), (1, 5)] }
  s.setCtx 1 { s.ctxs.getD 1 { desc := 0 } with queues := [(4, q 3), (5, q 1)] }
theorem witness_SchedulerStepsComplete_victim : holds (wantS.groups.get? 1) (fun g => (victimOf wantS 1 g).isSome &&
    g.state == .running && !g.cores.any (hotCore wantS)) = true ∧ ctxFaulted wantS 1 = false ∧
    (reserveParking wantS 1).isSome = true := by decide +kernel
/-- A bank kernel of higher priority that needs the bank of a running stream. -/
def wantBankS : State :=
  let q (p : Nat) : Queue := { state := .active, desc := 0x6_0000, ring := 0x7_0000, size := 4, prio := p }
  let s := bankS 4 same same
  let k : Kernel := { placedKernel true 0 with queue := 4, next := 0, record := BitVec.ofNat 2048 bankRecord }
  let l : Kernel := { s.kernels.getD 2 (placedKernel true 0) with queue := 5 }
  let s := { s with kernels := [(2, l), (7, k)], rotation := [(1, 4), (1, 5)] }
  s.setCtx 1 { s.ctxs.getD 1 { desc := 0 } with parkbase := 0x100_0000, parksize := 0x1000_0000, queues := [(4, q 3), (5, q 1)] }
theorem witness_SchedulerStepsComplete_bank_victim : holds (wantBankS.kernels.get? 2) (fun k =>
    (bankVictimOf wantBankS 2 k).isSome && k.isBank && k.state == .running) = true ∧
    (reserveStreams 1 [0] wantBankS).isSome = true ∧ ctxFaulted wantBankS 1 = false := by decide +kernel
theorem witness_SchedulerStepsComplete_replay : holds (base.groups.get? 1) (fun g => holds (base.kernels.get? g.kernel) fun k =>
      g.state != .ended && g.cores.contains 0 && !k.replay) = true ∧
    (let k : Kernel := { placedKernel false 0 with record := BitVec.ofNat 2048 4 }
     let s := { base with kernels := [(2, k)] }
     holds (s.groups.get? 1) (fun g => decide (g.replays < 2)) = true ∧ k.replay = true) := by decide +kernel

/-! ## Engines' steps -/

/-- The transfer of `copyS`, launched and started. -/
def queuedS : State := nextOf (exec (.cpgo 5 6) copyS)
def runS : State := nextOf (execTransferOpStart 1 2 1 (poke 0x2_0000 8 0x1122 queuedS))
def landedS : State := nextOf (execElementGroupLands 1 2 1 runS)
theorem witness_TransferStepsComplete_start : holds (findOp queuedS 1 2 1) (fun op => op.state == .queued &&
    !xferMustWait queuedS 1 [op] op &&
    (match dstHome queuedS (xferWho 1 2 1) 1 op op.shadow[1] with | .ok (.plain _ _) => true | _ => false)) = true := by
  decide +kernel
theorem witness_TransferStepsComplete_lands : holds (findOp runS 1 2 1) (fun op => op.state == .running && op.fail.isNone &&
    decide (op.landed < op.total) && op.rowBytes == 64 &&
    (match dstHome runS (xferWho 1 2 1) 1 op (op.dstVa 0 0) with | .ok (.plain pa _) => pa == 0x5_0000 | _ => false) &&
    (match xferPieceBytes runS (xferWho 1 2 1) 1 op (op.linePieces ((op.dstVa 0 0).toNat / 64) 0) with | .ok _ => true | _ => false)) = true ∧
    runS.host.acen = false := by decide +kernel
/-- The line at 0x5_0000 is plain memory (PlainLine). -/
theorem witness_plainLine : (List.range 64).all (fun i =>
    (match physHome runS (0x5_0000 / 64 * 64 + i) with | .mem k => !isRowZero k | _ => false) &&
      homeKey runS (0x5_0000 / 64 * 64 + i) == homeKey runS 0x5_0000 + i) = true := by decide +kernel
theorem witness_TransferStepsComplete_completes : holds (findOp landedS 1 2 1) (fun op => op.state == .running && op.fail.isNone &&
    op.landed == op.total && !op.sh.hdr && op.bar.isNone &&
    (match xferHead landedS 1 2 op with | .ok _ => true | _ => false)) = true := by decide +kernel
theorem test_transfer_lands : got (exec (.elementGroupLands 1 2 1) runS) (fun t => physRead t 0x5_0000 8) = some 0x1122 := by
  decide +kernel
theorem test_transfer_completes : got (exec (.transferOpComplete 1 2 1) landedS) (fun t =>
    ((t.ctxs.getD 1 { desc := 0 }).chan 2).line.mark) = some 1 := by decide +kernel
/-- An operation whose source lies beyond the addresses, and one whose destination is stream register 1 of hart 3. -/
def badOpS : State := nextOf (execTransferOpStart 1 2 1
  (nextOf (exec (.cpgo 5 6) (shadowS 2 [2 ^ 50, 0x5_0000, 64, 0, 0, 1]))))
theorem witness_TransferStepsComplete_fault : holds (findOp badOpS 1 2 1) (fun op => op.state == .running &&
    xferFailure badOpS 1 2 op == some (5, BitVec.ofNat 64 (2 ^ 50)) && (op.bound badOpS).isNone) = true := by decide +kernel
def streamS : State :=
  let s := nextOf (exec (.cpgo 5 6) (shadowS 2 [0x2_0000, 2 ^ 36, 64, 0, 3, 1]))
  let s := { s with groups := [(1, { kernel := 2, tile := 0, state := .running, cores := [0], members := [(0, { at_ := .place 0 }), (3, { at_ := .place 3 })] })] }
  [(0x8_0008, 0x9_0001), (0x9_0000, 0xA_0001), (0xA_0000, 0xB_0001), (0xB_0000, 0x7F00_0011_00AF)].foldl
    (fun s p => poke p.1 8 p.2 s) (s.modHart 3 fun h => { h with life := .ready, group := 1, index := 3 })
theorem witness_TransferStepsComplete_stream : holds (findOp streamS 1 2 1) (fun op => op.state == .queued && !op.sh.hdr &&
    op.shadow[4] == 3 && (match dstHome streamS (xferWho 1 2 1) 1 op op.shadow[1] with | .ok (.ingress 0 0 0) => true | _ => false) &&
    boundAt streamS 1 3 && decide (((streamS.hart 3).strm 0).state = .unbound)) = true := by decide +kernel

/-! ## Lamination -/

/-- A row-linear page of tower 1, whose floor is row 8. -/
def rowP : Nat := 2 ^ 47 + 2 ^ 37 + 2 ^ 16
/-- The request of one BF16 activation row 1.0, 3.0 at 0x2_0000 on two weight rows 1.0, 2.0 and 0, 1.0 in the
row-linear page at virtual address 2^36, with FP32 outputs at 0x5_0000. -/
def lamQS : State :=
  let s := [(0x8_0008, 0x9_0001), (0x9_0000, 0xA_0001), (0xA_0000, 0xB_0001), (0xB_0000, rowP + 0x6F),
    (0x2_0000, 0x4040_3F80), (rowP, 0x4000_3F80), (rowP + 2 ^ 13, 0x3F80_0000)].foldl
    (fun s p => poke p.1 8 p.2 s) (State.setTower (shadowS 0x1002 [0x2_0000, 0x5_0000, 1 + 2 * 2 ^ 16, 2 ^ 36, 2 + 8 * 2 ^ 16, 9, 8 + 9 * 2 ^ 5]) 1 { floor := 8 })
  nextOf (exec (.mxgo 5 6) s)
def lamAS : State := nextOf (execLamAdmission 1 2 1 lamQS)
def lamDS : State := nextOf (execLamDeadline 1 0 lamAS)
def lamCS : State := nextOf (execLamComputeStart 1 0 lamDS)
def lamSS : State := nextOf (execLamComputeEnd 1 0 lamCS)
/-- The entry of tower 1. -/
def lamE (s : State) : LamEntry := (s.tower 1).lam.getD 0 {}
theorem witness_LaminationStepsComplete_admission : holds (findLam lamQS 1 2 1) (fun op => !op.admitted &&
    (match lamAdmit lamQS (lamWho 1 2 1) 1 op with | .ok (p0, _, a) => p0 == rowP && a.length == 2 | .error _ => false) &&
    (joinEntry (lamQS.tower 1) ⟨⟨1, 2, 1, op.h, op.x⟩, op.key (rowP), (lamQS.tower 1).now + op.hold, op.prio⟩).isNone &&
    freeEntry (lamQS.tower 1) == some 0) = true ∧ bitsAt rowP 37 3 = 1 ∧ computePending (lamQS.tower 1) = false := by
  decide +kernel
theorem witness_LaminationStepsComplete_refused :
    holds (findLam (poke 0xB_0000 8 0 lamQS) 1 2 1) (fun op => match lamAdmit (poke 0xB_0000 8 0 lamQS) (lamWho 1 2 1) 1 op with
      | .error (.fault c va) => c == 5 && va == BitVec.ofNat 64 (2 ^ 36) | _ => false) = true := by decide +kernel
theorem witness_LaminationStepsComplete_entry : (lamE lamAS).state = .forming ∧
    (match nextDue lamAS 1 with | some d => decide ((lamE lamAS).deadline ≤ d) | none => true) = true ∧
    (lamE lamDS).state = .dispatched ∧ ((lamDS.tower 1).lam.all fun p => p.1 == 0) = true ∧
    (lamE lamCS).state = .computing ∧ badWeight lamCS (lamE lamCS).key = none ∧ (lamE lamCS).members = [⟨1, 2, 1, 1, false⟩] ∧
    (findLam lamCS 1 2 1).isSome = true ∧ (lamE lamSS).state = .splitting ∧
    (((lamE lamCS).key.bankKeys.map lamCS.bank).all fun x => x.waiting.isEmpty) = true ∧
    (match nextDue lamCS 1 with
      | some d => decide ((((lamE lamCS).key.bankKeys.map lamCS.bank).map (·.servedBy)).foldl max 0 ≤ d) | none => true) = true ∧
    computePending (lamAS.tower 1) = false ∧ computePending (lamCS.tower 1) = false ∧ computePending (lamSS.tower 1) = false ∧
    holds (findLam lamSS 1 2 1) (fun op =>
      match lamWrite (lamWho 1 2 1) 1 op 3 0 (op.result.flatMap fun v => toBytes 4 v) lamSS with
      | .ok s => (match barCount s (lamWho 1 2 1) 1 0x1002 1 op.bytes op.prv op.bar with | .ok _ => true | _ => false)
      | _ => false) = true := by
  decide +kernel
/-- Outputs within the line at 0x5_0000, which is plain memory. -/
theorem witness_LaminationStepsComplete_outputs : holds (findLam lamSS 1 2 1) (fun op => (op.outVa 0).toNat % 64 == 0 &&
    (match lamOutAddr lamSS (lamWho 1 2 1) 1 op (op.outVa 0) with | .ok (.plain pa _) => pa == 0x5_0000 | _ => false)) = true := by
  decide +kernel
theorem witness_LaminationStepsComplete_weight : let s := { lamCS with bad := [unitOf (homeKey lamCS (rowP))] }
    badWeight s (lamE s).key = some (0, 19) ∧
    badWeight (lamCS.setTower 1 { lamCS.tower 1 with floor := 9 }) (lamE lamCS).key = some (0, 8) := by decide +kernel
theorem test_lamination : holds (findLam lamSS 1 2 1) (fun op => op.result == [0x40E0_0000, 0x4040_0000]) = true ∧
    got (execLamSplitComplete 1 0 lamSS) (fun t => physRead t 0x5_0000 8) = some 0x4040_0000_40E0_0000 := by decide +kernel

/-! ## The host -/

/-- A context descriptor at 0x6_0000 and a queue descriptor at 0x6_1000. -/
def descS : State :=
  [(0x6_0000, 7), (0x6_0008, 0x4_0000), (0x6_0010, 0x10_0000), (0x6_0018, 0x10_0000), (0x6_0028, 8),
    (0x6_1000, 4 + 1 * 2 ^ 16 + 3 * 2 ^ 32), (0x6_1008, 0x7_0000), (0x6_1010, 4 + 2 ^ 32)].foldl (fun s p => poke p.1 8 p.2 s) base
theorem witness_HostCommandsComplete_create : let pa := (0x1800 : BitVec 58).toNat * 64
    pa = 0x6_0000 ∧ descS.ctxs.get? (physRead descS pa 2) = none ∧ descriptorOk descS pa = true ∧ physRead descS (pa + 0x28) 4 = 2 ^ 3 ∧
      physRead descS (pa + 0x18) 8 ≠ 0 := by decide +kernel
theorem witness_HostCommandsComplete_enable : holds (descS.ctxs.get? 1) (fun cx =>
    enableOk cx (cx.queues.get? 4) (physRead descS 0x6_1010 8 % 2 ^ 32) (physRead descS 0x6_1010 8 / 2 ^ 32 % 2 ^ 16)
      (physRead descS 0x6_1008 8)) = true := by decide +kernel
/-- Context 1, whose descriptor is at 0x2_0000, in a state; queue 4, with the descriptor 0x6_1000. -/
def ctxS (st : CtxState) : State :=
  { base with
    groups := [], harts := [], kernels := []
    ctxs := [(1, { base.ctxs.getD 1 { desc := 0 } with state := st, queues := [(4, { state := .active, desc := 0x6_1000, size := 4, wr := 1 })] })] }
theorem witness_HostCommandsComplete_queue : (queueAt (ctxS .runnable) 0x6_1000).map (fun p => (p.1, p.2.1, p.2.2.feed)) =
    some (1, 4, false) ∧ queueAt base 0x6_1000 = none ∧ ctxAt base 0x6_1000 = none := by decide +kernel
theorem witness_HostCommandsComplete_context : ∀ st ∈ [CtxState.runnable, .suspended, .faulted],
    holds (ctxAt (ctxS st) 0x2_0000) (fun p => p.1 == 1 && p.2.state == st) = true ∧
    (reserveCtx ((ctxGroups (ctxS st) 1).foldl unbindGroup (ctxS st)) 1).isSome = true := by decide +kernel
theorem test_createContext : got (execCreateContext 0x1800 descS) (fun t => ((t.ctxs.get? 7).map fun c => (c.state, c.ptroot),
    t.host.hqcmd)) = some (some (.created, 0x4_0000), 0x6_0000) := by decide +kernel
theorem test_disableQueue : got (execDisableQueue 0x1840 (ctxS .runnable)) (fun t =>
    (t.ctxs.get? 1).bind fun c => (c.queues.get? 4).map fun q => (q.state, q.rd, q.base)) = some (some (.disabled, 1, 1)) := by
  decide +kernel
theorem test_suspendContext_unknown : got (execSuspendContext 0x1840 base) (fun t => t.host.hqcmd) =
    some (0x6_1000 + 8 + 3) := by decide +kernel

theorem witness_HostRegistersAndBar2 : base.host.tlbdone = true ∧ (base.ctxs.get? 1).map (·.state) = some .resident ∧
    base.ctxs.get? 9 = none ∧ base.host.remapBusy = false ∧ (1 : BitVec 3).toNat < base.variant.towers ∧
    (base.tower 1).isLive 3 2 = true ∧ 1 < (base.tower 1).live ∧
    (base.setTower 1 { retired := [64 * 2 + 3] } |>.tower 1).isLive 3 2 = false ∧
    heldBelow base 1 3072 = false ∧ (∀ p ∈ base.ulports, p.2.linked = false) ∧ memWf base.mem = true := by decide +kernel
theorem witness_HostRegistersAndBar2_tlbdone : let s := { base with host := { base.host with tlbdone := false, tlbctx := 1 } }
    s.host.tlbdone = false ∧ ({ s.host with msix := [(1, 0)] } : HostRegs).masked 0 = false ∧ (∀ p ∈ s.pod, p.dropped = true → p.answer ≠ none) ∧
    (∀ p ∈ s.ctxs, ∀ q ∈ p.2.lam, ∀ o ∈ q.2.ops, o.dropped = false) ∧
    droppedWaits { s with pod := [{ addr := 2 ^ 50, by_ := 0, op := .read 8, dropped := true }] } = true := by decide +kernel
/-- A step of the remap controller in progress. -/
def remapS (w : BitVec 26) : State := { base with host := { base.host with remap := w, remapBusy := true } }
theorem witness_HostRegistersAndBar2_remap : let w : BitVec 26 := BitVec.ofNat 26 (8 + 5 * 2 ^ 14)
    (remapS w).host.remapBusy = true ∧ bitsAt w.toNat 3 1 = 1 ∧ bitsAt (0x1B1 : BitVec 26).toNat 3 1 = 0 ∧
      ((remapS 0x1B1).bank (1024 * 1 + 16 * bitsAt 0x1B1 4 6 + bitsAt 0x1B1 10 4)).owner = none := by decide +kernel
theorem witness_HostRegistersAndBar2_bar2 : physHome base (2 ^ 49) = .none ∧
    (List.range 4).all (fun i => (match physHome base (0x5_0000 + i) with | .mem _ => true | _ => false) &&
      homeKey base (0x5_0000 + i) == homeKey base 0x5_0000 + i) = true ∧ uncorrectable base 0x5_0000 1 = false := by decide +kernel
theorem test_bar2_read_unmapped : got (execHostBar2Read (2 ^ 39) 2 base) (fun t => (t.hostData.length, t.host.unmapped)) =
    some (2, anyUnmapped base (2 ^ 39) 2) := by decide +kernel
theorem test_tlbinv_unknown : got (execTlbinvVa 9 base) (fun t => (t.host.tlberr, t.raised.getD 0 0)) = some (true, 1) := by
  decide +kernel
theorem test_remapDone_floor : got (execRemapDone (remapS (BitVec.ofNat 26 (8 + 5 * 2 ^ 14)))) (fun t =>
    ((t.tower 0).floor, t.host.remapBusy)) = some (5, false) := by decide +kernel

/-! ## Ports, power -/

/-- Port 3 as given. -/
def portS (p : UlPort) : State := { base with ulports := [(3, p)] }
theorem witness_PortStepsComplete : portsFrozen base = false ∧ base.variant.hasPool = true ∧
    (base.poolports.getD 1 {}).up = false ∧ (base.ulport 3).linked = false ∧
    ((portS { state := .active, lanes := 15 }).ulport 3).linked = true ∧
    (15 : BitVec 4).getLsbD (2 : BitVec 2).toNat = true ∧ (15 : BitVec 4) ≠ (1 : BitVec 4) <<< 2 ∧
    ((portS { state := .training }).ulport 3).state = .training ∧ ((portS { state := .draining }).ulport 3).state = .draining ∧
    (∀ x ∈ base.pod, x.answer ≠ none) ∧ (1 : BitVec 4) <<< (2 : BitVec 2).toNat = 4 ∧
    ((portS { state := .degraded, lanes := 4 }).ulport 3).linked = true ∧ ({ base with poolports := [(1, ⟨true, 8, 4⟩)] } : State).poolports.getD 1 {} = ⟨true, 8, 4⟩ := by
  decide +kernel
theorem witness_PortStepsComplete_pod : let s := { base with host := { base.host with podid := 0x800 }, pod := [{ addr := 2 ^ 50 + 2 ^ 40, by_ := 0, op := .read 8 }] }
    s.host.podid.getLsbD 11 = true ∧ anyUnmapped s 0x5_0000 32 = false ∧ anyUnmapped s (2 ^ 37 - 4) 4 = true ∧
    uncorrectable s 0x5_0000 32 = false ∧ uncorrectable { s with bad := [unitOf (homeKey s 0x5_0000)] } 0x5_0000 4 = true ∧
    5 ≠ s.host.podid.toNat % 2 ^ 11 ∧
    (∀ op ∈ [PodOp.read 8, .write [1, 2], .merge [1] [3], .amo .add true 1 0, .binit 3, .binval,
      .barrive, .bexp 2, .count 0 64], 0x5_0000 % 64 + op.bytes ≤ 64) ∧
    s.pod[0]? = some { addr := 2 ^ 50 + 2 ^ 40, by_ := 0, op := .read 8 } ∧ (2 ^ 50 + 2 ^ 40 - 2 ^ 50) / 2 ^ 40 = 1 := by decide +kernel
theorem test_podRequest_amo : got (execPodRequestReceived 5 0x5_0000 (.amo .add true 7 0)
    { poke 0x5_0000 4 10 base with host := { base.host with podid := 0x800 } }) (fun t => physRead t 0x5_0000 4) = some 17 := by
  decide +kernel
/-- A flit of a number, with its CRC. -/
def flitOf (seq : BitVec 12) : Flit := { seq := seq, ack := 0, slots := 0, lines := 0, msg := 0, crc := Config.crc64 (Flit.covered ⟨seq, 0, 0, 0, 0, 0⟩) }
/-- 19 R413: number 0 follows 0xFFF. -/
theorem test_flit : ((tryFlitReceived 3 (flitOf 0) (portS { state := .active, lanes := 15 })).map fun t => (t.ulport 3).seq) = some 0 := by
  unfold tryFlitReceived
  simp only []
  rw [if_neg (by decide), if_neg (fun h => h rfl), if_pos (by decide)]
  decide
theorem witness_PortStepsComplete_flit : (flitOf 0).crc = Config.crc64 (flitOf 0).covered ∧
    ({ flitOf 0 with crc := (flitOf 0).crc + 1 } : Flit).crc ≠ Config.crc64 ({ flitOf 0 with crc := (flitOf 0).crc + 1 } : Flit).covered :=
  ⟨rfl, by show (flitOf 0).crc + 1 ≠ (flitOf 0).crc; simp⟩
theorem test_laneTrained : got (execLaneTrainingDone 3 7 5 2 (portS { state := .training })) (fun t =>
    ((t.ulport 3).state, (t.ulport 3).peer, t.raised.getD 3 0)) = some (.degraded, 5, 1) := by decide +kernel
theorem test_poolPortUp : got (execPoolPortUp 1 8 4 base) (fun t => (t.poolports.getD 1 {}).size) = some 4 := by decide +kernel

/-- The service registers with a change. -/
def svcS (f : Service → Service) : State := { base with svc := f base.svc }
theorem witness_PowerHeatAndServiceSteps : 5 < 64 * base.variant.towers ∧ base.svc.ctrl = 0 ∧ base.svc.safe = false ∧
    (base.thermOf 0).throt.getLsbD 1 = false ∧ (base.thermOf 0).hot.getLsbD 1 = false ∧
    ((svcS fun v => { v with therm := [(0, { hot := 2, throt := 2 })] }).thermOf 0).hot.getLsbD 1 = true ∧
    ((svcS fun v => { v with therm := [(0, { hot := 2, throt := 2 })] }).thermOf 0).throt.getLsbD 1 = true ∧
    4 < (base.tower 0).ways ∧ ((base.setTower 0 { ways := 4 }).tower 0).ways < 16 ∧ base.svc.powered = true ∧
    base.svc.bistBusy = false ∧ bankLive base (1024 + 16 * 2 + 3) = true ∧ (base.bank (1024 + 16 * 2 + 3)).owner = none ∧
    bankLive (base.setTower 1 { retired := [64 * 3 + 2] }) (1024 + 16 * 2 + 3) = false ∧
    (svcS fun v => { v with bistBusy := true }).svc.bistBusy = true ∧ base.svc.fwbusy = false ∧
    (svcS fun v => { v with fwbusy := true, fwcmd := 1 }).svc.fwcmd = 1 ∧
    (svcS fun v => { v with fwbusy := true, fwcmd := 1 }).svc.image = none ∧
    (svcS fun v => { v with fwbusy := true, fwcmd := 1, image := some [1] }).svc.image = some [1] ∧
    (svcS fun v => { v with ctrl := 1 }).svc.ctrl = 1 ∧ 5 < base.svc.hotAt := by decide +kernel
/-- A context with a hart bound, whose records are not committed, when power is removed; and a watchdog that finds the
controller in its safe point. -/
theorem witness_PowerHeatAndServiceSteps_off : uncommitted (unbindAll base) 1 = true ∧ base.svc.powered = true ∧
    (svcS fun v => { v with ctrl := 2 }).svc.ctrl = 2 := by decide +kernel
theorem test_hardPowerOff_lost : got (execHardPowerOff base) (fun t => ((t.ctxs.get? 1).map (·.state), t.svc.powered)) =
    some (some .lost, false) := by decide +kernel
/-- A component that no image names: the one part of the commit's checks that rests on no opaque value. -/
theorem test_fwCommit_component : got (execFwCommit (svcS fun v => { v with fwcomp := 9 })) (fun t => t.svc.fwresult) = some 3 := by
  decide +kernel
/-- FIPS 180-4: the digest of the message "abc". -/
theorem test_sha256 : sha256 [0x61, 0x62, 0x63] = 0xBA7816BF_8F01CFEA_414140DE_5DAE2223_B00361A3_96177A9C_B410FF61_F20015AD := by
  decide +kernel
theorem test_watchdog : got (execWatchdogExpiry (svcS fun v => { v with restarts := 0xFFFF })) (fun t => (t.svc.restarts, t.svc.ctrl, (t.core 5).requests)) =
    some (0xFFFF, 1, 32) := by decide +kernel
theorem test_throttle : got (execThrottleTrip 0 1 base) (fun t => ((t.thermOf 0).throt, (t.core 5).halfRate, (t.core 9).halfRate)) =
    some (2, true, false) := by decide +kernel
theorem test_deviceReset : got (execDeviceReset base) (fun t => ((t.hart 0).life, t.svc.hotAt)) = some (.free, 95) := by decide +kernel

/-- While the device runtime is committed a trap to S waits, and a delegated one does not (20 R427). -/
def pausedS (u : Bool) : State :=
  { (base.modHart 0 fun h => { h with tdeleg := 0x10_0000, tstat := { h.tstat with uie := u }, u := { h.u with tvec := 0x800 } })
    with svc := { base.svc with fwbusy := true, fwcmd := 1, fwcomp := 3 } }
theorem test_trap_waits_for_runtime :
    got (exec (.trap 7) (pausedS false)) (fun t => ((t.hart 0).life, (t.hart 0).pc)) = some (.stalled, 0x1_0004) ∧
    got (exec (.trap 7) (pausedS true)) (fun t => ((t.hart 0).life, (t.hart 0).pc)) = some (.ready, 0x800) := by
  decide +kernel
/-- 18 R400, R402; 20 R424: DONE, LOG2N and RESTARTS at reset and after a restart. -/
theorem test_registers_read : readHost State.reset 0x18 = 0x2_0000 ∧ readHost State.reset 0x28 = 8 ∧
    readHost State.reset 0x7F8 = 0 ∧ readHost State.reset 0x8008 = 0x1_0000_0000 ∧
    readHost (raiseVector State.reset 3) 0x9000 = 8 ∧ readMgmt (svcS fun v => { v with restarts := 3 }) 0 = 0x3_0000 ∧
    readMgmt (svcS fun v => { v with restarts := 3, fwbusy := true, fwcmd := 1, fwcomp := 4 }) 0 = 0 := by decide +kernel

/-! ## The step -/

/-- A hart with a pre-emption due before its next instruction, which traps or not; and a sequencer that waits. -/
theorem witness_TurnOfHart : let s := preemptS
    (s.hart 0).preemptDue = true ∧ s.asking 0 (s.hart 0) = false ∧ trapsFirst (poke 0x1_0004 4 0xFFFA6282 s) 0 = false ∧
    trapsFirst (poke 0x1_0004 4 0x2C s) 0 = true ∧ preemptReady s 0 (s.hart 0) = true ∧ (base.hart 0).preemptDue = false ∧
    (let t := (coreS (fun c => { c with job := some ⟨none, false⟩ }) (seqS [])).modHart 8 fun h => { h with preempt := true }
     (t.hart 8).preemptDue = true ∧ preemptReady t 8 (t.hart 8) = false) := by decide +kernel
theorem witness_StepRunsDecoded_stalled : let s := ((nextOf (exec (.yield false) base)).modHart 0 fun h => { h with life := .ready })
    coreChoice s 0 = some 0 ∧ (s.core 0).yielded = [(0, [])] := by decide +kernel
theorem witness_StepRunsDecoded_turns : let s : State := { base with cur := none, agenda := [.slot 0, .event (.refreshInterval 3)] }
    s.svc.powered = true ∧ s.agenda = [.slot 0, .event (.refreshInterval 3)] ∧ (s.hart 0).life = .issuing ∧
    (seqS []).svc.powered = true ∧ (((seqS []).modHart 8 fun h => { h with life := .ready }).hart 8).life = .ready ∧
    coreChoice (base.modHart 0 fun h => { h with life := .ready }) 0 = some 0 ∧ 0 < 64 * base.variant.towers ∧
    (base.core 0).lost = false ∧ encode (.refreshInterval 3) = .none := by decide +kernel
/-- A convoy of one VADD at 0x1_0004. -/
def convoyS : State := { State.reset.withFetchWord 96 (3 + 0x0000002A900C4100 * 2 ^ 32) with cur := some (.hart 0) }
theorem witness_Issued_scalar : let s := State.withFetchWord State.reset 32 0xFFFA6282
    (fetchBytes { s with cur := some (.hart 0) } (s.hart 0) (s.hart 0).pc 4).toOption.map (·.2) = some 0xFFFA6282 ∧
    (s.hart 0).slots = [] ∧ (0xFFFA6282 : Parcel).getLsbD 0 = false ∧
    (match decodeScalar 0xFFFA6282 with | .ok i => decide (i = .addi 5 6 0x7FFD) | .error _ => false) = true := by decide +kernel
theorem witness_Issued_convoy : (fetchBytes convoyS (convoyS.hart 0) (convoyS.hart 0).pc 4).toOption.map (·.2) = some 3 ∧
    (headerCheck false 3).toOption = some () ∧ (convoyS.hart 0).pc.getLsbD 2 = true ∧ headerCount 3 = 1 ∧ headerChain 3 = false ∧
    ((fetchWords convoyS (convoyS.hart 0) ((convoyS.hart 0).pc + 4) 1).toOption.map fun l => l.map (·.2)) =
      some [0x0000002A900C4100] ∧
    (match decodeSlot 3 0 0x0000002A900C4100 with | .ok i => (absentUnit convoyS.variant i).isNone | .error _ => false) = true ∧
    (convoyS.hart 0).slot = 0 := by decide +kernel
theorem witness_StepRunsDecoded_stream : let s : State := { wakeS (.bwaitt (zw 1 2)) [] with agenda := [.stream 0] }
    let t := s.modStream 0 fun st => { st with state := .running }
    (t.stream 0).state = .running ∧ (beforeWord { t with cur := some (.stream 0) } 0 (t.stream 0)).isNone = true ∧
      (match (t.stream 0).word.map decodeBank with
      | some (.ok i) => decide (i = .bwaitt (zw 1 2)) | _ => false) = true := by decide +kernel
theorem witness_StepRunsDecoded_own : let s : State := { base with agenda := [], cur := none }
    holds ((runnable s).find? fun p => decide (agentOrder s.cur ≤ p.1)) (fun p =>
      (match step { s with agenda := [p.2.2] } with | .next _ => true | _ => false)) = true := by decide +kernel
/-- The first step after reset runs the word that is placed: a parcel, a convoy, a bank word. -/
theorem test_withFetchWord : got (step (State.reset.withFetchWord 32 0xFFFA6282)) (xr 5) = some (2 ^ 64 - 3) ∧
    got (step (State.reset.withFetchWord 96 (3 + 0x0000002A900C4100 * 2 ^ 32))) (fun t => (t.hart 0).instret) = some 1 ∧
    got (step (State.reset.withFetchWord 64 0xFFFFFFFC00600030)) (fun t => (t.bank 0).b[3]) = some (0xFFFFFFFFFFFFFFFE) := by
  decide +kernel

/-! ## Words -/

theorem witness_EncodeDecodeRoundTrip : (Instr.addi 5 6 0x7FFD).wf = true ∧ encode (.addi 5 6 0x7FFD) = .parcel 0xFFFA6282 ∧
    (Instr.vadd ⟨1, 2, 3, 0, 9, true, 2, true, 0, 0, 0, 0⟩).wf = true ∧
    encode (.vadd ⟨1, 2, 3, 0, 9, true, 2, true, 0, 0, 0, 0⟩) = .slot 0 0x0000002A900C4100 ∧ headerUnit 3 0 = 0 ∧
    headerUnit 0x23 0 = 1 ∧ (Instr.bnop (zw 0 0)).wf = true ∧ encode (.bnop (zw 0 0)) = .bank 0x3B ∧
    (0xFFFA6282 : Parcel).getLsbD 0 = false := by decide +kernel
theorem witness_StepKeepsMemoryCanonical : State.reset.Canonical ∧
    (match step (State.reset.withFetchWord 32 0xFFFA6282) with | .next _ => true | _ => false) = true :=
  ⟨by unfold State.Canonical; decide +kernel, by decide +kernel⟩

/-- 05, 10, 11: words of the examples. -/
theorem test_decode_examples :
    decodeSlot 0xA3 0 0x0001_0086_9000_A600 = .ok (.vxqadd ⟨6, 5, 0, 0, 9, true, 1, false, 2, 0, 0, 1⟩) ∧
    decodeBank 0x0000_0000_0000_1208 = .ok (.radd ⟨2, 0, 1, false, false, 0, 0, 0, 0, 0⟩) ∧
    decodeBank 0x0000_0002_0000_0101 = .ok (.pre ⟨1, 0, 0, false, false, 0, 0, 0, 0, 1⟩) ∧
    decodeBank 0x0064_0000_0000_0105 = .ok (.rcopy ⟨1, 0, 0, false, false, 0, 0, 0, 0, 0x320000⟩) ∧
    decodeBank 0x0000_0184_0000_0028 = .ok (.shmov ⟨0, 0, 0, false, false, 0, 0, 0, 0, 0xC2⟩) ∧
    decodeBank 0x0000_0086_0000_0429 = .ok (.bufst ⟨0, 1, 0, false, false, 0, 0, 0, 0, 0x43⟩) ∧
    decodeBank 0x0000_FFC0_0080_0033 = .ok (.bloop ⟨0, 0, 0, false, false, 0, 4, 0, 0, 0x7FE0⟩) ∧
    decodeBank 0x0000_FF82_6400_0032 = .ok (.bbr ⟨0, 0, 0, false, false, 0, 0, 2, 3, 0x7FC1⟩) :=
  ⟨rfl, rfl, rfl, rfl, rfl, rfl, rfl, rfl⟩
/-- Words of the units without an example, field by field by 03 R83. -/
theorem test_decode_units :
    decodeSlot 0x43 0 (1 * 2 ^ 8 + 2 * 2 ^ 13 + 3 * 2 ^ 18 + 9 * 2 ^ 28 + 9 * 2 ^ 38) = .ok (.vfadd ⟨1, 2, 3, 0, 9, false, 0, false, 9, 0, 0, 0⟩) ∧
    decodeSlot 0x83 0 (8 + 1 * 2 ^ 8 + 2 * 2 ^ 13 + 3 * 2 ^ 18 + 9 * 2 ^ 28 + 2 * 2 ^ 38 + 1 * 2 ^ 43) =
      .ok (.vredsum ⟨1, 2, 3, 0, 9, false, 0, false, 2, 1, 0, 0⟩) ∧
    decodeSlot 0xC3 0 (2 + 9 * 2 ^ 28 + 9 * 2 ^ 38 + 3 * 2 ^ 48) = .ok (.vzera ⟨0, 0, 0, 0, 9, false, 0, false, 9, 0, 0, 3⟩) ∧
    decodeSlot 0xE3 0 (1 * 2 ^ 8 + 3 * 2 ^ 13 + 9 * 2 ^ 28 + 2 * 2 ^ 38) = .ok (.srd ⟨1, 3, 0, 0, 9, false, 0, false, 2, 0, 0, 0⟩) ∧
    (match decodeSlot 0xE3 0 (1 * 2 ^ 8 + 4 * 2 ^ 13 + 9 * 2 ^ 28 + 2 * 2 ^ 38) with | .ok _ => true | .error _ => false) = false :=
  ⟨rfl, rfl, rfl, rfl, rfl⟩

/-! ## Ill-formed instructions -/

theorem test_wf_refuses_scalar : (Instr.ld 5 6 0 3 true 0).wf = false ∧ (Instr.amoadd 1 2 3 0 6 false).wf = false ∧
    (Instr.cas 1 2 3 0 7 false).wf = false ∧ (Instr.fence 0 6).wf = false ∧ (Instr.setvl 1 2 15).wf = false ∧
    (Instr.setvlDistance 1 2 3 30).wf = false ∧ (Instr.cpw 10 1).wf = false ∧ (Instr.tlwait 1 2 6).wf = false ∧
    (Instr.bwait 1 6).wf = false ∧ (Instr.gsync 0 7).wf = false := by decide +kernel
/-- An operation on a type outside its row, a merge with POL, TE on an unread source, a set field that is unused, SR for
an operation without it, an element offset with a source, and a stream register above 3. -/
theorem test_wf_refuses_vector : (Instr.vadd (vw 8)).wf = false ∧ (Instr.vadd { vw 0 with vs3 := 1 }).wf = false ∧
    (Instr.vmerge { vw 0 with me := true, pol := true }).wf = false ∧ (Instr.vmerge (vw 0)).wf = false ∧
    (Instr.vadd { vw 0 with te := 4 }).wf = false ∧ (Instr.vadd { vw 0 with mp := 1 }).wf = false ∧
    (Instr.vfmin { vw 9 with rm := 1 }).wf = false ∧ (Instr.vfadd { vw 9 with rm := 2 }).wf = false ∧
    (Instr.vfadd (vw 0)).wf = false ∧ (Instr.vidx (vw 0)).wf = false ∧ (Instr.vcmp { vw 0 with vd := 8 }).wf = false ∧
    (Instr.pand { vw 0 with vd := 8 }).wf = false ∧ (Instr.pset { vw 0 with vs1 := 1 }).wf = false ∧
    (Instr.pcnt { vw 0 with imm := 1 }).wf = false ∧ (Instr.vmovx { vw 0 with vs2 := 3 }).wf = false ∧
    (Instr.vnarrow { vw1 0 with imm := 0x40 }).wf = false ∧ (Instr.vwadd (vw 9)).wf = false ∧
    (Instr.vfcmp { vw1 9 with imm := 8 }).wf = false ∧ (Instr.vfcvt { vw0 9 with vs2 := 1 }).wf = false := by decide +kernel
theorem test_wf_refuses_memory : (Instr.vld (vw 2)).wf = false ∧ (Instr.vlds (vw 2)).wf = false ∧
    (Instr.vldx { vw 2 with vs3 := 1 }).wf = false ∧ (Instr.vst { vw1 2 with me := true, pol := true }).wf = false ∧
    (Instr.vldff { vw1 15 with imm := 0 }).wf = false ∧ (Instr.vperm { vw 2 with imm := 1 }).wf = false ∧
    (Instr.vcompress (vw1 2)).wf = false ∧ (Instr.vredsum (vw 9)).wf = false ∧ (Instr.vfredsum { vw 9 with rm := 1 }).wf = false ∧
    (Instr.vxqmax { vw1 2 with rm := 1 }).wf = false ∧ (Instr.vinsa { vw1 9 with vd := 1 }).wf = false ∧
    (Instr.vexta { vw0 9 with vs1 := 1 }).wf = false ∧ (Instr.vzera { vw0 9 with vd := 1 }).wf = false ∧
    (Instr.srd { vw0 2 with vs1 := 4 }).wf = false ∧ (Instr.srstat { vw0 2 with vs1 := 1 }).wf = false := by decide +kernel
theorem test_wf_refuses_matrix : (Instr.mzero (mw 0 0 0)).wf = false ∧ (Instr.mtld (mw 0 0 0)).wf = false ∧
    (Instr.mma (mw 31 8 0)).wf = false ∧ (Instr.mqrank (mw 0 0 2)).wf = false ∧ (Instr.mthdr (mw 15 0 0)).wf = false := by
  decide +kernel
theorem test_wf_refuses_bank : (Instr.bnop (bw 0)).wf = false ∧ (Instr.radd { bw 0 with ty := 15 }).wf = false ∧
    (Instr.act { zw 0 0 with bs2 := 1 }).wf = false ∧ (Instr.bbr { zw 0 0 with imm := 7 }).wf = false ∧
    (Instr.shmov { zw 0 0 with imm := 3 }).wf = false := by decide +kernel
theorem test_wf_refuses_steps : (Instr.refreshInterval 8192).wf = false ∧ (Instr.tacuElapsed 0 4).wf = false ∧
    (Instr.streamYield 2048).wf = false ∧ (Instr.hartWake 4608).wf = false ∧ (Instr.gatherDelivered 0 32).wf = false ∧
    (Instr.transferOpStart 0 64 1).wf = false ∧ (Instr.lamDeadline 8 0).wf = false ∧ (Instr.registerWrite false 4 0).wf = false ∧
    (Instr.hostBar2Read (2 ^ 40) 1).wf = false ∧ (Instr.poolPortUp 2 0 0).wf = false ∧ (Instr.ulportEnable 36).wf = false ∧
    (Instr.hotTrip 0 4).wf = false ∧ (Instr.hartResume 0 68 0).wf = false ∧ (Instr.ordinaryAccess 0 0 4096).wf = false := by
  decide +kernel

end Sys2Proof.Tests
end

section
/-! Every step keeps memory canonical (O60): one lemma per operation of the model, in the order of the model's files,
up to `exec`, `turn` and `step`. Only the writes of Laws/Memory touch memory; every other operation updates other
fields (`State.Canonical.update`) or is composed of operations already treated. A result that may stop, fault or
answer no state is carried by a predicate on it (`Ends`, `Out.Canonical`, `SomeCanonical`, `OkCanonical`), whose
rules follow the shapes in which the model writes its bodies. -/
namespace Sys2Proof.Machine

/-! ## Results that hold states -/

/-- An update of any other fields leaves memory canonical. -/
theorem State.Canonical.update {s : State} (hs : s.Canonical) {variant : Variant} {bad lostAt : List Nat}
    {harts : NatMap Hart} {cores : NatMap Core} {banks : NatMap Bank} {streams : NatMap Stream}
    {towers : NatMap Tower} {ctxs : NatMap Context} {kernels : NatMap Kernel} {groups : NatMap Group}
    {fresh poolAt rounds free : Nat} {rotation : List (Nat × Nat)} {keptCores keptBanks : NatMap Want}
    {host : HostRegs} {ulports : NatMap UlPort} {poolports : NatMap PoolPort} {svc : Service} {raised : NatMap Nat}
    {counters : NatMap (BitVec 16)} {pod : List PodLine} {podOut : Option PodReply} {hostData : List Byte}
    {cur : Option Agent} {agenda : List Activity} :
    State.Canonical ⟨variant, s.mem, bad, harts, cores, banks, streams, towers, ctxs, kernels, groups, fresh,
      rotation, keptCores, keptBanks, host, ulports, poolports, svc, raised, counters, pod, podOut, lostAt, poolAt,
      hostData, cur, agenda, rounds, free⟩ := hs

/-- Memory is canonical in the state that a stop leaves. -/
def Stop.Canonical : Stop → Prop
  | .trapIn s _ | .stall s | .wait s | .part s => s.Canonical
  | .trap _ | .pod .. => True

/-- Memory is canonical in the state in which an instruction's body stops, and `p` holds of what it answers
otherwise. -/
def Ends {α : Type} (p : α → Prop) : Except Stop α → Prop
  | .ok a => p a
  | .error e => e.Canonical

/-- Memory is canonical in the next state, if there is one. -/
def Out.Canonical : Out → Prop
  | .next t => t.Canonical
  | _ => True

/-- Memory is canonical in the state after a device step that can come about. -/
def SomeCanonical : Option State → Prop
  | some t => t.Canonical
  | none => True

/-- Memory is canonical in the state after an engine's part of an operation that goes through. -/
def OkCanonical {ε : Type} : Except ε State → Prop
  | .ok t => t.Canonical
  | .error _ => True

section
variable {α β ε : Type} {s t : State} {p : α → Prop} {q : β → Prop}

theorem State.Canonical.ite {c : Prop} {_ : Decidable c} (h : s.Canonical) (h' : t.Canonical) :
    (if c then s else t).Canonical := by
  split
  · exact h
  · exact h'

theorem Ends.ite {c : Prop} {_ : Decidable c} {r r' : Except Stop α} (h : Ends p r) (h' : Ends p r') :
    Ends p (if c then r else r') := by
  split
  · exact h
  · exact h'
theorem Ends.ok {a : α} (h : p a) : Ends p (.ok a) := h
theorem Ends.error {e : Stop} (h : e.Canonical) : Ends p (.error e : Except Stop α) := h
theorem Ends.pure {a : α} (h : p a) : Ends p (Pure.pure a) := h
theorem Ends.raise (c : Nat) (v1 v2 : Word) : Ends p (raise c v1 v2) := trivial
theorem Ends.of_ok {r : Except Stop α} (h : Ends p r) {a : α} (e : r = .ok a) : p a := by
  subst e; exact h
theorem Ends.of_error {r : Except Stop α} (h : Ends p r) {x : Stop} (e : r = .error x) : x.Canonical := by
  subst e; exact h
theorem Ends.bind {r : Except Stop α} {f : α → Except Stop β} (h : Ends p r) (hf : ∀ a, p a → Ends q (f a)) :
    Ends q (r >>= f) := by
  cases r with
  | ok a => exact hf a h
  | error e => exact h
theorem Ends.bind_raise {f : α → Except Stop β} {c : Nat} {v1 v2 : Word} : Ends q (Machine.raise c v1 v2 >>= f) :=
  trivial
theorem Ends.bind_pure {a : α} {f : α → Except Stop β} (h : Ends q (f a)) :
    Ends q ((Pure.pure a : Except Stop α) >>= f) := h
theorem Ends.map {r : Except Stop α} {f : α → β} (h : Ends p r) (hf : ∀ a, p a → q (f a)) : Ends q (r.map f) := by
  cases r with
  | ok a => exact hf a h
  | error e => exact h

theorem Out.Canonical.ite {c : Prop} {_ : Decidable c} {o o' : Out} (h : o.Canonical) (h' : o'.Canonical) :
    Out.Canonical (if c then o else o') := by
  split
  · exact h
  · exact h'
theorem Out.Canonical.next (w : t.Canonical) : Out.Canonical (.next t) := w
theorem Out.Canonical.of_next {o : Out} (h : o.Canonical) (e : o = .next t) : t.Canonical := by
  subst e; exact h

theorem SomeCanonical.ite {c : Prop} {_ : Decidable c} {o o' : Option State} (h : SomeCanonical o)
    (h' : SomeCanonical o') : SomeCanonical (if c then o else o') := by
  split
  · exact h
  · exact h'
theorem SomeCanonical.some (w : t.Canonical) : SomeCanonical (.some t) := w
theorem SomeCanonical.none : SomeCanonical .none := trivial
theorem SomeCanonical.of_some {o : Option State} (h : SomeCanonical o) (e : o = .some t) : t.Canonical := by
  subst e; exact h
theorem SomeCanonical.getD {o : Option State} (h : SomeCanonical o) (w : s.Canonical) : (o.getD s).Canonical := by
  cases o with
  | none => exact w
  | some t => exact h
theorem SomeCanonical.bind {o : Option State} {f : State → Option State} (h : SomeCanonical o)
    (hf : ∀ s, s.Canonical → SomeCanonical (f s)) : SomeCanonical (o.bind f) := by
  cases o with
  | none => trivial
  | some t => exact hf t h
theorem SomeCanonical.map {o : Option α} {f : α → State} (hf : ∀ a, o = .some a → (f a).Canonical) :
    SomeCanonical (o.map f) := by
  cases o with
  | none => trivial
  | some a => exact hf a rfl
theorem SomeCanonical.foldl {l : List β} {f : Option State → β → Option State}
    (hf : ∀ o b, SomeCanonical o → SomeCanonical (f o b)) {o : Option State} (h : SomeCanonical o) :
    SomeCanonical (l.foldl f o) := by
  induction l generalizing o with
  | nil => exact h
  | cons b l ih => exact ih (hf o b h)

theorem OkCanonical.ite {c : Prop} {_ : Decidable c} {r r' : Except ε State} (h : OkCanonical r)
    (h' : OkCanonical r') : OkCanonical (if c then r else r') := by
  split
  · exact h
  · exact h'
theorem OkCanonical.ok (w : t.Canonical) : OkCanonical (.ok t : Except ε State) := w
theorem OkCanonical.error {e : ε} : OkCanonical (.error e) := trivial
theorem OkCanonical.of_ok {r : Except ε State} (h : OkCanonical r) (e : r = .ok t) : t.Canonical := by
  subst e; exact h
theorem OkCanonical.map {r : Except ε State} {f : State → State} (h : OkCanonical r)
    (hf : ∀ s, s.Canonical → (f s).Canonical) : OkCanonical (r.map f) := by
  cases r with
  | ok a => exact hf a h
  | error e => exact h
theorem OkCanonical.bind {r : Except ε State} {f : State → Except ε State} (h : OkCanonical r)
    (hf : ∀ s, s.Canonical → OkCanonical (f s)) : OkCanonical (r.bind f) := by
  cases r with
  | ok a => exact hf a h
  | error e => exact h
theorem OkCanonical.foldl {l : List β} {f : Except ε State → β → Except ε State}
    (hf : ∀ r b, OkCanonical r → OkCanonical (f r b)) {r : Except ε State} (h : OkCanonical r) :
    OkCanonical (l.foldl f r) := by
  induction l generalizing r with
  | nil => exact h
  | cons b l ih => exact ih (hf r b h)
end

/-- A fold that carries something beside the state. -/
theorem Canonical_foldl_fst {α β : Type} (l : List β) (f : State × α → β → State × α)
    (hf : ∀ a b, a.1.Canonical → (f a b).1.Canonical) {a : State × α} (w : a.1.Canonical) :
    (l.foldl f a).1.Canonical := by
  induction l generalizing a with
  | nil => exact w
  | cons b l ih => exact ih (hf a b w)

theorem Canonical_comes {s : State} {o : Option State} (h : SomeCanonical o) (w : s.Canonical) :
    (comes s o).Canonical := h.getD w

theorem Canonical_nextOf {o : Out} (h : o.Canonical) : SomeCanonical (nextOf o) := by
  cases o with
  | next t => exact h
  | _ => trivial

/-- The beginning of a bank word in a bank keeps memory canonical. -/
def BankWord.Canonical (w : BankWord) : Prop := ∀ s key t, s.Canonical → (w.begin_ s key t).Canonical

/-- Memory is canonical where the output of a lamination operation is written, or stops. -/
def LamCanonical : Except (XStop × State) State → Prop
  | .ok t => t.Canonical
  | .error e => e.2.Canonical

theorem LamCanonical.of_ok {r : Except (XStop × State) State} (h : LamCanonical r) {t : State} (e : r = .ok t) :
    t.Canonical := by
  subst e; exact h
theorem LamCanonical.of_error {r : Except (XStop × State) State} (h : LamCanonical r) {x : XStop} {t : State}
    (e : r = .error (x, t)) : t.Canonical := by
  subst e; exact h

/-! ## Tables of the state, and the device's own accesses -/

theorem Canonical_setHart {s : State} {k : Nat} {h : Hart} (hs : s.Canonical) : (s.setHart k h).Canonical :=
  hs.update

theorem Canonical_setCore {s : State} {c : Nat} {x : Core} (hs : s.Canonical) : (s.setCore c x).Canonical :=
  hs.update

theorem Canonical_setBank {s : State} {b : Nat} {x : Bank} (hs : s.Canonical) : (s.setBank b x).Canonical :=
  hs.update

theorem Canonical_setStream {s : State} {i : Nat} {x : Stream} (hs : s.Canonical) :
    (s.setStream i x).Canonical := hs.update

theorem Canonical_setTower {s : State} {t : Nat} {x : Tower} (hs : s.Canonical) :
    (s.setTower t x).Canonical := hs.update

theorem Canonical_setCtx {s : State} {c : Nat} {x : Context} (hs : s.Canonical) : (s.setCtx c x).Canonical :=
  hs.update

theorem Canonical_setKernel {s : State} {k : Nat} {x : Kernel} (hs : s.Canonical) :
    (s.setKernel k x).Canonical := hs.update

theorem Canonical_setGroup {s : State} {g : Nat} {x : Group} (hs : s.Canonical) :
    (s.setGroup g x).Canonical := hs.update

/-! ## Registers, faults, traps and the ends of instructions -/

theorem Canonical_modHart {s : State} {k : Nat} {f : Hart → Hart} (hs : s.Canonical) :
    (s.modHart k f).Canonical := Canonical_setHart hs

theorem Canonical_wrX {s : State} {k : Nat} {r : Reg} {v : Word} (hs : s.Canonical) :
    (s.wrX k r v).Canonical := Canonical_modHart hs

theorem Canonical_leaveOrders {s : State} {k : Nat} (hs : s.Canonical) : (s.leaveOrders k).Canonical :=
  .ite (Canonical_setCore hs) hs

theorem Canonical_leaveAsks {s : State} {who : Nat} (hs : s.Canonical) : (s.leaveAsks who).Canonical :=
  .ite hs.update hs

theorem Canonical_leavePods {s : State} {k : Nat} (hs : s.Canonical) : (s.leavePods k).Canonical :=
  Canonical_leaveAsks hs

theorem Canonical_takeTrap {s : State} {k : Nat} {t : Trap} (hs : s.Canonical) : (s.takeTrap k t).Canonical :=
  .ite (Canonical_modHart hs) (Canonical_modHart (Canonical_leaveOrders (Canonical_leavePods hs)))

theorem Canonical_retire {s : State} {k : Nat} {pc : Word} (hs : s.Canonical) : (s.retire k pc).Canonical :=
  Canonical_modHart hs

theorem Canonical_setLife {s : State} {k : Nat} {l : Life} (hs : s.Canonical) : (s.setLife k l).Canonical :=
  Canonical_modHart hs

theorem Canonical_sendFlit {s : State} {n : Nat} (hs : s.Canonical) : (sendFlit s n).Canonical := hs.update

theorem Canonical_askPod {s : State} {who addr : Nat} {op : PodOp} {va : Word} {mode : Nat}
    (hs : s.Canonical) : (s.askPod who addr op va mode).Canonical := .ite hs (Canonical_sendFlit hs.update)

theorem Canonical_stop {s : State} {k : Nat} {r : Stop} (hs : s.Canonical) (hr : r.Canonical) :
    (s.stop k r).Canonical := by
  cases r with
  | trap t => exact Canonical_takeTrap hs
  | trapIn s' t => exact Canonical_takeTrap hr
  | stall s' => exact Canonical_setLife hr
  | wait s' => exact Canonical_setLife hr
  | pod a op va m => exact Canonical_setLife (Canonical_askPod hs)
  | part s' => exact Canonical_setLife hr

theorem Canonical_finishAt {s : State} {k : Nat} {r : Except Stop (State × Word)} (hs : s.Canonical)
    (hr : Ends (fun r => r.1.Canonical) r) : Out.Canonical (finishAt s k r) := by
  cases r with
  | ok r => exact .next (Canonical_retire hr)
  | error e => exact .next (Canonical_stop hs hr)

theorem Canonical_scalarOp {s : State} {f : Nat → Hart → Except Stop State} (hs : s.Canonical)
    (hf : ∀ k h, Ends State.Canonical (f k h)) : Out.Canonical (scalarOp s f) := by
  unfold scalarOp
  split
  · exact Canonical_finishAt hs ((hf _ _).map fun _ h => h)
  · trivial

theorem Canonical_jumpOp {s : State} {f : Nat → Hart → Except Stop (State × Word)} (hs : s.Canonical)
    (hf : ∀ k h, Ends (fun r => r.1.Canonical) (f k h)) : Out.Canonical (jumpOp s f) := by
  unfold jumpOp
  split
  · exact Canonical_finishAt hs (hf _ _)
  · trivial

theorem Canonical_writeOp {s : State} {d : Reg} {f : Hart → Word} (hs : s.Canonical) :
    Out.Canonical (writeOp s d f) := Canonical_scalarOp hs (fun _ _ => .ok (Canonical_wrX hs))

theorem Canonical_setQueueState {s : State} {c q : Nat} {x : QueueState} (hs : s.Canonical) :
    (setQueueState s c q x).Canonical := by
  unfold setQueueState
  split
  · exact hs
  · split
    · exact hs
    · dsimp only
      split
      · exact Canonical_physWrite _ _ _ hs
      · exact Canonical_setCtx (Canonical_physWrite _ _ _ hs)

theorem Canonical_setCtxState {s : State} {c : Nat} {x : CtxState} (hs : s.Canonical) :
    (setCtxState s c x).Canonical := by
  unfold setCtxState
  split
  · exact hs
  · refine Canonical_foldl _ _ (fun _ _ ht => ?_) (Canonical_physWrite _ _ _ (Canonical_setCtx hs))
    dsimp only
    split
    iterate 7 exact Canonical_setQueueState ht
    · exact ht

theorem Canonical_raiseVector {s : State} {v : Nat} (hs : s.Canonical) : (raiseVector s v).Canonical := hs.update

theorem Canonical_faultRecord {s : State} {c : Nat} {bytes : List Byte} (hs : s.Canonical) :
    (faultRecord s c bytes).Canonical := by
  unfold faultRecord
  split
  · exact hs
  · extract_lets rd wr units free s1 s2 s3 drop s4
    have h3 : s3.Canonical :=
      Canonical_setCtx (Canonical_physWrite _ _ _ (Canonical_foldl _ _ (fun _ _ ht => Canonical_store _ _ _ ht) hs))
    have h4 : s4.Canonical := Canonical_physWrite _ _ _ hs
    refine .ite (.ite (Canonical_raiseVector h3) h3) ?_
    split
    iterate 3 exact Canonical_setCtxState h4
    · exact h4

theorem Canonical_podDone {s : State} {who pa : Nat} (hs : s.Canonical) : (podDone s who pa).Canonical :=
  .ite hs hs.update

theorem Canonical_podTaken {s : State} {who pa : Nat} {op : PodOp} (hs : s.Canonical) :
    (podTaken s who pa op).Canonical := .ite hs hs.update

theorem Canonical_podUsed {s : State} {pa : Nat} (hs : s.Canonical) : (podUsed s pa).Canonical := Canonical_podDone hs

theorem Canonical_hartAddr {s : State} {h : Hart} {va : Word} {n : Nat} {k : Acc} {idx : Nat}
    {op : PodOp} : Ends (fun _ => True) (hartAddr s h va n k idx op) := by
  unfold hartAddr
  dsimp only
  split
  · split
    · exact .error trivial
    · exact .raise _ _ _
    · exact .ok trivial
  · refine .ite (.raise _ _ _) ?_
    split
    · exact .raise _ _ _
    · split
      · exact .raise _ _ _
      · split
        · exact .raise _ _ _
        · exact .ite (.error trivial) (.ok trivial)

theorem Canonical_arm {s : State} {k pa : Nat} (hs : s.Canonical) : (s.arm k pa).Canonical :=
  Canonical_modHart hs

theorem Canonical_countFrame {s : State} {pa : Nat} (hs : s.Canonical) : (countFrame s pa).Canonical :=
  .ite hs (.ite (.ite (.ite (Canonical_raiseVector ((Canonical_physWrite _ _ _ hs.update).update))
    ((Canonical_physWrite _ _ _ hs.update).update)) hs.update.update) hs.update)

theorem Canonical_countHart {s : State} {l : Leaf} (hs : s.Canonical) : (countHart s l).Canonical :=
  .ite (.ite (Canonical_countFrame hs.update) hs.update) hs

theorem Canonical_hartLoad {s : State} {h : Hart} {va : Word} {n : Nat} {k : Acc} {idx : Nat}
    {op : PodOp} : Ends (fun _ => True) (hartLoad s h va n k idx op) := by
  unfold hartLoad
  split
  · next e => exact .error (Canonical_hartAddr.of_error e)
  · exact .ite (.raise _ _ _) (.ok trivial)

theorem Canonical_hartStore {s : State} {k : Nat} {l : Leaf} {bytes : List Byte} {own : Bool} (hs : s.Canonical) :
    (hartStore s k l bytes own).Canonical := Canonical_podUsed (Canonical_store _ _ _ (Canonical_countHart hs))

theorem Canonical_settleCtx {s : State} {c : Nat} (hs : s.Canonical) : (settleCtx s c).Canonical := by
  unfold settleCtx
  split
  · exact .ite (.ite hs (Canonical_setCtxState hs)) hs
  · exact hs

theorem Canonical_setMember {s : State} {gid n : Nat} {m : Member} (hs : s.Canonical) :
    (setMember s gid n m).Canonical := by
  unfold setMember
  split
  · exact hs
  · exact Canonical_setGroup hs

theorem Canonical_parkFree {s : State} {c : Nat} {offs : List Nat} (hs : s.Canonical) :
    (parkFree s c offs).Canonical := by
  unfold parkFree
  split
  · exact Canonical_setCtx hs
  · exact hs

theorem Canonical_endGroup {s : State} {gid : Nat} (hs : s.Canonical) : (endGroup s gid).Canonical := by
  unfold endGroup
  split
  · exact hs
  · extract_lets members s1 s2
    have h1 : s1.Canonical := Canonical_foldl _ _ (fun _ _ ht => Canonical_foldl _ _
      (fun _ _ ht => .ite (Canonical_setHart (Canonical_leavePods ht)) ht) (Canonical_setCore ht)) hs
    refine Canonical_setGroup ?_
    unfold s2
    split
    · exact Canonical_parkFree h1
    · exact h1

theorem Canonical_modQueueLine {s : State} {c q : Nat} {f : Timeline → Timeline} (hs : s.Canonical) :
    (modQueueLine s c q f).Canonical := by
  unfold modQueueLine
  split
  · exact hs
  · split
    · exact hs
    · exact Canonical_setCtx hs

/-! ## Integer instructions and control transfer -/

theorem Canonical_branchOp {s : State} {off : BitVec 12} {c : Hart → Bool} (hs : s.Canonical) :
    Out.Canonical (branchOp s off c) := Canonical_jumpOp hs (fun _ _ => .ok hs)

/-! ## Loads, stores, atomics and WAITE -/

theorem Canonical_execLd {d a : Reg} {_cls : BitVec 4} {size : BitVec 2} {sx : Bool} {imm : BitVec 8} {s : State}
    (hs : s.Canonical) : Out.Canonical (execLd d a _cls size sx imm s) := by
  refine Canonical_scalarOp hs fun _ _ => .ite (.raise _ _ _) ?_
  split
  · next e => exact .error (Canonical_hartLoad.of_error e)
  · exact .ok (Canonical_arm (Canonical_podUsed (Canonical_wrX (Canonical_countHart hs))))

theorem Canonical_execSt {b a : Reg} {_cls : BitVec 4} {size : BitVec 2} {imm : BitVec 8} {s : State}
    (hs : s.Canonical) : Out.Canonical (execSt b a _cls size imm s) := by
  refine Canonical_scalarOp hs fun _ _ => .ite (.raise _ _ _) ?_
  dsimp only
  split
  · next e => exact .error (Canonical_hartAddr.of_error e)
  · exact .ok (Canonical_hartStore hs)

theorem Canonical_atomicOp {s : State} {d a b : Reg} {w : Bool} {op : AmoOp} (hs : s.Canonical) :
    Out.Canonical (atomicOp s d a b w op) := by
  refine Canonical_scalarOp hs fun _ _ => .ite (.raise _ _ _) ?_
  dsimp only
  split
  · next e => exact .error (Canonical_hartLoad.of_error e)
  · refine .ok (Canonical_arm (Canonical_wrX ?_))
    split
    · exact Canonical_hartStore hs
    · exact Canonical_podUsed (Canonical_countHart hs)

theorem Canonical_execWaite {d a : Reg} {s : State} (hs : s.Canonical) : Out.Canonical (execWaite d a s) := by
  refine Canonical_scalarOp hs fun _ _ => ?_
  split
  · next e => exact .error (Canonical_hartAddr.of_error e)
  · dsimp only
    split
    · exact .ite (.ite (.ok (Canonical_wrX (Canonical_podUsed hs))) (.ite
        (.ok (Canonical_arm (Canonical_wrX (Canonical_podUsed hs)))) (.error
        (Canonical_modHart (Canonical_podUsed hs))))) (.ok (Canonical_arm (Canonical_wrX (Canonical_podUsed hs))))
    · exact .ok (Canonical_arm (Canonical_wrX (Canonical_podUsed hs)))

/-! ## CSRs, TRAP and RETT -/

theorem Canonical_csrWrite {s : State} {k n : Nat} {v : Word} (hs : s.Canonical) : (csrWrite s k n v).Canonical := by
  unfold csrWrite
  dsimp only
  split
  · split
    · exact Canonical_setCtx hs
    · exact hs
  · split
    · exact Canonical_setCtx hs
    · exact hs
  · exact (Canonical_setHart hs).update
  · exact Canonical_setHart hs

theorem Canonical_csrChecks {i : Instr} {k : Nat} {h : Hart} {n : Nat} {wr : Bool} :
    Ends (fun _ => True) (csrChecks i k h n wr) := by
  unfold csrChecks
  split
  · exact .raise _ _ _
  · exact .ite (.raise _ _ _) (.ite (.raise _ _ _) (.ite (.raise _ _ _) (.ok trivial)))

theorem Canonical_csrOp {i : Instr} {d : Option Reg} {a : Reg} {csr : BitVec 12} {f : Option (Word → Word → Word)}
    {s : State} (hs : s.Canonical) : Out.Canonical (csrOp i d a csr f s) := by
  refine Canonical_scalarOp hs fun _ _ => .ite (.error hs) ?_
  split
  · next e => exact .error (Canonical_csrChecks.of_error e)
  · refine .ok ?_
    split
    · refine Canonical_wrX ?_
      split
      · exact Canonical_csrWrite hs
      · exact hs
    · split
      · exact Canonical_csrWrite hs
      · exact hs

theorem Canonical_resumeBound {s : State} {k : Nat} (hs : s.Canonical) : (resumeBound s k).Canonical := hs.update

theorem Canonical_execRett {s : State} (hs : s.Canonical) : Out.Canonical (execRett s) :=
  Canonical_jumpOp hs (fun _ _ => .ite (.error hs) (.ite (.ok (Canonical_setHart hs)) (.ok
    (Canonical_resumeBound (Canonical_setHart hs)))))

/-! ## Barrier objects and GSYNC -/

theorem Canonical_barWrite {s : State} {pa : Nat} {b : BarObj} {by_ : Option Nat} (hs : s.Canonical) :
    (barWrite s pa b by_).Canonical := Canonical_podUsed (Canonical_store _ _ _ hs)

theorem Canonical_barAddr {s : State} {h : Hart} {va : Word} {k : Acc} {op : PodOp} :
    Ends (fun _ => True) (barAddr s h va k op) := by
  refine .ite (.raise _ _ _) (.ite (.raise _ _ _) ?_)
  split
  · split
    · exact .error trivial
    · exact .raise _ _ _
    · exact .raise _ _ _
    · exact .ok trivial
  · split
    · exact .raise _ _ _
    · exact .ite (.raise _ _ _) (.ite (.ite (.raise _ _ _) (.error trivial)) (.ite (.raise _ _ _) (.ok trivial)))

theorem Canonical_execBinit {a b : Reg} {s : State} (hs : s.Canonical) : Out.Canonical (execBinit a b s) := by
  refine Canonical_scalarOp hs fun _ _ => ?_
  dsimp only
  split
  · next e => exact .error (Canonical_barAddr.of_error e)
  · exact .ite (.raise _ _ _) (.ok (Canonical_barWrite hs))

theorem Canonical_execBinval {a : Reg} {s : State} (hs : s.Canonical) : Out.Canonical (execBinval a s) := by
  refine Canonical_scalarOp hs fun _ _ => ?_
  split
  · next e => exact .error (Canonical_barAddr.of_error e)
  · exact .ite (.raise _ _ _) (.ok (Canonical_barWrite hs))

theorem Canonical_execBarrive {d a : Reg} {s : State} (hs : s.Canonical) : Out.Canonical (execBarrive d a s) := by
  refine Canonical_scalarOp hs fun _ _ => ?_
  split
  · next e => exact .error (Canonical_barAddr.of_error e)
  · exact .ite (.raise _ _ _) (.ite (.raise _ _ _) (.ok (Canonical_wrX (Canonical_barWrite hs))))

theorem Canonical_execBexp {a b : Reg} {s : State} (hs : s.Canonical) : Out.Canonical (execBexp a b s) := by
  refine Canonical_scalarOp hs fun _ _ => ?_
  split
  · next e => exact .error (Canonical_barAddr.of_error e)
  · exact .ite (.raise _ _ _) (.ite (.raise _ _ _) (.ite (.ok (Canonical_podUsed hs)) (.ok (Canonical_barWrite hs))))

theorem Canonical_tokenTest {s : State} {h : Hart} {t : Word} :
    Ends (fun _ => True) (tokenTest s h t) := by
  unfold tokenTest
  split
  · next e => exact .error (Canonical_barAddr.of_error e)
  · exact .ite (.raise _ _ _) (.ok trivial)

theorem Canonical_execBwait {a : Reg} {scope : BitVec 3} {s : State} (hs : s.Canonical) :
    Out.Canonical (execBwait a scope s) := by
  refine Canonical_scalarOp hs fun _ _ => ?_
  split
  · next e => exact .error (Canonical_tokenTest.of_error e)
  · exact .ite (.ok (Canonical_podUsed hs)) (.error (Canonical_modHart (Canonical_podUsed hs)))

theorem Canonical_execBtest {d a : Reg} {s : State} (hs : s.Canonical) : Out.Canonical (execBtest d a s) := by
  refine Canonical_scalarOp hs fun _ _ => ?_
  split
  · next e => exact .error (Canonical_tokenTest.of_error e)
  · exact .ok (Canonical_wrX (Canonical_podUsed hs))

theorem Canonical_gbarSet {s : State} {gid : Nat} {key : Nat × Bool} {b : GBar} (hs : s.Canonical) :
    (gbarSet s gid key b).Canonical := by
  unfold gbarSet
  split
  · exact hs
  · refine .ite (Canonical_setGroup hs) ?_
    split
    · exact hs
    · exact Canonical_setKernel hs

theorem Canonical_execGsync {id : BitVec 5} {scope : BitVec 3} {s : State} (hs : s.Canonical) :
    Out.Canonical (execGsync id scope s) := by
  refine Canonical_scalarOp hs fun _ _ => .ite (.raise _ _ _) ?_
  split
  · exact .raise _ _ _
  · refine .ite (.raise _ _ _) ?_
    dsimp only
    split
    · exact .ite (.ok (Canonical_modHart hs)) (.error (Canonical_modHart hs))
    · exact .ite (.ok (Canonical_gbarSet hs)) (.error (Canonical_modHart (Canonical_gbarSet hs)))

/-! ## Launches and timelines -/

theorem Canonical_captureBar {s : State} {h : Hart} {w : Shadow} :
    Ends (fun _ => True) (captureBar s h w) := by
  refine .ite (.ok trivial) ?_
  split
  · next e => exact .error (Canonical_barAddr.of_error e)
  · exact .ok trivial

theorem Canonical_barUsed {s : State} {bar : Option BarCapture} (hs : s.Canonical) : (barUsed s bar).Canonical :=
  Canonical_podUsed hs

theorem Canonical_execCpw {idx : BitVec 5} {a : Reg} {s : State} (hs : s.Canonical) :
    Out.Canonical (execCpw idx a s) := by
  refine Canonical_scalarOp hs fun _ _ => ?_
  split
  · exact .ok (Canonical_modHart hs)
  · exact .raise _ _ _

theorem Canonical_unbindStreams {s : State} {c handle n : Nat} (hs : s.Canonical) :
    (unbindStreams s c handle n).Canonical := hs.update

theorem Canonical_execCpgo {d a : Reg} {s : State} (hs : s.Canonical) : Out.Canonical (execCpgo d a s) := by
  refine Canonical_scalarOp hs fun _ _ => ?_
  dsimp only
  split
  · exact .raise _ _ _
  · refine .ite (.raise _ _ _) (.ite (.ok (Canonical_wrX (.ite (Canonical_setCtx hs) (Canonical_unbindStreams
      (Canonical_setCtx hs))))) (.ite (.raise _ _ _) (.ite (.raise _ _ _) (.ite (.raise _ _ _) ?_))))
    split
    · exact .raise _ _ _
    · split
      · next e => exact .error (Canonical_captureBar.of_error e)
      · refine .ite (.raise _ _ _) (.ite (.error (Canonical_barUsed hs)) (.ok (Canonical_wrX ?_)))
        split
        · exact Canonical_modHart (Canonical_setCtx (Canonical_barUsed hs))
        · exact Canonical_setCtx (Canonical_barUsed hs)

theorem Canonical_execTlwait {a b : Reg} {scope : BitVec 3} {s : State} (hs : s.Canonical) :
    Out.Canonical (execTlwait a b scope s) := by
  refine Canonical_scalarOp hs fun _ _ => .ite (.raise _ _ _) ?_
  dsimp only
  split
  · exact .raise _ _ _
  · exact .ite (.raise _ _ _) (.ite (.ok hs) (.error (Canonical_modHart hs)))

theorem Canonical_execTlread {d a : Reg} {s : State} (hs : s.Canonical) : Out.Canonical (execTlread d a s) := by
  refine Canonical_scalarOp hs fun _ _ => .ite (.raise _ _ _) ?_
  split
  · exact .raise _ _ _
  · exact .ok (Canonical_wrX hs)

theorem Canonical_execMxgo {d a : Reg} {s : State} (hs : s.Canonical) : Out.Canonical (execMxgo d a s) := by
  refine Canonical_scalarOp hs fun _ _ => .ite (.raise _ _ _) ?_
  split
  · refine .ite (.raise _ _ _) (.ite (.ok (Canonical_wrX (Canonical_setCtx hs))) (.ite (.raise _ _ _)
      (.ite (.raise _ _ _) ?_)))
    split
    · next e => exact .error (Canonical_captureBar.of_error e)
    · exact .ite (.raise _ _ _) (.ite (.error (Canonical_barUsed hs)) (.ok
        (Canonical_wrX (Canonical_setCtx (Canonical_barUsed hs)))))
  · exact .raise _ _ _

theorem Canonical_hartLoads {s : State} {h : Hart} {va : Word} (n : Nat) : Ends (fun _ => True)
    (hartLoads s h va n) := by
  induction n generalizing va with
  | zero => trivial
  | succ n ih =>
    unfold hartLoads
    split
    · next e => exact .error (Canonical_hartLoad.of_error e)
    · split
      · next e => exact .error (ih.of_error e)
      · trivial

theorem Canonical_execKlaunch {d a b : Reg} {s : State} (hs : s.Canonical) : Out.Canonical (execKlaunch d a b s) := by
  refine Canonical_scalarOp hs fun _ _ => .ite (.raise _ _ _) ?_
  split
  · next e => exact .error ((Canonical_hartLoads _).of_error e)
  · dsimp only
    split
    · exact .raise _ _ _
    · split
      · exact .raise _ _ _
      · exact .ite (.raise _ _ _) (.ite (.raise _ _ _) (.ok (Canonical_wrX (Canonical_setCtx
          (Canonical_physWrite _ _ _ (Canonical_store _ _ _ (Canonical_foldl _ _ (fun _ _ ht => Canonical_podUsed
          (Canonical_countHart ht)) hs)))))))

/-! ## Operands of vector words, and the end of a slot -/

theorem Canonical_finishSlot {s : State} {k : Nat} {r : Except Stop State} (hs : s.Canonical)
    (hr : Ends State.Canonical r) : Out.Canonical (finishSlot s k r) := by
  cases r with
  | ok s' => exact .next (Canonical_modHart hr)
  | error e => exact .next (Canonical_stop hs hr)

theorem Canonical_slotOp {mk : VWord → Instr} {w : VWord} {whole : Bool} {s : State}
    {body : Nat → Hart → VWord → Except Stop State} (hs : s.Canonical)
    (hb : ∀ k h w, Ends State.Canonical (body k h w)) : Out.Canonical (slotOp mk w whole s body) := by
  unfold slotOp
  split
  · exact Canonical_finishSlot hs (.ite (.raise _ _ _) (.ite (.raise _ _ _) (hb _ _ _)))
  · trivial

theorem Canonical_vlCheck {h : Hart} {w : VWord} {bound : Nat} : Ends (fun _ => True) (vlCheck h w bound) :=
  .ite (.raise _ _ _) (.ok trivial)

theorem Canonical_endLong {k hi vl : Nat} {s : State} (hs : s.Canonical) :
    Ends State.Canonical (endLong k hi vl s) := .ite (.error (Canonical_modHart hs)) (.ok hs)

theorem Canonical_feCheck {s : State} {k : Nat} {h : Hart} {srcs : List (Reg × Bool)} {dst : Option Reg}
    (hs : s.Canonical) : Ends (fun _ => True) (feCheck s k h srcs dst) := by
  unfold feCheck
  split
  · split
    · exact .error (.ite hs (Canonical_setHart hs))
    · exact .ok trivial
  · split
    · exact .raise _ _ _
    · exact .error hs
    · split
      · exact .ite (.ok trivial) (.error hs)
      · exact .ok trivial

theorem Canonical_vecCheck {s : State} {k : Nat} {h : Hart} {w : VWord} {bound : Nat} {srcs : List (Reg × Bool)}
    {dst : Option Reg} (hs : s.Canonical) : Ends (fun _ => True) (vecCheck s k h w bound srcs dst) := by
  unfold vecCheck
  split
  · next e => exact .error (Canonical_vlCheck.of_error e)
  · split
    · next e => exact .error ((Canonical_feCheck hs).of_error e)
    · exact .ok trivial

theorem Canonical_vecWrite {s : State} {k : Nat} {h : Hart} {w : VWord} {n vl : Nat} {f : Nat → Nat × Flags}
    (hs : s.Canonical) : (vecWrite s k h w n vl f).Canonical := .ite hs (Canonical_setHart hs)

theorem Canonical_predWrite {s : State} {k : Nat} {h : Hart} {w : VWord} {vl : Nat} {f : Nat → Bool × Flags}
    (hs : s.Canonical) : (predWrite s k h w vl f).Canonical := .ite hs (Canonical_setHart hs)

/-! ## VFPU -/

theorem Canonical_vfpuOp {mk : VWord → Instr} {w : VWord} {srcs : VWord → List (Reg × Bool)}
    {f : Nat → RMode → Nat → Nat → Nat → Nat × Flags} {s : State} (hs : s.Canonical) :
    Out.Canonical (vfpuOp mk w srcs f s) := by
  refine Canonical_slotOp hs fun _ _ _ => ?_
  dsimp only
  split
  · next e => exact .error ((Canonical_vecCheck hs).of_error e)
  · exact .ok (Canonical_vecWrite hs)

theorem Canonical_execVfcmp {w : VWord} {s : State} (hs : s.Canonical) : Out.Canonical (execVfcmp w s) := by
  refine Canonical_slotOp hs fun _ _ _ => ?_
  dsimp only
  split
  · next e => exact .error ((Canonical_vecCheck hs).of_error e)
  · exact .ok (Canonical_predWrite hs)

theorem Canonical_execVfcvt {w : VWord} {s : State} (hs : s.Canonical) : Out.Canonical (execVfcvt w s) := by
  refine Canonical_slotOp hs fun _ _ _ => .ite (.raise _ _ _) ?_
  split
  · next e => exact .error ((Canonical_feCheck hs).of_error e)
  · exact .ite (.ite (.ok hs) (.ok (Canonical_setHart hs))) (.ok (Canonical_vecWrite hs))

/-! ## VXQ, VACC and VSTR -/

theorem Canonical_vxqOp {mk : VWord → Instr} {w : VWord} {srcs : VWord → List (Reg × Bool)} {ident : Nat → Nat}
    {f : Nat → RMode → Nat → Nat → Nat → Nat × Flags} {s : State} (hs : s.Canonical) :
    Out.Canonical (vxqOp mk w srcs ident f s) := by
  refine Canonical_slotOp hs fun _ _ _ => ?_
  dsimp only
  split
  · next e => exact .error ((Canonical_vecCheck hs).of_error e)
  · exact .ite (.ok hs) (Canonical_endLong (Canonical_setHart hs))

theorem Canonical_accTurn {s : State} {k n : Nat} (hs : s.Canonical) : Ends State.Canonical (accTurn s k n) :=
  .ite (.ok (Canonical_setCore hs)) (.error (Canonical_setCore hs))

theorem Canonical_accTurn_stall {s t : State} {k n : Nat} (hs : s.Canonical) (e : accTurn s k n = .error (.stall t)) :
    t.Canonical := (Canonical_accTurn hs).of_error e

theorem Canonical_vaccOp {mk : VWord → Instr} {w : VWord} {bound : Hart → VWord → Nat}
    {srcs : VWord → List (Reg × Bool)} {dst : VWord → Option Reg}
    {act : VWord → Hart → Nat → Nat → BitVec 131072 → Hart × BitVec 131072} {s : State} (hs : s.Canonical) :
    Out.Canonical (vaccOp mk w bound srcs dst act s) := by
  refine Canonical_slotOp hs fun k h w => ?_
  split
  · next e => exact .error ((Canonical_vecCheck hs).of_error e)
  · refine .ite (.raise _ _ _) (.ite (.ok hs) ?_)
    split
    · next e =>
      have ht := Canonical_accTurn_stall hs e
      refine .error (?_ : State.Canonical _)
      split
      · exact Canonical_modHart ht
      · exact ht
    · next e => exact .error ((Canonical_accTurn hs).of_error e)
    · next e => exact Canonical_endLong (Canonical_setHart (Canonical_setCore ((Canonical_accTurn hs).of_ok e)))

theorem Canonical_execSrd {w : VWord} {s : State} (hs : s.Canonical) : Out.Canonical (execSrd w s) := by
  refine Canonical_slotOp hs fun _ _ _ => ?_
  dsimp only
  split
  · next e => exact .error ((Canonical_vecCheck hs).of_error e)
  · exact .ite (.raise _ _ _) (.ite (.raise _ _ _) (.ite (.ok (Canonical_setHart hs)) (.ok (Canonical_setHart hs))))

/-! ## What every bank word shares -/

theorem Canonical_modBank {s : State} {k : Nat} {f : Bank → Bank} (hs : s.Canonical) :
    (s.modBank k f).Canonical := Canonical_setBank hs

theorem Canonical_modStream {s : State} {i : Nat} {f : Stream → Stream} (hs : s.Canonical) :
    (s.modStream i f).Canonical := Canonical_setStream hs

theorem Canonical_modTower {s : State} {t : Nat} {f : Tower → Tower} (hs : s.Canonical) :
    (s.modTower t f).Canonical := Canonical_setTower hs

theorem Canonical_beginStep {s : State} {key : Nat} {p : YieldStep} (hs : s.Canonical) :
    (beginStep s key p).Canonical := Canonical_modBank hs

theorem Canonical_beginSteps {c key : Nat} (f : Nat) {s : State} (hs : s.Canonical) :
    (beginSteps c key f s).Canonical := by
  induction f generalizing s with
  | zero => exact hs
  | succ f ih =>
    unfold beginSteps
    split
    · exact hs
    · exact ih (Canonical_modBank (Canonical_beginStep hs))

theorem Canonical_yieldsTo {s : State} {t c : Nat} (hs : s.Canonical) : (yieldsTo s t c).Canonical :=
  Canonical_foldl _ _ (fun _ _ ht => Canonical_beginSteps _ ht) hs

theorem Canonical_reach {s : State} {t c : Nat} (hs : s.Canonical) : (reach s t c).Canonical :=
  (Canonical_yieldsTo (Canonical_modTower hs)).update

theorem Canonical_noteAct {s : State} {key c : Nat} {two : Bool} (hs : s.Canonical) :
    (noteAct s key c two).Canonical := Canonical_modBank (Canonical_modTower hs)

theorem Canonical_activate {s : State} {key n row c : Nat} (hs : s.Canonical) :
    (activate s key n row c).Canonical := Canonical_modBank (Canonical_noteAct hs)

theorem Canonical_precharge {s : State} {key n c : Nat} (hs : s.Canonical) : (precharge s key n c).Canonical :=
  Canonical_modBank hs

theorem Canonical_commitSlot {s : State} {key n : Nat} (hs : s.Canonical) : (commitSlot s key n).Canonical := by
  unfold commitSlot
  dsimp only
  split
  · exact Canonical_setBank hs
  · exact Canonical_modBank (Canonical_rowWrite _ _ _ _ _ hs)
  · exact Canonical_setBank hs
  · exact hs

theorem Canonical_commitPass {s : State} {key : Nat} (hs : s.Canonical) : (commitPass s key).Canonical := by
  unfold commitPass
  dsimp only
  split
  · exact hs
  · exact Canonical_setBank hs

theorem Canonical_commitRcopy {s : State} {key n : Nat} (hs : s.Canonical) : (commitRcopy s key n).Canonical := by
  unfold commitRcopy
  split
  · exact hs
  · exact Canonical_modBank (Canonical_rowWrite _ _ _ _ _ hs)

theorem Canonical_reactivate {c key : Nat} {s : State} {n : Nat} (hs : s.Canonical) :
    (reactivate c key s n).Canonical := Canonical_activate hs

theorem Canonical_commitRefb {s : State} {key : Nat} (hs : s.Canonical) : (commitRefb s key).Canonical := by
  unfold commitRefb
  dsimp only
  split
  · exact hs
  · exact Canonical_foldl _ _ (fun _ _ ht => Canonical_reactivate ht) (Canonical_setBank hs)

theorem Canonical_commitSlots {s : State} {key : Nat} (hs : s.Canonical) : (commitSlots s key).Canonical :=
  Canonical_foldl _ _ (fun _ _ ht => .ite (Canonical_commitRcopy ht) (Canonical_commitSlot ht)) hs

theorem Canonical_settleBank {s : State} {key : Nat} (hs : s.Canonical) : (settleBank s key).Canonical :=
  Canonical_commitSlots (Canonical_commitRefb (Canonical_commitPass (Canonical_commitSlots hs)))

theorem Canonical_serveClosed {s : State} {key : Nat} {o : Ordinary} {c : Nat} (hs : s.Canonical) :
    (serveClosed s key o c).Canonical := Canonical_modBank (Canonical_noteAct hs)

theorem Canonical_freeBank {s : State} {key : Nat} (hs : s.Canonical) : (freeBank s key).Canonical :=
  Canonical_foldl _ _ (fun _ _ ht => Canonical_serveClosed ht) (Canonical_setBank hs)

theorem Canonical_flushBank {s : State} {key : Nat} (hs : s.Canonical) : (flushBank s key).Canonical :=
  Canonical_foldl _ _ (fun _ _ ht => Canonical_modBank (.ite (Canonical_rowWrite _ _ _ _ _ ht) ht))
    (Canonical_settleBank hs)

theorem Canonical_forceBank {s : State} {key : Nat} (hs : s.Canonical) : (forceBank s key).Canonical := by
  unfold forceBank
  exact Canonical_modBank (Canonical_freeBank (Canonical_flushBank hs))

theorem Canonical_freeRecord {s : State} {st : Stream} (hs : s.Canonical) : (freeRecord s st).Canonical := by
  unfold freeRecord
  split
  · exact Canonical_parkFree hs
  · exact hs

theorem Canonical_stopStream {s : State} {i : Nat} {st' : StreamState} (hs : s.Canonical) :
    (stopStream s i st').Canonical :=
  Canonical_modStream (Canonical_freeRecord (Canonical_foldl _ _ (fun _ _ ht => .ite (Canonical_forceBank ht)
    (Canonical_freeBank (Canonical_settleBank ht))) hs))

theorem Canonical_haltStream {s : State} {i : Nat} (hs : s.Canonical) : (haltStream s i).Canonical :=
  .ite (Canonical_stopStream hs) (Canonical_modStream hs)

theorem Canonical_endStream {s : State} {i : Nat} (hs : s.Canonical) : (endStream s i).Canonical := by
  unfold endStream
  split
  · exact Canonical_settleCtx (Canonical_stopStream hs)
  · exact Canonical_stopStream hs

theorem Canonical_recordKernel {s : State} {kid : Nat} {k : Kernel} {reason tile core : Nat} (hs : s.Canonical) :
    (recordKernel s kid k reason tile core).Canonical := by
  refine .ite ?_ (Canonical_faultRecord hs)
  split
  · exact Canonical_setKernel (Canonical_faultRecord hs)
  · exact Canonical_faultRecord hs

theorem Canonical_releaseBuf {s : State} {kid : Nat} (hs : s.Canonical) : (releaseBuf s kid).Canonical := hs.update

theorem Canonical_kernelFaultBut {keep : Option Nat} {s : State} {kid reason tile core : Nat} (hs : s.Canonical) :
    (kernelFaultBut keep s kid reason tile core).Canonical := by
  unfold kernelFaultBut
  split
  · exact hs
  · exact .ite (Canonical_settleCtx (Canonical_recordKernel (Canonical_modQueueLine (Canonical_releaseBuf
      (Canonical_foldl _ _ (fun _ _ ht => Canonical_endGroup ht) (Canonical_foldl _ _
      (fun _ _ ht => .ite (Canonical_haltStream ht) ht) (Canonical_setKernel hs))))))) hs

theorem Canonical_kernelFault {s : State} {kid reason tile core : Nat} (hs : s.Canonical) :
    (kernelFault s kid reason tile core).Canonical := Canonical_kernelFaultBut hs

theorem Canonical_streamFault {s : State} {i cause banks : Nat} (hs : s.Canonical) :
    (streamFault s i cause banks).Canonical := by
  unfold streamFault
  dsimp only
  split
  · exact Canonical_stopStream hs
  · exact Canonical_kernelFault (Canonical_faultRecord (Canonical_setKernel (Canonical_stopStream hs)))

theorem Canonical_transparentRefresh {t : Nat} {s : State} {key : Nat} (hs : s.Canonical) :
    (transparentRefresh t s key).Canonical := Canonical_modBank hs

theorem Canonical_bankTrap {s : State} {i c : Nat} {bs : List Nat} (hs : s.Canonical) :
    (bankTrap s i c bs).Canonical :=
  .ite (.ite (Canonical_foldl _ _ (fun _ _ ht => Canonical_transparentRefresh ht) (Canonical_modStream hs))
    (Canonical_streamFault (Canonical_modStream hs))) (Canonical_modStream (Canonical_foldl _ _
    (fun _ _ ht => Canonical_modBank ht) (Canonical_modStream hs)))

theorem Canonical_deadlineTrap {s : State} {i : Nat} {st : Stream} (hs : s.Canonical) :
    (deadlineTrap s i st).Canonical := Canonical_bankTrap hs

theorem Canonical_streamTurn {s : State} {f : Nat → Stream → State} (hf : ∀ i st, (f i st).Canonical) :
    Out.Canonical (streamTurn s f) := by
  unfold streamTurn
  split
  · exact .next (hf _ _)
  · trivial

theorem Canonical_beginIn {i t : Nat} {w : BankWord} (hw : w.Canonical) (bs : List Nat) {s : State} {done : List Nat}
    (hs : s.Canonical) : (beginIn s i t w bs done).1.Canonical := by
  induction bs generalizing s done with
  | nil => exact hs
  | cons b bs ih =>
    unfold beginIn
    split
    · split
      · exact ih (hw _ _ _ hs)
      · exact ih hs
    · exact ih hs

theorem Canonical_putOff {s : State} {i : Nat} {st : Stream} {c : Nat} {acts checked : Bool} (hs : s.Canonical) :
    (putOff s i st c acts checked).Canonical := Canonical_modStream hs

theorem Canonical_waitInPlace {s : State} {i : Nat} (hs : s.Canonical) : (waitInPlace s i).Canonical :=
  Canonical_modStream hs

theorem Canonical_progress {s : State} {i : Nat} {st : Stream} {w : BankWord} {left : List Nat} (hs : s.Canonical)
    (hw : w.Canonical) : (progress s i st w left).1.Canonical := by
  unfold progress
  split
  · exact Canonical_waitInPlace hs
  · split
    · exact Canonical_modStream (Canonical_beginIn hw _ (Canonical_reach hs))
    · exact Canonical_putOff hs

theorem Canonical_attempt {s : State} {i : Nat} {st : Stream} {w : BankWord} {fin : State → Nat → State}
    (hs : s.Canonical) (hw : w.Canonical) (hf : ∀ s t, s.Canonical → (fin s t).Canonical) :
    (attempt s i st w fin).Canonical := by
  unfold attempt
  dsimp only
  split
  · exact Canonical_putOff hs
  · split
    · exact Canonical_bankTrap (Canonical_reach hs)
    · split
      · split
        · exact hf _ _ (Canonical_reach hs)
        · exact Canonical_putOff hs
      · split
        · exact hf _ _ (Canonical_progress hs hw)
        · exact Canonical_progress hs hw

theorem Canonical_nextWord {i : Nat} {st : Stream} {s : State} {t : Nat} (hs : s.Canonical) :
    (nextWord i st s t).Canonical := Canonical_modStream hs

theorem Canonical_bankWord {s : State} {w : Nat → Stream → BankWord} (hs : s.Canonical)
    (hw : ∀ i st, (w i st).Canonical) : Out.Canonical (bankWord s w) :=
  Canonical_streamTurn fun _ _ => Canonical_attempt hs (hw _ _) fun _ _ ht => Canonical_nextWord ht

/-! ## Row words -/

theorem Canonical_laneWord {pr : Bool} {reads : List (Nat × BitVec 128)} {dest : Option Nat}
    {result : State → Nat → PassTarget} : (laneWord pr reads dest result).Canonical :=
  fun _ _ _ hs => Canonical_modBank hs

theorem Canonical_arithWord {w : BWord} {reads : List Nat} {f : State → Nat → Nat → Nat → Nat → Nat → Nat} :
    (arithWord w reads f).Canonical := Canonical_laneWord

theorem Canonical_execRow2 {w : BWord} {s : State} {f : Nat → Nat → Nat → Nat} (hs : s.Canonical) :
    Out.Canonical (execRow2 w s f) := Canonical_bankWord hs (fun _ _ => Canonical_arithWord)

theorem Canonical_accWord {w : BWord} {reads : List Nat} {f : State → Nat → Nat → Nat → Nat → Nat} :
    (accWord w reads f).Canonical := Canonical_laneWord

theorem Canonical_execQmac {w : BWord} {s : State} (hs : s.Canonical) : Out.Canonical (execQmac w s) := by
  refine Canonical_bankWord hs fun _ _ => ?_
  split <;> exact Canonical_accWord

theorem Canonical_sweepAct {w : BWord} {st : Stream} : (sweepAct w st).Canonical :=
  fun _ _ _ ht => Canonical_activate ht

theorem Canonical_sweepRow {w : BWord} {i : Nat} {st : Stream} : (sweepRow w i st).Canonical :=
  fun _ _ _ ht => .ite (Canonical_precharge ht) (Canonical_modBank ht)

theorem Canonical_sweepShut {w : BWord} : (sweepShut w).Canonical := fun _ _ _ ht => Canonical_precharge ht

theorem Canonical_sweepStep {w : BWord} {i : Nat} {st : Stream} {s : State} (hs : s.Canonical) :
    (sweepStep w i st s).Canonical := by
  unfold sweepStep
  dsimp only
  split
  · refine .ite (.ite (Canonical_nextWord (Canonical_modStream (Canonical_reach hs))) (Canonical_putOff hs)) ?_
    split
    · exact Canonical_modStream hs
    · exact .ite (Canonical_modStream hs) (Canonical_progress hs Canonical_sweepAct)
  · exact .ite (Canonical_waitInPlace hs) (.ite (Canonical_modStream hs) (.ite (Canonical_modStream hs)
      (Canonical_progress hs Canonical_sweepRow)))
  · exact .ite (Canonical_bankTrap hs) (Canonical_progress hs Canonical_sweepShut)
  · exact .ite (Canonical_modStream hs) (Canonical_progress hs Canonical_sweepShut)

theorem Canonical_execRsweep {w : BWord} {s : State} (hs : s.Canonical) : Out.Canonical (execRsweep w s) := by
  refine Canonical_streamTurn fun _ _ => .ite (Canonical_sweepStep hs) (.ite (Canonical_putOff hs) ?_)
  split
  · exact Canonical_bankTrap (Canonical_reach hs)
  · exact Canonical_sweepStep (Canonical_modStream hs)

/-! ## Movement and control words of a bank stream -/

theorem Canonical_shmovBegin {w : BWord} {i : Nat} {m : Nat × List Nat} {rest : List Nat} {t : Nat} {s : State}
    (hs : s.Canonical) : (shmovBegin w i m rest t s).Canonical :=
  Canonical_modTower (Canonical_foldl _ _ (fun _ _ ht => Canonical_modBank ht) (Canonical_foldl _ _
    (fun _ _ ht => Canonical_modBank ht) (.ite hs (Canonical_modBank hs))))

theorem Canonical_shmovStep {w : BWord} {i : Nat} {st : Stream} {ex : List Nat} {moves : List (Nat × List Nat)}
    {s : State} (hs : s.Canonical) : (shmovStep w i st ex moves s).Canonical := by
  refine .ite (Canonical_waitInPlace hs) ?_
  split
  · exact .ite (Canonical_nextWord (Canonical_modStream (Canonical_reach hs))) (Canonical_putOff hs)
  · exact .ite (.ite (.ite (Canonical_nextWord (Canonical_modStream (Canonical_shmovBegin (Canonical_reach hs))))
      (Canonical_modStream (Canonical_shmovBegin (Canonical_reach hs)))) (Canonical_putOff hs))
      (Canonical_waitInPlace hs)

theorem Canonical_execShmov {w : BWord} {s : State} (hs : s.Canonical) : Out.Canonical (execShmov w s) := by
  refine Canonical_streamTurn fun _ _ => .ite (Canonical_shmovStep hs) (.ite (Canonical_putOff hs) ?_)
  split
  · exact Canonical_bankTrap (Canonical_reach hs)
  · exact Canonical_shmovStep (Canonical_modStream hs)

theorem Canonical_controlWord {s : State} {f : Nat → Stream → Nat → State → State} (hs : s.Canonical)
    (hf : ∀ i st t s, s.Canonical → (f i st t s).Canonical) : Out.Canonical (controlWord s f) := by
  refine Canonical_streamTurn fun i st => ?_
  dsimp only
  split
  · exact hf _ _ _ _ (Canonical_reach hs)
  · exact Canonical_putOff hs

theorem Canonical_illegalWord {s : State} {i : Nat} (hs : s.Canonical) : (illegalWord s i).Canonical :=
  Canonical_bankTrap hs

theorem Canonical_bWrite {w : BWord} {s : State} {f : State → Nat → Stream → Nat → Word} (hs : s.Canonical) :
    Out.Canonical (bWrite w s f) :=
  Canonical_controlWord hs fun _ _ _ _ ht =>
    Canonical_nextWord (Canonical_foldl _ _ (fun _ _ hu => Canonical_modBank hu) ht)

theorem Canonical_goWord {i n t : Nat} {s : State} (hs : s.Canonical) : (goWord i n t s).Canonical :=
  Canonical_modStream hs

theorem Canonical_execBbr {w : BWord} {s : State} (hs : s.Canonical) : Out.Canonical (execBbr w s) := by
  refine Canonical_controlWord hs fun _ _ _ _ ht => ?_
  split
  · exact Canonical_illegalWord ht
  · exact Canonical_goWord ht

theorem Canonical_execBloop {w : BWord} {s : State} (hs : s.Canonical) : Out.Canonical (execBloop w s) := by
  refine Canonical_controlWord hs fun _ _ _ _ ht => ?_
  split
  · exact Canonical_illegalWord ht
  · exact Canonical_goWord (Canonical_foldl _ _ (fun _ _ ht => Canonical_modBank ht) ht)

theorem Canonical_execBpset {w : BWord} {s : State} (hs : s.Canonical) : Out.Canonical (execBpset w s) :=
  Canonical_controlWord hs (fun _ _ _ _ ht => Canonical_nextWord (Canonical_foldl _ _
    (fun _ _ ht => Canonical_modBank ht) ht))

theorem Canonical_setPreds {s : State} {i : Nat} {bs : BitVec 16} {f : Nat → Bool} (hs : s.Canonical) :
    (setPreds s i bs f).Canonical := Canonical_foldl _ _ (fun _ _ ht => Canonical_modBank ht) hs

theorem Canonical_execBsplit {w : BWord} {s : State} (hs : s.Canonical) : Out.Canonical (execBsplit w s) := by
  refine Canonical_controlWord hs fun _ _ _ _ ht => ?_
  split
  · exact Canonical_illegalWord ht
  · refine .ite (Canonical_illegalWord ht) (.ite (Canonical_goWord (Canonical_modStream ht)) ?_)
    split
    · exact Canonical_goWord (Canonical_modStream (Canonical_setPreds ht))
    · refine Canonical_goWord (Canonical_modStream ?_)
      dsimp only
      split
      · exact Canonical_setKernel (Canonical_foldl _ _ (fun _ _ ht => Canonical_modBank ht) (Canonical_setStream
          (Canonical_setPreds ht)))
      · exact Canonical_foldl _ _ (fun _ _ ht => Canonical_modBank ht) (Canonical_setStream (Canonical_setPreds ht))

theorem Canonical_returnBanks {s : State} {j : Nat} (hs : s.Canonical) : (returnBanks s j).Canonical := by
  unfold returnBanks
  extract_lets sec
  split
  · exact hs
  · extract_lets s1 s2 s3 s4
    have h3 : s3.Canonical := Canonical_modStream (Canonical_freeRecord (Canonical_modTower
      (Canonical_foldl _ _ (fun _ _ ht => Canonical_modBank ht) hs)))
    refine Canonical_setStream ?_
    unfold s4
    split
    · exact Canonical_setKernel h3
    · exact h3

theorem Canonical_waitStream {s : State} {i : Nat} {st : Stream} {b : Option (Nat × Nat)} (hs : s.Canonical) :
    (waitStream s i st b).Canonical := Canonical_modStream hs

theorem Canonical_joinStep {i : Nat} {st : Stream} {t : Nat} {s : State} (hs : s.Canonical) :
    (joinStep i st t s).1.Canonical := by
  unfold joinStep
  split
  · exact Canonical_illegalWord hs
  · dsimp only
    split
    · split
      · exact Canonical_illegalWord hs
      · exact Canonical_returnBanks hs
    · exact Canonical_waitStream hs
    · exact Canonical_modStream (Canonical_setPreds hs)
    · exact Canonical_modStream (Canonical_setPreds hs)

theorem Canonical_landAll {s : State} {i : Nat} (hs : s.Canonical) : (landAll s i).Canonical := Canonical_modTower hs

theorem Canonical_execBsig {_w : BWord} {s : State} (hs : s.Canonical) : Out.Canonical (execBsig _w s) :=
  Canonical_controlWord hs (fun _ _ _ _ ht => Canonical_nextWord (Canonical_modStream (Canonical_landAll ht)))

theorem Canonical_execBend {_w : BWord} {s : State} (hs : s.Canonical) : Out.Canonical (execBend _w s) :=
  Canonical_streamTurn (fun _ _ => .ite (Canonical_putOff hs) (.ite (Canonical_illegalWord (Canonical_reach hs))
    (.ite (Canonical_bankTrap (Canonical_reach hs)) (.ite (Canonical_endStream (Canonical_landAll
    (Canonical_reach hs))) (Canonical_waitInPlace hs)))))

theorem Canonical_waittStep {w : BWord} {i : Nat} {st : Stream} {t : Nat} {s : State} (hs : s.Canonical) :
    (waittStep w i st t s).1.Canonical := by
  unfold waittStep
  split
  · exact Canonical_illegalWord hs
  · dsimp only
    split
    · exact Canonical_illegalWord hs
    · split
      · exact Canonical_streamFault hs
      · split
        · exact Canonical_modStream (Canonical_nextWord hs)
        · exact Canonical_waitStream hs

theorem Canonical_execBrett {_w : BWord} {s : State} (hs : s.Canonical) : Out.Canonical (execBrett _w s) :=
  Canonical_controlWord hs (fun _ _ _ _ ht => .ite (Canonical_illegalWord ht) (Canonical_modStream
    (Canonical_foldl _ _ (fun _ _ ht => Canonical_modBank ht) ht)))

/-! ## Matrix words -/

theorem Canonical_matrixOp {w : MWord} {acc : Option Nat} {s : State} {body : Nat → Hart → Core → Except Stop MDone}
    (hs : s.Canonical) (hb : ∀ k h c, Ends (fun d => d.s.Canonical) (body k h c)) :
    Out.Canonical (matrixOp w acc s body) := by
  unfold matrixOp
  split
  · have join (f : Nat → Core) (c : Nat) : (match acc with | some n => s.setCore c (f n) | none => s).Canonical := by
      split
      · exact Canonical_setCore hs
      · exact hs
    refine Canonical_finishSlot hs (.ite (.error (join _ _)) (.ite (.error (join _ _)) ?_))
    split
    · next e => exact .error ((hb _ _ _).of_error e)
    · next e => exact .ok (Canonical_setCore ((hb _ _ _).of_ok e))
  · trivial

theorem Canonical_maquetteOp {mk : MWord → Instr} {w : MWord} {s : State}
    {body : Nat → Hart → Core → Except Stop MDone} (hs : s.Canonical)
    (hb : ∀ k h c, Ends (fun d => d.s.Canonical) (body k h c)) : Out.Canonical (maquetteOp mk w s body) := by
  unfold maquetteOp
  split
  · split
    · exact Canonical_matrixOp hs hb
    · exact Canonical_finishSlot hs (.raise _ _ _)
  · trivial

theorem Canonical_spadCheck {off n : Nat} : Ends (fun _ => True) (spadCheck off n) :=
  .ite (.raise _ _ _) (.ite (.raise _ _ _) (.ok trivial))

theorem Canonical_spadRead {s : State} {c off n : Nat} :
    Ends (fun _ => True) (spadRead s c off n) := by
  unfold spadRead
  split
  · exact .raise _ _ _
  · exact .ok trivial

theorem Canonical_readHeader {s : State} {c off : Nat} :
    Ends (fun _ => True) (readHeader s c off) := by
  unfold readHeader
  split
  · next e => exact .error (Canonical_spadRead.of_error e)
  · exact .ok trivial

theorem Canonical_headerMatches {off : Nat} {h : OpHeader} {fmt swz rows cols : Nat} :
    Ends (fun _ => True) (headerMatches off h fmt swz rows cols) :=
  .ite (.raise _ _ _) (.ite (.raise _ _ _) (.ok trivial))

theorem Canonical_tileWrite {s : State} {cn : Nat} {md : BitVec 4} {t : Tile} {srcs : List (BitVec 4)}
    (hs : s.Canonical) : Ends State.Canonical (tileWrite s cn md t srcs) :=
  .ite (.raise _ _ _) (.ok ((Canonical_setCore hs).update))

theorem Canonical_rankTrap {md : BitVec 4} {r : Nat} : Ends State.Canonical (rankTrap md r) := .raise _ _ _

theorem Canonical_tileFinish {s : State} {k : Nat} {md : BitVec 4} {srcs : List (BitVec 4)} {r : Tile × Flags}
    (hs : s.Canonical) : Ends (fun r => r.s.Canonical) (tileFinish s k md srcs r) :=
  .map (Canonical_tileWrite hs) (fun _ ht => Canonical_modHart ht)

theorem Canonical_mmaA {s : State} {c off t swz : Nat} {sp : Bool} :
    Ends (fun _ => True) (mmaA s c off t swz sp) := by
  unfold mmaA
  dsimp only
  split
  · next e => exact .error (Canonical_spadRead.of_error e)
  · exact .ite (.ok trivial) (.ok trivial)

theorem Canonical_execMma {w : MWord} {s : State} (hs : s.Canonical) : Out.Canonical (execMma w s) := by
  refine Canonical_matrixOp hs fun k h c => ?_
  extract_lets cn ta tb br kk xa xb mode acc t done f d cols read sparse checkB checkA
  have hdone (l : List Nat) (fl : Flags) (hid : Option Nat) : (done l fl hid).s.Canonical := Canonical_modHart hs
  have hread (u : Unit) : Ends (fun d => d.s.Canonical) (read u) := by
    refine .bind Canonical_readHeader fun _ _ => .bind Canonical_mmaA fun a _ => ?_
    extract_lets dense multiply
    have hmultiply (b : List (List Val)) : Ends (fun d => d.s.Canonical) (multiply b) := by
      unfold multiply
      clear_value br t
      split
      · exact .pure hs
      all_goals exact .pure (hdone _ _ _)
    exact .ite (.bind_pure (hmultiply _)) (.bind Canonical_readHeader fun _ _ => .bind Canonical_spadRead fun _ _ =>
      .bind_pure (hmultiply _))
  have hsparse (u : Unit) : Ends (fun d => d.s.Canonical) (sparse u) := .ite .bind_raise (hread ())
  have hcheckB (u : Unit) : Ends (fun d => d.s.Canonical) (checkB u) := by
    refine .ite (hsparse ()) ?_
    split
    · exact .bind Canonical_headerMatches fun _ _ => hsparse ()
    · exact hsparse ()
  have hcheckA (u : Unit) : Ends (fun d => d.s.Canonical) (checkA u) := by
    unfold checkA
    split
    · exact .bind Canonical_headerMatches fun _ _ => hcheckB ()
    · exact hcheckB ()
  exact .bind Canonical_spadCheck fun _ _ => .ite (hcheckA ()) (.bind Canonical_spadCheck fun _ _ => hcheckA ())

theorem Canonical_execMtld {w : MWord} {s : State} (hs : s.Canonical) : Out.Canonical (execMtld w s) :=
  Canonical_matrixOp hs (fun _ _ _ => .bind Canonical_spadCheck (fun _ _ => .bind Canonical_readHeader
    (fun _ _ => .bind Canonical_headerMatches (fun _ _ => .bind Canonical_spadRead (fun _ _ =>
    Canonical_tileFinish hs)))))

theorem Canonical_execMtst {w : MWord} {s : State} (hs : s.Canonical) : Out.Canonical (execMtst w s) :=
  Canonical_matrixOp hs (fun _ _ _ => .bind Canonical_spadCheck (fun _ _ => .pure
    (Canonical_modHart (Canonical_spadWrite _ _ _ (Canonical_spadWrite _ _ _ hs)))))

theorem Canonical_execMqld {w : MWord} {s : State} (hs : s.Canonical) : Out.Canonical (execMqld w s) :=
  Canonical_maquetteOp hs (fun _ _ _ => .bind Canonical_spadCheck (fun _ _ => .bind Canonical_readHeader
    (fun _ _ => .ite .bind_raise (.ite .bind_raise (.bind Canonical_spadCheck (fun _ _ => .bind Canonical_spadRead
    (fun _ _ => .ite (Canonical_tileFinish hs) (.ite (Canonical_tileFinish hs) (.map Canonical_rankTrap
    (fun _ ht => ht))))))))))

theorem Canonical_execMqst {w : MWord} {s : State} (hs : s.Canonical) : Out.Canonical (execMqst w s) :=
  Canonical_maquetteOp hs (fun _ _ _ => .ite .bind_raise (.ite .bind_raise (.bind Canonical_spadCheck
    (fun _ _ => .pure (Canonical_spadWrite _ _ _ (Canonical_spadWrite _ _ _ hs))))))

theorem Canonical_execMthdr {w : MWord} {s : State} (hs : s.Canonical) : Out.Canonical (execMthdr w s) :=
  Canonical_matrixOp hs (fun _ _ _ => .ite .bind_raise (.bind Canonical_spadCheck (fun _ _ => .pure
    (Canonical_spadWrite _ _ _ hs))))

theorem Canonical_execMqadd {w : MWord} {s : State} (hs : s.Canonical) : Out.Canonical (execMqadd w s) :=
  Canonical_maquetteOp hs (fun _ _ _ => .ite (Canonical_tileFinish hs) (.ite (Canonical_tileFinish hs)
    (.ite (Canonical_tileFinish hs) (.map Canonical_rankTrap (fun _ ht => ht)))))

theorem Canonical_execMqmul {w : MWord} {s : State} (hs : s.Canonical) : Out.Canonical (execMqmul w s) :=
  Canonical_maquetteOp hs (fun _ _ _ => .ite (Canonical_tileFinish hs) (.ite
    (.map Canonical_rankTrap (fun _ ht => ht)) (.ite (Canonical_tileFinish hs) (Canonical_tileFinish hs))))

theorem Canonical_execChisel {w : MWord} {s : State} (hs : s.Canonical) : Out.Canonical (execChisel w s) := by
  refine Canonical_maquetteOp hs fun _ _ _ => ?_
  dsimp only
  split
  · exact Canonical_tileFinish hs
  · exact .ite (Canonical_tileFinish hs) (Canonical_tileFinish hs)
  · exact .map Canonical_rankTrap (fun _ ht => ht)

/-! ## The steps of the plinth -/

theorem Canonical_haltAll {s : State} {t : Nat} (hs : s.Canonical) : (haltAll s t).Canonical :=
  Canonical_foldl _ _ (fun _ _ ht => .ite (Canonical_endStream ht) ht) hs

theorem Canonical_followUp {s : State} {t : Nat} (hs : s.Canonical) : (followUp s t).Canonical :=
  Canonical_haltAll (Canonical_yieldsTo hs)

theorem Canonical_comeAbout {s : State} {t d : Nat} {f : State → State} (hs : s.Canonical)
    (hf : ∀ s, s.Canonical → (f s).Canonical) : SomeCanonical (comeAbout s t d f) := by
  unfold comeAbout
  split
  · exact .some (Canonical_followUp (hf _ (Canonical_reach hs)))
  · exact .none

theorem Canonical_slotElapsed {bank slot : Nat} {st : SlotState} {s : State} (hs : s.Canonical) :
    SomeCanonical (slotElapsed bank slot st s) :=
  .ite (Canonical_comeAbout hs (fun _ ht => Canonical_commitSlot ht)) .none

theorem Canonical_tryTacuElapsed {bank slot : Nat} {s : State} (hs : s.Canonical) :
    SomeCanonical (tryTacuElapsed bank slot s) := Canonical_slotElapsed hs

theorem Canonical_tryTwbkElapsed {bank slot : Nat} {s : State} (hs : s.Canonical) :
    SomeCanonical (tryTwbkElapsed bank slot s) := Canonical_slotElapsed hs

theorem Canonical_tryTpreElapsed {bank slot : Nat} {s : State} (hs : s.Canonical) :
    SomeCanonical (tryTpreElapsed bank slot s) := Canonical_slotElapsed hs

theorem Canonical_tryRowPassEnd {bank : Nat} {s : State} (hs : s.Canonical) :
    SomeCanonical (tryRowPassEnd bank s) := by
  unfold tryRowPassEnd
  split
  · exact .ite .none (Canonical_comeAbout hs (fun _ ht => Canonical_commitPass ht))
  · exact .none

theorem Canonical_tryRcopyComplete {bank slot : Nat} {s : State} (hs : s.Canonical) :
    SomeCanonical (tryRcopyComplete bank slot s) := by
  unfold tryRcopyComplete
  split
  · exact Canonical_comeAbout hs (fun _ ht => Canonical_commitRcopy ht)
  · exact .none

theorem Canonical_tryRefbComplete {bank : Nat} {s : State} (hs : s.Canonical) :
    SomeCanonical (tryRefbComplete bank s) := by
  unfold tryRefbComplete
  split
  · exact Canonical_comeAbout hs (fun _ ht => Canonical_modBank (Canonical_commitRefb ht))
  · exact .none

theorem Canonical_tryBusMoveEnd {stream : Nat} {s : State} (hs : s.Canonical) :
    SomeCanonical (tryBusMoveEnd stream s) := by
  unfold tryBusMoveEnd
  split
  · exact .none
  · split
    · exact .none
    · exact Canonical_comeAbout hs (fun _ ht => Canonical_modStream (Canonical_foldl _ _
        (fun _ _ ht => Canonical_commitPass ht) ht))

theorem Canonical_tryTaprElapsed {bank slot : Nat} {s : State} (hs : s.Canonical) :
    SomeCanonical (tryTaprElapsed bank slot s) :=
  .ite (Canonical_comeAbout hs fun _ ht => ht) .none

theorem Canonical_tryTaadElapsed {bank : Nat} {s : State} (hs : s.Canonical) :
    SomeCanonical (tryTaadElapsed bank s) := by
  unfold tryTaadElapsed
  split
  · exact .ite (Canonical_comeAbout hs fun _ ht => ht) .none
  · exact .none

theorem Canonical_tryTfawWindowElapsed {tower pc : Nat} {s : State} (hs : s.Canonical) :
    SomeCanonical (tryTfawWindowElapsed tower pc s) := by
  unfold tryTfawWindowElapsed
  split
  · exact Canonical_comeAbout hs fun _ ht => ht
  · exact .none

theorem Canonical_tryPlinthBufferCrossingEnd {tower entry : Nat} {s : State} (hs : s.Canonical) :
    SomeCanonical (tryPlinthBufferCrossingEnd tower entry s) := .ite (.some (Canonical_modTower hs)) .none

theorem Canonical_tryRefreshInterval {bank : Nat} {s : State} (hs : s.Canonical) :
    SomeCanonical (tryRefreshInterval bank s) := .ite .none (Canonical_comeAbout hs (fun _ ht =>
      Canonical_modBank ht))

theorem Canonical_tryPlinthRefresh {bank : Nat} {s : State} (hs : s.Canonical) :
    SomeCanonical (tryPlinthRefresh bank s) := .ite (.some (Canonical_setBank hs)) .none

theorem Canonical_tryRefreshDeadline {stream : Nat} {s : State} (hs : s.Canonical) :
    SomeCanonical (tryRefreshDeadline stream s) := .ite (.some (Canonical_deadlineTrap hs)) .none

theorem Canonical_tryForcedRefresh {bank : Nat} {s : State} (hs : s.Canonical) :
    SomeCanonical (tryForcedRefresh bank s) := by
  unfold tryForcedRefresh
  split
  · exact .ite (.some (Canonical_streamFault hs)) .none
  · exact .none

theorem Canonical_serveFrom {s : State} {key : Nat} {o : Ordinary} {c : Nat} (hs : s.Canonical) :
    (serveFrom s key o c).1.Canonical := by
  unfold serveFrom
  dsimp only
  split
  · exact Canonical_modBank (Canonical_noteAct hs)
  · rw [apply_ite Prod.fst]
    exact .ite (Canonical_modBank hs) (Canonical_modBank (Canonical_modBank (Canonical_noteAct
      (Canonical_noteAct hs))))

theorem Canonical_serve {s : State} {key : Nat} {o : Ordinary} {c : Nat} (hs : s.Canonical) :
    (serve s key o c).1.Canonical := Canonical_modBank (Canonical_serveFrom hs)

theorem Canonical_serveAll {s : State} {i c : Nat} (hs : s.Canonical) : (serveAll s i c).1.Canonical := by
  refine Canonical_foldl_fst _ _ (fun _ _ ht => ?_) ?_
  · exact Canonical_serve ht
  · exact Canonical_foldl _ _ (fun _ _ ht => Canonical_modBank ht) hs

theorem Canonical_accept {s : State} {bank : Nat} {o : Ordinary} (hs : s.Canonical) :
    (accept s bank o).Canonical := by
  unfold accept
  dsimp only
  split
  · exact Canonical_serveClosed hs
  · split
    · exact Canonical_yieldsTo (Canonical_modStream (Canonical_serve hs))
    · exact Canonical_yieldsTo (Canonical_modStream (Canonical_serve hs))
    · exact Canonical_modStream (Canonical_modBank hs)

theorem Canonical_tryOrdinaryAccess {bank group row : Nat} {s : State} (hs : s.Canonical) :
    SomeCanonical (tryOrdinaryAccess bank group row s) := .ite .none (.some (Canonical_accept hs))

theorem Canonical_tryStreamYield {stream : Nat} {s : State} (hs : s.Canonical) :
    SomeCanonical (tryStreamYield stream s) := by
  unfold tryStreamYield
  dsimp only
  split
  · exact .none
  · exact .ite (Canonical_comeAbout hs (fun _ ht => Canonical_modStream (Canonical_serveAll ht))) .none

theorem Canonical_tryYieldRowCopyEnd {bank : Nat} {s : State} (hs : s.Canonical) :
    SomeCanonical (tryYieldRowCopyEnd bank s) := by
  unfold tryYieldRowCopyEnd
  split
  · exact .none
  · exact Canonical_comeAbout hs (fun _ ht => Canonical_modBank ht)

theorem Canonical_tryYieldEnd {stream : Nat} {s : State} (hs : s.Canonical) :
    SomeCanonical (tryYieldEnd stream s) := .ite (Canonical_comeAbout hs (fun _ ht => Canonical_modStream ht)) .none

theorem Canonical_tryStreamWake {stream : Nat} {s : State} (hs : s.Canonical) :
    SomeCanonical (tryStreamWake stream s) := by
  refine .ite ?_ .none
  refine .ite ?_ .none
  refine .some ?_
  split
  · exact Canonical_waittStep (Canonical_reach hs)
  · exact Canonical_joinStep (Canonical_reach hs)
  · exact Canonical_reach hs

/-! ## The steps of the transfer engine -/

theorem Canonical_engStore {s : State} {who : Nat} {va : Word} {pa : Nat} {bs : List Byte} (hs : s.Canonical) :
    OkCanonical (engStore s who va pa bs) := by
  refine .ite (.ok (Canonical_store _ _ _ hs)) ?_
  split
  · exact .error
  · exact .error
  · exact .ok (Canonical_podTaken hs)

theorem Canonical_engStop {s : State} {who : Nat} {x : XStop} (hs : s.Canonical) :
    SomeCanonical (engStop s who x) := by
  unfold engStop
  split
  · exact .ite .none (.some (Canonical_askPod hs))
  · exact .none

theorem Canonical_setOp {s : State} {c chan : Nat} {op : XferOp} (hs : s.Canonical) :
    (setOp s c chan op).Canonical := by
  unfold setOp
  split
  · exact hs
  · exact Canonical_setCtx hs

theorem Canonical_endOp {s : State} {c chan num : Nat} {f : Timeline → Timeline} (hs : s.Canonical) :
    (endOp s c chan num f).Canonical := by
  unfold endOp
  split
  · exact hs
  · exact Canonical_setCtx hs

theorem Canonical_tryTransferOpStart {ctx chan num : Nat} {s : State} (hs : s.Canonical) :
    SomeCanonical (tryTransferOpStart ctx chan num s) := by
  unfold tryTransferOpStart
  split
  · refine .ite .none ?_
    dsimp only
    split
    · exact .none
    iterate 3 exact .some (Canonical_setOp hs)
    · exact .ite (.some (Canonical_setOp hs)) (.ite .none (.some (Canonical_setOp hs)))
    · exact .ite (.some (Canonical_setOp hs)) (.ite .none (.some (Canonical_modHart (Canonical_setOp hs))))
  · exact .none

theorem Canonical_countLines {s : State} {pas : List Nat} (hs : s.Canonical) : (countLines s pas).Canonical :=
  Canonical_foldl _ _ (fun _ _ ht => Canonical_countFrame ht) hs

theorem Canonical_xferLand {s : State} {c chan : Nat} {op : XferOp} (hs : s.Canonical) :
    OkCanonical (xferLand s c chan op) := by
  unfold xferLand
  dsimp only
  split
  · exact .error
  · split
    · exact .error
    · split
      · exact .error
      · next e => exact .ok (Canonical_setOp ((OkCanonical.of_ok (.foldl
          (fun _ _ ht => .bind ht (fun _ ht => Canonical_engStore ht)) (.ok
          (Canonical_countLines (Canonical_foldl _ _ (fun _ _ ht => Canonical_podTaken ht)
          (Canonical_countLines hs))))) e).update))
  · split
    · exact .error
    · split
      · exact .error
      · exact .ok (Canonical_setOp (Canonical_setHart ((Canonical_foldl _ _ (fun _ _ ht => Canonical_podTaken ht)
          (Canonical_countLines hs)).update)))
  · refine .ite .error (.ite .error ?_)
    split
    · exact .error
    · exact .ok (Canonical_setOp ((Canonical_modHart (Canonical_foldl _ _ (fun _ _ ht => Canonical_podTaken ht)
        (Canonical_countLines hs))).update))

theorem Canonical_tryElementGroupLands {ctx chan num : Nat} {s : State} (hs : s.Canonical) :
    SomeCanonical (tryElementGroupLands ctx chan num s) := by
  unfold tryElementGroupLands
  split
  · refine .ite ?_ .none
    split
    · next e => exact .some ((Canonical_xferLand hs).of_ok e)
    · exact Canonical_engStop hs
  · exact .none

theorem Canonical_barCount {s : State} {who c handle num bytes : Nat} {prv : Bool} {bar : Option BarCapture}
    (hs : s.Canonical) : OkCanonical (barCount s who c handle num bytes prv bar) := by
  unfold barCount
  split
  · exact .ok hs
  · dsimp only
    split
    · exact .ok (Canonical_faultRecord hs)
    · refine .ite ?_ ?_
      · split
        · exact .ite .error (.ok (Canonical_faultRecord (.ite (Canonical_countFrame hs) hs)))
        · exact .ok (Canonical_faultRecord (Canonical_podTaken (.ite (Canonical_countFrame hs) hs)))
        · refine .ite (.ok (Canonical_faultRecord (Canonical_podTaken (.ite (Canonical_countFrame hs) hs)))) ?_
          split
          · exact .ok (Canonical_faultRecord (Canonical_podTaken (.ite (Canonical_countFrame hs) hs)))
          · exact .ok (Canonical_podTaken (.ite (Canonical_countFrame hs) hs))
      · refine .ite (.ok (Canonical_faultRecord (.ite (Canonical_countFrame hs) hs))) ?_
        split
        · exact .ok (Canonical_faultRecord (.ite (Canonical_countFrame hs) hs))
        · exact .ok (Canonical_barWrite (.ite (Canonical_countFrame hs) hs))

theorem Canonical_xferPutHeader {s : State} {c chan : Nat} {op : XferOp} (hs : s.Canonical) :
    OkCanonical (xferPutHeader s c chan op) := by
  unfold xferPutHeader
  dsimp only
  split
  · exact .error
  · next s1 e =>
    have h1 : s1.Canonical := by
      refine OkCanonical.of_ok ?_ e
      split
      · exact .error
      · refine Canonical_engStore (Canonical_countLines hs)
      · exact .error
    split
    · exact .ok h1
    · split
      · exact .error
      · exact Canonical_engStore (Canonical_countLines h1)
      · exact .error

theorem Canonical_xferHead {s : State} {c chan : Nat} {op : XferOp} (hs : s.Canonical) :
    OkCanonical (xferHead s c chan op) :=
  .ite (.map (Canonical_xferPutHeader hs) (fun _ ht => Canonical_setOp ht)) (.ok hs)

theorem Canonical_tryTransferOpComplete {ctx chan num : Nat} {s : State} (hs : s.Canonical) :
    SomeCanonical (tryTransferOpComplete ctx chan num s) := by
  unfold tryTransferOpComplete
  split
  · refine .ite ?_ .none
    split
    · exact Canonical_engStop hs
    · next e' =>
      split
      · next e'' => exact .some (Canonical_endOp ((Canonical_barCount ((Canonical_xferHead hs).of_ok e')).of_ok e''))
      · exact Canonical_engStop ((Canonical_xferHead hs).of_ok e')
  · exact .none

theorem Canonical_tryTransferOpFault {ctx chan num : Nat} {s : State} (hs : s.Canonical) :
    SomeCanonical (tryTransferOpFault ctx chan num s) := by
  unfold tryTransferOpFault
  split
  · refine .ite ?_ .none
    split
    · refine .some (Canonical_faultRecord (Canonical_endOp (Canonical_leaveAsks ?_)))
      dsimp only
      split
      · exact Canonical_modHart hs
      · exact hs
    · exact .none
  · exact .none

theorem Canonical_cutBound {s : State} {k : Nat} (hs : s.Canonical) : (cutBound s k).Canonical := hs.update

/-! ## The steps of the lamination engine -/

theorem Canonical_setLam {s : State} {c chan : Nat} {op : LamOp} (hs : s.Canonical) :
    (setLam s c chan op).Canonical := by
  unfold setLam
  split
  · exact hs
  · exact Canonical_setCtx hs

theorem Canonical_endLam {s : State} {c chan num : Nat} {f : Timeline → Timeline} (hs : s.Canonical) :
    (endLam s c chan num f).Canonical := by
  unfold endLam
  split
  · exact hs
  · exact Canonical_setCtx hs

theorem Canonical_lamFault {s : State} {c chan num cause : Nat} {wside : Bool} {va : Word} {height : Nat}
    (hs : s.Canonical) : (lamFault s c chan num cause wside va height).Canonical :=
  Canonical_faultRecord (Canonical_endLam (Canonical_leaveAsks hs))

theorem Canonical_modLam {s : State} {t e : Nat} {f : LamEntry → LamEntry} (hs : s.Canonical) :
    (s.modLam t e f).Canonical := Canonical_modTower hs

theorem Canonical_placeArrival {s : State} {t : Nat} {a : Arrival} (hs : s.Canonical) :
    (placeArrival s t a).Canonical := by
  unfold placeArrival
  split
  · exact Canonical_modLam hs
  · split
    · exact Canonical_modLam hs
    · exact Canonical_modTower hs

theorem Canonical_takeWaiting {s : State} {t : Nat} (hs : s.Canonical) : (takeWaiting s t).Canonical := by
  refine Canonical_foldl _ _ (fun _ _ ht => ?_) (Canonical_modTower hs)
  split
  · exact Canonical_placeArrival ht
  · exact ht

theorem Canonical_tryLamAdmission {ctx chan num : Nat} {s : State} (hs : s.Canonical) :
    SomeCanonical (tryLamAdmission ctx chan num s) := by
  unfold tryLamAdmission
  split
  · refine .ite .none ?_
    split
    · exact .some (Canonical_lamFault hs)
    · exact Canonical_engStop hs
    · exact .ite .none (.some (Canonical_placeArrival (Canonical_setLam (Canonical_countLines
        (Canonical_leaveAsks hs)))))
  · exact .none

theorem Canonical_tryLamDeadline {tower entry : Nat} {s : State} (hs : s.Canonical) :
    SomeCanonical (tryLamDeadline tower entry s) :=
  .ite (Canonical_comeAbout hs (fun _ ht => Canonical_modLam ht)) .none

theorem Canonical_readWeights {s : State} {k : LamKey} (hs : s.Canonical) : (readWeights s k).Canonical :=
  Canonical_foldl _ _ (fun _ _ ht => Canonical_accept ht) hs

theorem Canonical_countWeights {s : State} {e : LamEntry} (hs : s.Canonical) : (countWeights s e).Canonical :=
  Canonical_countLines hs

theorem Canonical_tryLamComputeStart {tower entry : Nat} {s : State} (hs : s.Canonical) :
    SomeCanonical (tryLamComputeStart tower entry s) :=
  .ite (.some (Canonical_modLam (Canonical_readWeights (Canonical_countWeights hs)))) .none

theorem Canonical_tryLamComputeEnd {tower entry : Nat} {s : State} (hs : s.Canonical) :
    SomeCanonical (tryLamComputeEnd tower entry s) := by
  refine .ite ?_ .none
  refine Canonical_comeAbout hs fun _ ht => Canonical_modLam (Canonical_foldl _ _ (fun _ _ ht => ?_) ht)
  split
  · exact Canonical_setLam ht
  · exact ht

theorem Canonical_freeLam {s : State} {t e : Nat} (hs : s.Canonical) : (freeLam s t e).Canonical :=
  Canonical_takeWaiting (Canonical_modTower hs)

theorem Canonical_tryLamWeightFault {tower entry : Nat} {s : State} (hs : s.Canonical) :
    SomeCanonical (tryLamWeightFault tower entry s) := by
  unfold tryLamWeightFault
  dsimp only
  split
  · refine .some (Canonical_freeLam (Canonical_foldl _ _ (fun _ _ ht => ?_) hs))
    split
    · exact Canonical_lamFault ht
    · exact ht
  · exact .none

theorem Canonical_dropLams {s : State} {c : Nat} (hs : s.Canonical) : (dropLams s c).Canonical :=
  Canonical_foldl _ _ (fun _ _ ht => Canonical_takeWaiting ht) hs.update

theorem Canonical_lamWrite {who c : Nat} {op : LamOp} (f : Nat) {o : Nat} {bs : List Byte} {s : State}
    (hs : s.Canonical) : LamCanonical (lamWrite who c op f o bs s) := by
  induction f generalizing o bs s with
  | zero => exact hs
  | succ f ih =>
    cases bs with
    | nil => exact hs
    | cons b bs =>
      unfold lamWrite
      dsimp only
      split
      · exact hs
      · split
        · exact hs
        · next e =>
          refine ih (OkCanonical.of_ok (Canonical_engStore ?_) e)
          split
          · exact Canonical_countFrame hs
          · exact hs
      · exact hs

theorem Canonical_lamSplit {s : State} {m : LamMember} {height : Nat} (hs : s.Canonical) :
    (lamSplit s m height).1.Canonical := by
  unfold lamSplit
  split
  · exact hs
  · dsimp only
    split
    · next e => exact Canonical_lamFault ((Canonical_lamWrite _ hs).of_error e)
    · exact (Canonical_engStop hs).getD hs
    · next e =>
      have ht := fun {o} => Canonical_setLam (c := m.ctx) (chan := m.chan) (op := o)
        ((Canonical_lamWrite _ hs).of_ok e)
      split
      · next e => exact Canonical_endLam ((Canonical_barCount ht).of_ok e)
      · exact (Canonical_engStop ht).getD ht

theorem Canonical_splitMembers {s : State} {height : Nat} {ms : List LamMember} (hs : s.Canonical) :
    (splitMembers s height ms).1.Canonical := by
  refine Canonical_foldl_fst _ _ (fun _ _ ht => ?_) hs
  exact Canonical_lamSplit ht

theorem Canonical_tryLamSplitComplete {tower entry : Nat} {s : State} (hs : s.Canonical) :
    SomeCanonical (tryLamSplitComplete tower entry s) :=
  .ite (.ite (.some (Canonical_freeLam (Canonical_splitMembers hs))) (.ite .none
    (.some (Canonical_modLam (Canonical_splitMembers hs))))) .none

/-! ## Room for bank kernels -/

theorem Canonical_renameStream {s : State} {i j : Nat} (hs : s.Canonical) : (renameStream s i j).Canonical := by
  refine Canonical_setStream (Canonical_setStream (State.Canonical.update ?_))
  split
  · exact Canonical_setKernel hs
  · exact hs

theorem Canonical_giveSeq {s : State} {i : Nat} (hs : s.Canonical) : (giveSeq s i).Canonical :=
  .ite (Canonical_renameStream hs) hs

theorem Canonical_takeSeq {s : State} {j : Nat} (hs : s.Canonical) : (takeSeq s j).Canonical :=
  .ite hs (Canonical_renameStream (Canonical_giveSeq hs))

theorem Canonical_giveBuf {s : State} {kid : Nat} (hs : s.Canonical) : (giveBuf s kid).Canonical := by
  unfold giveBuf
  split
  · exact hs
  · exact Canonical_releaseBuf (Canonical_setKernel hs)

theorem Canonical_giveRange {s : State} {towers : List Nat} {buf n : Nat} (hs : s.Canonical) :
    (giveRange s towers buf n).Canonical := Canonical_foldl _ _ (fun _ _ ht => Canonical_giveBuf ht) hs

theorem Canonical_takeBuf {s : State} {kid : Nat} (hs : s.Canonical) : (takeBuf s kid).Canonical := by
  unfold takeBuf
  split
  · exact hs
  · split
    · exact Canonical_setKernel (Canonical_foldl _ _ (fun _ _ ht => Canonical_modTower ht) (Canonical_giveRange hs))
    · exact hs

/-! ## Parking, resuming and the ends of harts and groups -/

theorem Canonical_parkAlloc {s : State} {c n : Nat} {r : State × Nat} (hs : s.Canonical)
    (e : parkAlloc s c n = some r) : r.1.Canonical := by
  unfold parkAlloc at e
  split at e
  · cases e
  · obtain ⟨o, -, rfl⟩ := Option.map_eq_some_iff.1 e
    exact Canonical_setCtx hs

theorem Canonical_allocMembers {c gid : Nat} (l : List (Nat × Member)) {s : State} (hs : s.Canonical) :
    SomeCanonical (allocMembers c gid l s) := by
  induction l generalizing s with
  | nil => exact hs
  | cons p l ih =>
    unfold allocMembers
    split
    · split
      · exact .none
      · next e => exact ih (Canonical_setMember (Canonical_parkAlloc hs e))
    · exact ih hs

theorem Canonical_allocCores {c gid : Nat} (l : List Nat) {s : State} (hs : s.Canonical) :
    SomeCanonical (allocCores c gid l s) := by
  induction l generalizing s with
  | nil => exact hs
  | cons i l ih =>
    unfold allocCores
    split
    · exact .none
    · split
      · exact ih hs
      · split
        · exact .none
        · next e => exact ih (Canonical_setGroup (Canonical_parkAlloc hs e))

theorem Canonical_reserveGroup {s : State} {gid : Nat} (hs : s.Canonical) : SomeCanonical (reserveGroup s gid) := by
  unfold reserveGroup
  split
  · exact .none
  · split
    · exact .none
    · exact .bind (Canonical_allocMembers _ hs) (fun _ ht => Canonical_allocCores _ ht)

theorem Canonical_reserveStreams {c : Nat} (l : List Nat) {s : State} (hs : s.Canonical) :
    SomeCanonical (reserveStreams c l s) := by
  induction l generalizing s with
  | nil => exact hs
  | cons i l ih =>
    unfold reserveStreams
    dsimp only
    split
    · split
      · exact .none
      · next e => exact ih (Canonical_modStream (Canonical_parkAlloc (Canonical_parkFree hs) e))
    · exact ih hs

theorem Canonical_requestGroup {w : Option Want} {mig : Bool} {s : State} {gid : Nat} (hs : s.Canonical) :
    (requestGroup w mig s gid).Canonical := by
  unfold requestGroup
  split
  · exact hs
  · refine Canonical_setGroup (Canonical_foldl _ _ (fun _ _ ht => ?_) hs)
    split
    · exact Canonical_modHart ht
    · exact ht

theorem Canonical_requestStreams {w : Option Want} {s : State} {kid : Nat} (hs : s.Canonical) :
    (requestStreams w s kid).Canonical := by
  unfold requestStreams
  split
  · exact hs
  · exact Canonical_setKernel (Canonical_foldl _ _ (fun _ _ ht => Canonical_modStream ht) hs)

theorem Canonical_writeRecord {s : State} {pa k : Nat} {emerg : Bool} (hs : s.Canonical) :
    (writeRecord s pa k emerg).Canonical := by
  unfold writeRecord
  dsimp only
  split
  · exact hs
  · exact Canonical_physWrite _ _ _ (Canonical_foldl _ _ (fun _ _ ht => .ite ht (Canonical_store _ _ _ ht))
      (Canonical_physWords _ _ (Canonical_physWords _ _ (Canonical_physWords _ _ (Canonical_physWords _ _
      (Canonical_zeroRange _ _ hs))))))

theorem Canonical_renameOps {s : State} {a b : Nat} (hs : s.Canonical) : (renameOps s a b).Canonical := hs.update

theorem Canonical_parkHart {s : State} {k : Nat} (hs : s.Canonical) : (parkHart s k).Canonical := by
  unfold parkHart
  dsimp only
  split
  · exact hs
  · split
    · exact Canonical_settleCtx (Canonical_setHart (Canonical_setMember (Canonical_renameOps
        (Canonical_writeRecord hs))))
    · exact hs

theorem Canonical_takePreempt {s : State} {k : Nat} (hs : s.Canonical) : (takePreempt s k).Canonical :=
  Canonical_modHart (Canonical_cutBound (Canonical_leaveOrders (Canonical_leavePods hs)))

theorem Canonical_tryPreempt {hart : Nat} {s : State} (hs : s.Canonical) : SomeCanonical (tryPreempt hart s) :=
  .ite (.some (Canonical_takePreempt hs)) .none

theorem Canonical_putLast {s : State} {k : Nat} (hs : s.Canonical) : (putLast s k).Canonical := Canonical_setCore hs

theorem Canonical_execYield {v : Bool} {s : State} (hs : s.Canonical) : Out.Canonical (execYield v s) := by
  unfold execYield
  split
  · exact .ite (.next (Canonical_setLife hs)) (.ite (.next (Canonical_setLife hs)) (.ite
      (.next (Canonical_parkHart (.ite (Canonical_modHart (Canonical_cutBound hs)) hs))) (.ite
      (.next (Canonical_modHart (Canonical_retire (.ite (Canonical_modHart (Canonical_cutBound hs)) hs)))) (.next
      (Canonical_putLast (Canonical_retire (.ite (Canonical_modHart (Canonical_cutBound hs)) hs)))))))
  · exact trivial

theorem Canonical_settleGroup {s : State} {gid : Nat} (hs : s.Canonical) : (settleGroup s gid).Canonical := by
  unfold settleGroup
  split
  · exact hs
  · refine .ite ?_ hs
    dsimp only
    split
    · exact Canonical_settleCtx (Canonical_setKernel (Canonical_endGroup hs))
    · exact Canonical_endGroup hs

theorem Canonical_settleBars {s : State} {gid die : Nat} (hs : s.Canonical) : (settleBars s gid die).Canonical := by
  unfold settleBars
  split
  · exact hs
  · split
    · exact hs
    · exact Canonical_setKernel (Canonical_setGroup hs)

theorem Canonical_retireHart {s : State} {k : Nat} (hs : s.Canonical) : (retireHart s k).Canonical := by
  unfold retireHart
  dsimp only
  split
  · exact hs
  · split
    · exact Canonical_settleCtx (Canonical_settleGroup (Canonical_settleBars (Canonical_modHart
        (Canonical_setMember hs))))
    · exact Canonical_settleGroup (Canonical_settleBars (Canonical_modHart (Canonical_setMember hs)))

theorem Canonical_execGexit {s : State} (hs : s.Canonical) : Out.Canonical (execGexit s) := by
  unfold execGexit
  split
  · exact .ite (.ite (.next (Canonical_modHart hs)) (.next (Canonical_retireHart hs))) (.ite
      (.next (Canonical_modHart hs)) (.next (Canonical_retireHart hs)))
  · exact trivial

theorem Canonical_doubleTrap {s : State} {k fcause : Nat} (hs : s.Canonical) : (doubleTrap s k fcause).Canonical := by
  unfold doubleTrap
  dsimp only
  split
  · refine .ite ?_ ?_
    · refine Canonical_kernelFaultBut (Canonical_retireHart ?_)
      split
      · exact .ite (Canonical_setCtxState (Canonical_faultRecord hs)) (Canonical_faultRecord hs)
      · exact Canonical_faultRecord hs
    · refine Canonical_kernelFault ?_
      split
      · exact .ite (Canonical_setCtxState (Canonical_faultRecord hs)) (Canonical_faultRecord hs)
      · exact Canonical_faultRecord hs
  · exact hs

theorem Canonical_writeCore {s : State} {gid slot core pa : Nat} {emerg : Bool} (hs : s.Canonical) :
    (writeCore s gid slot core pa emerg).Canonical := by
  unfold writeCore
  split
  · exact hs
  · split
    · exact hs
    · exact Canonical_physWrite _ _ _ (Canonical_setGroup (Canonical_copyCells _ _ _ (Canonical_foldl _ _
        (fun _ _ ht => Canonical_store _ _ _ ht) (Canonical_physWords _ _ (Canonical_zeroRange _ _ hs)))))

theorem Canonical_freeCore {s : State} {gid c : Nat} (hs : s.Canonical) : (freeCore s gid c).Canonical :=
  Canonical_foldl _ _ (fun _ _ ht => .ite (Canonical_setHart (Canonical_leavePods ht)) ht) (Canonical_setCore hs)

theorem Canonical_tryCoreRecordSave {group core : Nat} {s : State} (hs : s.Canonical) :
    SomeCanonical (tryCoreRecordSave group core s) := by
  unfold tryCoreRecordSave
  split
  · exact .none
  · split
    · split
      · refine .ite .none ?_
        extract_lets s1 s2 s3
        have h1 : s1.Canonical := Canonical_writeCore hs
        split
        · exact .some h1
        · extract_lets s4
          have h4 : s4.Canonical :=
            Canonical_setGroup (Canonical_foldl _ _ (fun _ _ ht => Canonical_freeCore ht) h1).update
          exact .ite (.some (.ite h4 (Canonical_endGroup h4))) (.some h1)
      · exact .none
    · exact .none

theorem Canonical_unkeep {s : State} {w : Want} (hs : s.Canonical) : (unkeep s w).Canonical := hs.update

theorem Canonical_reserveCores {s : State} {gid : Nat} {cores : List Nat} (hs : s.Canonical) :
    (reserveCores s gid cores).Canonical := by
  unfold reserveCores
  split
  · exact Canonical_setGroup hs
  · exact hs

theorem Canonical_reserveSiblings {s : State} {gid : Nat} {g : Group} {k : Kernel} (hs : s.Canonical) :
    SomeCanonical (reserveSiblings s gid g k) := by
  refine .ite ?_ (.some hs)
  refine .foldl (fun _ _ ht => ?_) (.some hs)
  refine .bind ht fun _ ht => ?_
  split
  · exact .none
  · exact .map (fun _ _ => Canonical_reserveCores ht)
  · exact .some ht

theorem Canonical_runGroup {cx : Context} {k : Kernel} {s : State} {gid : Nat} (hs : s.Canonical) :
    (runGroup cx k s gid).Canonical := by
  unfold runGroup
  split
  · exact hs
  · refine State.Canonical.update (Canonical_setGroup (Canonical_unkeep (Canonical_foldl _ _ (fun _ _ ht => ?_)
      (Canonical_foldl _ _ (fun _ _ ht => Canonical_restoreCore _ _ _ _ ht) hs))))
    split
    · exact Canonical_modHart ht
    · exact ht

theorem Canonical_startResumed {s : State} {gid : Nat} {cx : Context} {k : Kernel} (hs : s.Canonical) :
    (startResumed s gid cx k).Canonical := .ite hs (Canonical_foldl _ _ (fun _ _ ht => Canonical_runGroup ht) hs)

theorem Canonical_tryHartResume {group member core : Nat} {s : State} (hs : s.Canonical) :
    SomeCanonical (tryHartResume group member core s) := by
  unfold tryHartResume
  split
  · exact .none
  · split
    · split
      · exact .none
      · dsimp only
        split
        · exact .none
        · next t cores e =>
          have ht : t.Canonical := by
            split at e
            · cases e; exact hs
            · split at e
              · obtain ⟨l, -, e⟩ := Option.bind_eq_some_iff.1 e
                obtain ⟨u, e, h⟩ := Option.map_eq_some_iff.1 e
                cases h
                exact (Canonical_reserveSiblings (Canonical_reserveCores hs)).of_some e
              · cases e
          split
          · exact .ite .none (.some (Canonical_startResumed (.ite
              (Canonical_setCtxState (Canonical_setGroup (Canonical_renameOps (Canonical_setHart ht))))
              (Canonical_setGroup (Canonical_renameOps (Canonical_setHart ht))))))
          · exact .none
    · exact .none

theorem Canonical_writeBank {s : State} {pa key : Nat} (hs : s.Canonical) : (writeBank s pa key).Canonical :=
  Canonical_foldl _ _ (fun _ _ ht => .ite (Canonical_store _ _ _ ht) ht) (Canonical_store _ _ _
    (Canonical_physWords _ _ hs))

theorem Canonical_writeBankRecord {s : State} {i pa c : Nat} {emerg : Bool} {bs : List Nat} (hs : s.Canonical) :
    (writeBankRecord s i pa c emerg bs).Canonical :=
  Canonical_physWrite _ _ _ (Canonical_foldl _ _ (fun _ _ ht => Canonical_writeBank ht) (Canonical_physWords _ _
    (Canonical_zeroRange _ _ hs)))

theorem Canonical_parkStream {s : State} {i : Nat} {emerg : Bool} (hs : s.Canonical) :
    (parkStream s i emerg).Canonical := by
  unfold parkStream
  dsimp only
  split
  · split
    · exact hs
    · exact Canonical_settleCtx (Canonical_modStream ((Canonical_foldl _ _ (fun _ _ ht => Canonical_freeBank ht)
        (Canonical_writeBankRecord (Canonical_foldl _ _ (fun _ _ ht => Canonical_settleBank ht) hs))).update))
  · exact hs

theorem Canonical_tryStreamPark {stream : Nat} {s : State} (hs : s.Canonical) :
    SomeCanonical (tryStreamPark stream s) := .ite (.some (Canonical_parkStream hs)) .none

theorem Canonical_restoreBank {i : Nat} {s : State} {p : Nat × Bank} (hs : s.Canonical) :
    (restoreBank i s p).Canonical :=
  Canonical_foldl _ _ (fun _ _ ht => .ite (Canonical_modStream (Canonical_modBank (Canonical_noteAct ht)))
    (Canonical_modBank ht)) (Canonical_modStream (Canonical_setBank hs))

theorem Canonical_resumeStream {s : State} {i : Nat} (hs : s.Canonical) : (resumeStream s i).Canonical :=
  Canonical_modStream (Canonical_foldl _ _ (fun _ _ ht => Canonical_restoreBank ht) hs)

theorem Canonical_tryStreamResume {stream : Nat} {s : State} (hs : s.Canonical) :
    SomeCanonical (tryStreamResume stream s) := by
  unfold tryStreamResume
  extract_lets st
  split
  · exact .none
  · split
    · exact .none
    · extract_lets s1 k1 s2 s3 s4 s5
      have h4 : s4.Canonical := Canonical_setKernel (Canonical_unkeep (Canonical_foldl _ _
        (fun _ _ ht => Canonical_resumeStream ht) (Canonical_takeBuf (Canonical_foldl _ _
        (fun _ _ ht => Canonical_takeSeq ht) hs))))
      have h5 : s5.Canonical := .ite (Canonical_setCtxState h4) h4
      exact .ite .none (.some h5.update)

/-! ## Vector loads and stores -/

theorem Canonical_retag {va : Word} {e : Stop} (he : e.Canonical) : (retag va e).Canonical := by
  unfold retag
  split
  · exact trivial
  · exact he

theorem Canonical_spanGo {s : State} {h : Hart} {k : Acc} {idx : Nat} {va0 : Word} {req : Nat → Nat → PodOp}
    (f : Nat) {o n : Nat} : Ends (fun _ => True) (spanGo s h k idx va0 req f o n) := by
  induction f generalizing o n with
  | zero => trivial
  | succ f ih =>
    unfold spanGo
    split
    · trivial
    · dsimp only
      split
      · next e => exact .error (Canonical_retag (Canonical_hartAddr.of_error e))
      · exact ih.map fun _ _ => trivial

theorem Canonical_span {s : State} {h : Hart} {k : Acc} {idx : Nat} {va : Word} {n : Nat}
    {req : Nat → Nat → PodOp} :
    Ends (fun _ => True) (span s h k idx va n req) := Canonical_spanGo _

theorem Canonical_spanCount {s : State} {ps : List (Leaf × Nat)} (hs : s.Canonical) : (spanCount s ps).Canonical :=
  Canonical_foldl _ _ (fun _ _ ht => Canonical_countHart ht) hs

theorem Canonical_spanStore {s : State} {ps : List (Leaf × Nat)} {bs : List Byte} (hs : s.Canonical) :
    (spanStore s ps bs).Canonical :=
  Canonical_foldl_fst _ _ (fun _ _ ht => Canonical_store _ _ _ (Canonical_countHart ht)) hs

theorem Canonical_podsUsed {s : State} {pas : List Nat} (hs : s.Canonical) : (podsUsed s pas).Canonical :=
  Canonical_foldl _ _ (fun _ _ ht => Canonical_podUsed ht) hs

theorem Canonical_spanLoad {s : State} {h : Hart} {idx : Nat} {va : Word} {n : Nat} :
    Ends (fun _ => True) (spanLoad s h idx va n) := by
  unfold spanLoad
  split
  · next e => exact .error (Canonical_span.of_error e)
  · exact .ite (.raise _ _ _) (.ok trivial)

theorem Canonical_loadUnit {w : VWord} {stride : Option Word} {align : Bool} {r : MemRun} {j : Nat}
    (hs : r.s.Canonical) : Ends (fun r => r.s.Canonical) (loadUnit w stride align r j) := by
  refine .ite ?_ (.ite (.ok hs) (.ok hs))
  refine .ite (.raise _ _ _) ?_
  split
  · next e => exact .error (Canonical_spanLoad.of_error e)
  · exact .ok (Canonical_spanCount hs)

theorem Canonical_storeUnit {w : VWord} {stride : Option Word} {r : MemRun} {j : Nat} (hs : r.s.Canonical) :
    Ends (fun r => r.s.Canonical) (storeUnit w stride r j) := by
  refine .ite ?_ (.ok hs)
  refine .ite (.raise _ _ _) ?_
  dsimp only
  split
  · next e => exact .error (Canonical_span.of_error e)
  · exact .ok (Canonical_spanStore hs)

theorem Canonical_runUnits {f : MemRun → Nat → Except Stop MemRun} (l : List Nat) {r r' : MemRun}
    {o : Option (Nat × Stop)} (e : runUnits f l r = (r', o))
    (hf : ∀ r j, r.s.Canonical → Ends (fun r => r.s.Canonical) (f r j)) (hr : r.s.Canonical) :
    r'.s.Canonical ∧ ∀ j x, o = some (j, x) → x.Canonical := by
  induction l generalizing r with
  | nil => cases e; exact ⟨hr, fun _ _ h => nomatch h⟩
  | cons j l ih =>
    unfold runUnits at e
    split at e
    · next e' => exact ih e ((hf _ _ hr).of_ok e')
    · next e' => cases e; exact ⟨hr, fun _ _ h => by cases h; exact (hf _ _ hr).of_error e'⟩

theorem Canonical_upTo {r : MemRun} {k : Nat} {load : Bool} {i : Nat} (hs : r.s.Canonical) :
    (r.upTo k load i).Canonical := Canonical_podsUsed (Canonical_setHart hs)

theorem Canonical_stopAt {r : MemRun} {k : Nat} {vd : Option Reg} {i : Nat} {e : Stop} (hs : r.s.Canonical)
    (he : e.Canonical) : Ends State.Canonical (r.stopAt k vd i e) := by
  unfold MemRun.stopAt
  split
  · refine .error ?_
    show State.Canonical _
    refine Canonical_upTo ?_
    split
    · split <;> exact hs
    · exact hs
  · exact .error he

theorem Canonical_loaded {r : MemRun} {w : VWord} (hr : r.s.Canonical) : (r.loaded w).s.Canonical := hr

theorem Canonical_strideOp {mk : VWord → Instr} {w : VWord} {stride load : Bool} {s : State} (hs : s.Canonical) :
    Out.Canonical (strideOp mk w stride load s) := by
  refine Canonical_slotOp hs fun k h w => ?_
  dsimp only
  cases e : vecCheck s k h w (vlmax h.vgrant w.ty.toNat (tyBits w)) [] (some w.vd) with
  | error x => exact .error ((Canonical_vecCheck hs).of_error e)
  | ok vl =>
    have unit {st : Option Word} (r : MemRun) (j : Nat) (ht : r.s.Canonical) :
        Ends (fun r => r.s.Canonical) ((if load then loadUnit w st true else storeUnit w st) r j) := by
      split
      · exact Canonical_loadUnit ht
      · exact Canonical_storeUnit ht
    refine .ite (.ok hs) ?_
    split
    · next r e =>
      have ht := (Canonical_runUnits _ e unit hs).1
      refine Canonical_endLong (Canonical_upTo ?_)
      split
      · exact Canonical_loaded ht
      · exact ht
    · next e =>
      obtain ⟨ht, hx⟩ := Canonical_runUnits _ e unit hs
      exact Canonical_stopAt ht (hx _ _ rfl)

theorem Canonical_execVldff {w : VWord} {s : State} (hs : s.Canonical) : Out.Canonical (execVldff w s) := by
  refine Canonical_slotOp hs fun k h w => ?_
  dsimp only
  cases e : vecCheck s k h w (vlmax h.vgrant w.ty.toNat (tyBits w)) [] (some w.vd) with
  | error x => exact .error ((Canonical_vecCheck hs).of_error e)
  | ok vl =>
    have unit {f : Nat → Bool} (r : MemRun) (j : Nat) (ht : r.s.Canonical) :
        Ends (fun r => r.s.Canonical) (loadUnit w none (f j) r j) := Canonical_loadUnit ht
    have ended {r : MemRun} {c : Prop} {_ : Decidable c} (ht : r.s.Canonical) :
        (if c then r else r.loaded w).s.Canonical := by
      split
      · exact ht
      · exact Canonical_loaded ht
    dsimp only
    split
    · next e =>
      have ht := (Canonical_runUnits _ e unit hs).1
      exact .ite (Canonical_endLong (Canonical_upTo (Canonical_loaded ht))) (.ok (Canonical_upTo (ended ht)))
    · next e =>
      obtain ⟨ht, hx⟩ := Canonical_runUnits _ e unit hs
      exact .ite (Canonical_stopAt ht (hx _ _ rfl)) (.ok (Canonical_upTo (ended ht)))
    · next e => exact .error ((Canonical_runUnits _ e unit hs).2 _ _ rfl)

theorem Canonical_mergeBlocks {base size : Nat} (f : Nat) {u left : Nat} {s : State} {bs : List (Nat × Nat)}
    (hs : s.Canonical) : (mergeBlocks base size f u left s bs).1.Canonical := by
  induction f generalizing u left s bs with
  | zero => exact hs
  | succ f ih =>
    unfold mergeBlocks
    dsimp only
    split
    · exact hs
    · split
      · refine ih (Canonical_foldl_fst _ _ (fun a j ht => ?_) hs)
        split
        · exact Canonical_physWrite _ _ _ ht
        · exact ht
      · exact ih hs

theorem Canonical_gatherRecord {s : State} {k : Nat} {h : Hart} {kind first : Nat} {vas : List Nat}
    (hs : s.Canonical) : (gatherRecord s k h kind first vas).Canonical := by
  unfold gatherRecord
  dsimp only
  split
  · exact hs
  · exact .ite (Canonical_mergeBlocks _ hs) (Canonical_faultRecord (Canonical_mergeBlocks _ hs))

theorem Canonical_indexedTrap {s0 s : State} {k : Nat} {h : Hart} {w : VWord} {a : Acc} {kind f : Nat}
    {act : List Nat} {t : Trap} (hs : s.Canonical) :
    Ends State.Canonical (indexedTrap s0 s k h w a kind f act t) :=
  .error (.ite (Canonical_gatherRecord (Canonical_modHart hs)) (Canonical_modHart hs))

theorem Canonical_execVldx {w : VWord} {s : State} (hs : s.Canonical) : Out.Canonical (execVldx w s) := by
  refine Canonical_slotOp hs fun _ _ _ => ?_
  split
  · next e => exact .error ((Canonical_vecCheck hs).of_error e)
  · refine .ite (.ok hs) ?_
    dsimp only
    split
    · exact .error trivial
    · exact Canonical_indexedTrap (Canonical_podsUsed (Canonical_setHart (Canonical_foldl _ _
        (fun _ _ ht => Canonical_countHart ht) hs)))
    · exact .ok (Canonical_podsUsed (Canonical_setHart (Canonical_foldl _ _ (fun _ _ ht =>
        Canonical_countHart ht) hs)))

theorem Canonical_execVstx {w : VWord} {s : State} (hs : s.Canonical) : Out.Canonical (execVstx w s) := by
  refine Canonical_slotOp hs fun k h w => ?_
  split
  · next e => exact .error ((Canonical_vecCheck hs).of_error e)
  · have write (ps : List (Nat × Leaf × Word)) (f : Nat × Leaf × Word → List Byte) (l : List Nat) :
        (podsUsed (ps.foldl (fun s p => store (countHart s p.2.1) p.2.1.pa (f p) none) s) l).Canonical :=
      Canonical_podsUsed (Canonical_foldl _ _ (fun _ _ ht => Canonical_store _ _ _ (Canonical_countHart ht)) hs)
    dsimp only
    split
    · trivial
    · split
      · next e _ _ =>
        obtain ⟨p, -, e⟩ := List.exists_of_findSome?_eq_some e
        split at e
        · cases e
        · cases e; trivial
      · exact Canonical_indexedTrap (write _ _ _)
      · exact .ok (write _ _ _)

/-! ## The scheduler -/

theorem Canonical_bindBank {i : Nat} {s : State} {b : Nat} (hs : s.Canonical) : (bindBank i s b).Canonical :=
  Canonical_setBank hs

theorem Canonical_bindStreams {s : State} {kid : Nat} {k : Kernel} {seqs : List Nat} {buf : Nat} (hs : s.Canonical) :
    (bindStreams s kid k seqs buf).Canonical := by
  unfold bindStreams
  extract_lets s1 s2 s3 s4 s5 s6
  have h2 : s2.Canonical := Canonical_foldl _ _
    (fun _ _ ht => Canonical_setStream (Canonical_foldl _ _ (fun _ _ ht => Canonical_bindBank ht) ht))
    (Canonical_giveRange (Canonical_foldl _ _ (fun _ _ ht => Canonical_giveSeq ht) hs))
  have h5 : s5.Canonical :=
    Canonical_setKernel (Canonical_unkeep (Canonical_foldl _ _ (fun _ _ ht => Canonical_modTower ht) h2))
  have h6 : s6.Canonical := by
    unfold s6
    split
    · exact .ite (Canonical_setCtxState h5) h5
    · exact h5
  exact h6.update

theorem Canonical_bindGroup {s : State} {gid kid : Nat} {g : Group} {cores : List Nat} (hs : s.Canonical) :
    (bindGroup s gid kid g cores).Canonical := by
  unfold bindGroup
  split
  · exact hs
  · split
    · exact hs
    · extract_lets s1 harts seqs s2 s3 s4 s5
      have h4 : s4.Canonical := Canonical_setGroup (Canonical_unkeep (Canonical_foldl _ _
        (fun _ _ ht => Canonical_setHart ht) (Canonical_foldl _ _ (fun _ _ ht => Canonical_openCore _ _ ht) hs)))
      have h5 : s5.Canonical := .ite (Canonical_setCtxState h4) h4
      exact h5.update

theorem Canonical_passTurn {s : State} {p : Nat × Nat} (hs : s.Canonical) : (passTurn s p).Canonical := by
  unfold passTurn
  split
  · exact hs
  · exact (Canonical_setCtx hs).update

theorem Canonical_turnTaken {s : State} {c q n : Nat} (hs : s.Canonical) : (turnTaken s c q n).Canonical := by
  unfold turnTaken
  split
  · exact hs
  · extract_lets qu out before s1
    have h1 : s1.Canonical := Canonical_foldl _ _ (fun _ _ ht => Canonical_passTurn ht) (Canonical_setCtx hs)
    exact .ite (Canonical_passTurn h1) h1

theorem Canonical_tryTilePlacement {ctx queue : Nat} {cores : List Nat} {s : State} (hs : s.Canonical) :
    SomeCanonical (tryTilePlacement ctx queue cores s) := by
  refine .ite .none ?_
  split
  · exact .none
  · refine .ite ?_ ?_
    · split
      · exact .some (Canonical_turnTaken (Canonical_bindStreams hs))
      · exact .none
    · refine .ite .none ?_
      split
      · split
        · exact .some (Canonical_turnTaken (Canonical_bindGroup hs))
        · exact .none
      · dsimp only
        split
        · exact .some (Canonical_turnTaken (Canonical_setKernel (Canonical_foldl _ _
            (fun _ _ ht => Canonical_bindGroup ht.update) hs)))
        · exact .none

theorem Canonical_tryQueueAging {ctx queue : Nat} {s : State} (hs : s.Canonical) :
    SomeCanonical (tryQueueAging ctx queue s) := by
  unfold tryQueueAging
  split
  · exact .none
  · split
    · exact .none
    · exact .ite .none (.some (Canonical_setCtx hs))

theorem Canonical_takeRecord {s : State} {c qn : Nat} {admitted : Bool} {k : Kernel} (hs : s.Canonical) :
    (takeRecord s c qn admitted k).1.Canonical := by
  unfold takeRecord
  split
  · exact hs
  · exact (Canonical_setKernel (Canonical_physWrite _ _ _ (Canonical_physWrite _ _ _ (Canonical_setCtx hs)))).update

theorem Canonical_completeKernel {s : State} {kid : Nat} {k : Kernel} (hs : s.Canonical) :
    (completeKernel s kid k).Canonical :=
  Canonical_settleCtx (Canonical_modQueueLine (Canonical_setKernel (Canonical_releaseBuf hs)))

theorem Canonical_admitBank {s : State} {c qn : Nat} {k : Kernel} {fail : State → State} (hs : s.Canonical)
    (hf : ∀ s, s.Canonical → (fail s).Canonical) : SomeCanonical (admitBank s c qn k fail) := by
  unfold admitBank
  dsimp only
  split
  · split
    · exact .none
    · exact .some (Canonical_askPod hs)
  · exact .some (hf _ hs)
  · split
    · exact .some (Canonical_takeRecord (Canonical_countLines (Canonical_leaveAsks hs)))
    · exact .some (Canonical_bindStreams (Canonical_takeRecord (Canonical_countLines (Canonical_leaveAsks hs))))

theorem Canonical_admitRecord {s : State} {c qn : Nat} {q : Queue} (hs : s.Canonical) :
    SomeCanonical (admitRecord s c qn q) := by
  unfold admitRecord
  split
  extract_lets fail
  have hfail (s : State) (ht : s.Canonical) : (fail s).Canonical :=
    Canonical_kernelFault (Canonical_takeRecord (Canonical_leaveAsks ht))
  refine .ite (.some (hfail _ hs)) ?_
  split
  · exact .some (Canonical_kernelFault (Canonical_faultRecord (Canonical_takeRecord (Canonical_leaveAsks hs))))
  · have ht {m : Nat} {k : Kernel} : (takeRecord s c m true k).1.Canonical := Canonical_takeRecord hs
    exact .ite .none (.ite (.some (hfail _ hs)) (.ite
      (.ite .none (.ite (Canonical_admitBank hs hfail) (.some (hfail _ hs))))
      (.ite (.some (hfail _ hs)) (.some (.ite (Canonical_completeKernel ht) ht)))))

theorem Canonical_tryKernelAdmission {ctx queue : Nat} {s : State} (hs : s.Canonical) :
    SomeCanonical (tryKernelAdmission ctx queue s) := by
  unfold tryKernelAdmission
  split
  · exact .none
  · split
    · exact .none
    · refine .ite .none ?_
      extract_lets s1 s2
      have ht : s2.Canonical := .ite (Canonical_passTurn (Canonical_setCtx hs)) (Canonical_setCtx hs)
      split
      · next e => exact .some ((Canonical_admitRecord ht).of_some e)
      · exact .ite .none (.some ht)

theorem Canonical_tryKernelComplete {kernel : Nat} {s : State} (hs : s.Canonical) :
    SomeCanonical (tryKernelComplete kernel s) := by
  unfold tryKernelComplete
  split
  · exact .ite (.some (Canonical_completeKernel hs)) .none
  · exact .none

theorem Canonical_tryKernelSkipped {kernel : Nat} {s : State} (hs : s.Canonical) :
    SomeCanonical (tryKernelSkipped kernel s) := by
  unfold tryKernelSkipped
  split
  · exact .ite (.some (Canonical_modQueueLine (Canonical_setKernel hs))) .none
  · exact .none

theorem Canonical_tryTileHardwareFault {group core : Nat} {coreLost : Bool} {s : State} (hs : s.Canonical) :
    SomeCanonical (tryTileHardwareFault group core coreLost s) := by
  unfold tryTileHardwareFault
  extract_lets lose s1
  have h1 : s1.Canonical := .ite (Canonical_setCore hs) hs
  split
  · exact .ite (.some h1) .none
  · split
    · exact .none
    · extract_lets s2
      have h2 : s2.Canonical := .ite (Canonical_faultRecord h1) h1
      exact .ite .none (.ite (.some (Canonical_settleCtx (Canonical_setGroup (Canonical_endGroup h2))))
        (.some (Canonical_kernelFault h2)))

theorem Canonical_reserveParking {s : State} {gid : Nat} (hs : s.Canonical) :
    SomeCanonical (reserveParking s gid) :=
  .foldl (fun _ _ ht => .bind ht (fun _ ht => Canonical_reserveGroup ht)) (.some hs)

theorem Canonical_askGroups {s : State} {gid : Nat} {w : Option Want} {mig : Bool} (hs : s.Canonical) :
    SomeCanonical (askGroups s gid w mig) := by
  unfold askGroups
  split
  · next e => exact .some (Canonical_foldl _ _ (fun _ _ ht => Canonical_requestGroup ht)
      ((Canonical_reserveParking hs).of_some e))
  · exact .none

theorem Canonical_tryPreemptionRequest {group : Nat} {s : State} (hs : s.Canonical) :
    SomeCanonical (tryPreemptionRequest group s) := by
  unfold tryPreemptionRequest
  split
  · split
    · exact .none
    · refine .ite .none (.ite (Canonical_askGroups hs) (.ite (Canonical_askGroups hs) ?_))
      split
      · exact Canonical_askGroups hs
      · exact .none
  · refine .ite .none (.ite ?_ ?_)
    · dsimp only
      split
      · next e => exact .some (Canonical_requestStreams ((Canonical_reserveStreams _ hs).of_some e))
      · exact .none
    · split
      · dsimp only
        split
        · next e => exact .some (Canonical_requestStreams ((Canonical_reserveStreams _ hs).of_some e))
        · exact .none
      · exact .none
  · exact .none

theorem Canonical_tryHartUnstall {hart : Nat} {s : State} (hs : s.Canonical) :
    SomeCanonical (tryHartUnstall hart s) := .ite (.some (Canonical_setLife hs)) .none

theorem Canonical_rewait {s : State} {k : Nat} {o : Option State} (hs : s.Canonical) (e : rewait s k = some o) :
    SomeCanonical o := by
  have ht : ({ s with cur := some (.hart k) } : State).Canonical := hs
  unfold rewait at e
  dsimp only at e
  split at e
  · cases e; exact Canonical_nextOf (Canonical_execTlwait ht)
  · cases e; exact Canonical_nextOf (Canonical_execBwait ht)
  · cases e; exact Canonical_nextOf (Canonical_execGsync ht)
  · cases e; exact Canonical_nextOf (Canonical_execWaite ht)
  · cases e

theorem Canonical_pollBarrier {s : State} {k : Nat} {h : Hart} {o : Option State} (hs : s.Canonical)
    (e : pollBarrier s k h = some o) : SomeCanonical o := by
  have again {c : Bool} {u : Option (Option State)} (e : (if c then rewait s k else u) = some o)
      (hu : u = some o → SomeCanonical o) : SomeCanonical o := by
    split at e
    · exact Canonical_rewait hs e
    · exact hu e
  have told {t : State} (ht : t.Canonical) (e : some (some t) = some o) : SomeCanonical o := by
    cases e; exact .some ht
  unfold pollBarrier at e
  dsimp only at e
  by_cases hp : h.waitObj.getD 0 < 2 ^ 50
  · rw [if_pos hp] at e
    exact again e fun e => by cases e; exact .none
  · rw [if_neg hp] at e
    split at e
    · exact again e (told (Canonical_podDone hs))
    · exact told (Canonical_podDone hs) e
    · split at e
      · exact told (Canonical_askPod hs) e
      · cases e; exact .none

theorem Canonical_tryHartWake {hart : Nat} {s : State} (hs : s.Canonical) : SomeCanonical (tryHartWake hart s) := by
  unfold tryHartWake
  dsimp only
  split
  · exact .none
  · have wake {o : Option State} (e : (if (s.hart hart).pollsBarrier then pollBarrier s hart (s.hart hart)
        else rewait s hart) = some o) : SomeCanonical o := by
      split at e
      · exact Canonical_pollBarrier hs e
      · exact Canonical_rewait hs e
    split
    · next e =>
      split
      · exact .none
      · exact .some (State.Canonical.update (wake e))
    · next e => exact wake e
    · split
      · exact .some (Canonical_setLife hs)
      · exact .none

theorem Canonical_tryMatrixWordComplete {core : Nat} {s : State} (hs : s.Canonical) :
    SomeCanonical (tryMatrixWordComplete core s) := by
  unfold tryMatrixWordComplete
  dsimp only
  split
  · exact .none
  · refine .some ?_
    split
    · exact Canonical_settleGroup (Canonical_modHart (Canonical_setCore hs))
    · exact Canonical_modHart (Canonical_setCore hs)

theorem Canonical_tryAccHandoff {core acc : Nat} {s : State} (hs : s.Canonical) :
    SomeCanonical (tryAccHandoff core acc s) := by
  unfold tryAccHandoff
  dsimp only
  split
  · exact .ite (.some (Canonical_setLife hs)) .none
  · exact .none

theorem Canonical_tryGatherDelivered {hart vd : Nat} {s : State} (hs : s.Canonical) :
    SomeCanonical (tryGatherDelivered hart vd s) := by
  unfold tryGatherDelivered
  dsimp only
  split
  · exact .some (Canonical_setHart hs)
  · exact .none

/-! ## The host -/

theorem Canonical_finishCmd {cmd : Nat} {addr : BitVec 58} {r : Option State} {s : State} (hr : SomeCanonical r)
    (hs : s.Canonical) : Out.Canonical (finishCmd cmd addr r s) :=
  .next (Canonical_raiseVector ((SomeCanonical.getD hr hs).update))

theorem Canonical_execCreateContext {addr : BitVec 58} {s : State} (hs : s.Canonical) :
    Out.Canonical (execCreateContext addr s) :=
  Canonical_finishCmd (.ite .none (.some (Canonical_physWrite _ _ _ (Canonical_physWrite _ _ _
    (Canonical_setCtxState (Canonical_setCtx hs)))))) hs

theorem Canonical_execEnableQueue {addr : BitVec 58} {s : State} (hs : s.Canonical) :
    Out.Canonical (execEnableQueue addr s) := by
  refine Canonical_finishCmd ?_ hs
  split
  · exact .none
  · extract_lets old o q s1 s2 s3 s4
    have h4 : s4.Canonical := (Canonical_physWrite _ _ _ (Canonical_physWrite _ _ _
      (Canonical_setQueueState (Canonical_setCtx hs)))).update
    exact .ite .none (.some (.ite (Canonical_setCtxState h4) h4))

theorem Canonical_execDisableQueue {addr : BitVec 58} {s : State} (hs : s.Canonical) :
    Out.Canonical (execDisableQueue addr s) := by
  refine Canonical_finishCmd ?_ hs
  refine .map fun _ _ => ?_
  dsimp only
  split
  · exact Canonical_setQueueState hs
  · exact Canonical_setCtx (Canonical_leaveAsks (Canonical_setQueueState hs))

theorem Canonical_unbindGroup {s : State} {gid : Nat} (hs : s.Canonical) : (unbindGroup s gid).Canonical := by
  unfold unbindGroup
  split
  · exact hs
  · refine .ite hs (Canonical_setGroup (Canonical_foldl _ _ (fun _ _ ht => ?_) hs))
    split
    · exact Canonical_renameOps (Canonical_setHart (Canonical_leavePods ht))
    · exact ht

theorem Canonical_reserveCtx {s : State} {c : Nat} (hs : s.Canonical) : SomeCanonical (reserveCtx s c) := by
  refine .bind (.foldl (fun _ _ ht => .bind ht (fun _ ht => Canonical_reserveGroup ht)) (.some hs)) fun _ ht => .foldl
    (fun _ _ ht => ?_) (.some ht)
  refine .bind ht fun _ ht => ?_
  split
  · exact .ite (Canonical_reserveStreams _ ht) (.some ht)
  · exact .some ht

theorem Canonical_execSuspendContext {addr : BitVec 58} {s : State} (hs : s.Canonical) :
    Out.Canonical (execSuspendContext addr s) := by
  refine Canonical_finishCmd ?_ hs
  split
  · exact .none
  · exact .ite .none (.map (fun _ e => Canonical_setCtxState (Canonical_foldl _ _ (fun _ _ ht =>
      Canonical_requestStreams ht) (Canonical_foldl _ _ (fun _ _ ht => Canonical_requestGroup ht)
      ((Canonical_reserveCtx (Canonical_foldl _ _ (fun _ _ ht => Canonical_unbindGroup ht) hs)).of_some e)))))

theorem Canonical_execResumeContext {addr : BitVec 58} {s : State} (hs : s.Canonical) :
    Out.Canonical (execResumeContext addr s) := by
  refine Canonical_finishCmd ?_ hs
  split
  · exact .none
  · exact .ite .none (.some (Canonical_setCtxState (Canonical_setCtx hs)))

theorem Canonical_execClearContextFault {addr : BitVec 58} {s : State} (hs : s.Canonical) :
    Out.Canonical (execClearContextFault addr s) := by
  refine Canonical_finishCmd ?_ hs
  split
  · exact .none
  · exact .ite .none (.some (Canonical_settleCtx (Canonical_setCtxState hs)))

theorem Canonical_dropMembers {s : State} {c : Nat} (hs : s.Canonical) : (dropMembers s c).Canonical := by
  refine State.Canonical.update (Canonical_foldl _ _ (fun _ _ ht => ?_) (Canonical_foldl _ _
    (fun _ _ ht => Canonical_endGroup ht) hs))
  split
  · exact Canonical_foldl _ _ (fun _ _ ht => .ite (Canonical_haltStream ht) ht) (Canonical_releaseBuf ht)
  · exact ht

theorem Canonical_leaveCtxAsks {s : State} {c : Nat} (hs : s.Canonical) : (leaveCtxAsks s c).Canonical :=
  Canonical_foldl _ _ (fun _ _ ht => Canonical_leaveAsks ht) hs

theorem Canonical_execDestroyContext {addr : BitVec 58} {s : State} (hs : s.Canonical) :
    Out.Canonical (execDestroyContext addr s) := by
  refine Canonical_finishCmd ?_ hs
  refine .map fun _ _ => ?_
  dsimp only
  split
  · exact Canonical_setCtx ((Canonical_setCtxState (Canonical_dropLams (Canonical_dropMembers
      (Canonical_leaveCtxAsks hs)))).update)
  · exact (Canonical_setCtxState (Canonical_dropLams (Canonical_dropMembers (Canonical_leaveCtxAsks hs)))).update

theorem Canonical_execRingNotify {addr : BitVec 58} {s : State} (hs : s.Canonical) :
    Out.Canonical (execRingNotify addr s) := by
  refine Canonical_finishCmd ?_ hs
  split
  · exact .none
  · refine .ite .none ?_
    split
    · exact .none
    · exact .some (Canonical_setCtx hs)

theorem Canonical_tlbinv {c : BitVec 16} {all : Bool} {s : State} (hs : s.Canonical) :
    Out.Canonical (tlbinv c all s) := by
  refine .ite (.next hs) ?_
  split
  · exact .ite (.next (Canonical_raiseVector hs.update)) (.next (Canonical_setCtx hs.update))
  · exact .next (Canonical_raiseVector hs.update)

theorem Canonical_tryTlbinvDone {s : State} (hs : s.Canonical) : SomeCanonical (tryTlbinvDone s) :=
  .ite .none (.some (Canonical_raiseVector hs.update))

theorem Canonical_execAcctrSelect {s : State} (hs : s.Canonical) : Out.Canonical
    (execAcctrSelect s) := .next hs.update

theorem Canonical_execAcctrClear {s : State} (hs : s.Canonical) : Out.Canonical (execAcctrClear s) := .next hs.update

theorem Canonical_startRemap {s : State} {mask word : BitVec 26} {tower : Nat} {ok : Bool} (hs : s.Canonical) :
    Out.Canonical (startRemap s mask word tower ok) :=
  .ite (.next hs) (.ite (.next (Canonical_modTower hs.update)) (.next (Canonical_raiseVector hs.update)))

theorem Canonical_execRemapRetireBank {tower : BitVec 3} {pc : BitVec 6} {bank : BitVec 4} {s : State}
    (hs : s.Canonical) : Out.Canonical (execRemapRetireBank tower pc bank s) := Canonical_startRemap hs

theorem Canonical_execRemapSetFloor {tower : BitVec 3} {floor : BitVec 12} {s : State} (hs : s.Canonical) :
    Out.Canonical (execRemapSetFloor tower floor s) := Canonical_startRemap hs

theorem Canonical_tryRemapDone {s : State} (hs : s.Canonical) : SomeCanonical (tryRemapDone s) :=
  .ite .none (.ite (.ite .none (.some (Canonical_raiseVector ((Canonical_setTower
    (Canonical_moveSpread _ _ _)).update)))) (.some (Canonical_raiseVector ((Canonical_setTower hs).update))))

theorem Canonical_execHosterrClear {s : State} (hs : s.Canonical) : Out.Canonical (execHosterrClear s) :=
  .next hs.update

theorem Canonical_execPodidWrite {v : Word} {s : State} (hs : s.Canonical) : Out.Canonical (execPodidWrite v s) :=
  .ite (.next hs) (.next hs.update)

theorem Canonical_tryHostBar2Read {addr len : Nat} {s : State} (hs : s.Canonical) :
    SomeCanonical (tryHostBar2Read addr len s) := .ite .none (.some hs.update)

theorem Canonical_tryHostBar2Write {addr : Nat} {data : List Byte} {s : State} (hs : s.Canonical) :
    SomeCanonical (tryHostBar2Write addr data s) := .ite .none (.some ((Canonical_store _ _ _ hs).update))

/-! ## The ports -/

theorem Canonical_tryPoolPortUp {port width size : Nat} {s : State} (hs : s.Canonical) :
    SomeCanonical (tryPoolPortUp port width size s) := .ite .none (.some (Canonical_raiseVector hs.update))

theorem Canonical_tryPoolPortDown {port : Nat} {s : State} (hs : s.Canonical) :
    SomeCanonical (tryPoolPortDown port s) := .ite (.some (Canonical_raiseVector hs.update)) .none

theorem Canonical_setPort {s : State} {n : Nat} {p : UlPort} (hs : s.Canonical) : (setPort s n p).Canonical :=
  .ite hs.update (Canonical_raiseVector hs.update)

theorem Canonical_rerouted {s : State} {n : Nat} (hs : s.Canonical) : (rerouted s n).Canonical :=
  Canonical_foldl _ _ (fun _ _ ht => Canonical_sendFlit ht) hs.update

theorem Canonical_portDown {s : State} {n : Nat} {p : UlPort} (hs : s.Canonical) : (portDown s n p).Canonical :=
  Canonical_rerouted (Canonical_setPort hs)

theorem Canonical_tryUlportEnable {port : Nat} {s : State} (hs : s.Canonical) :
    SomeCanonical (tryUlportEnable port s) :=
  .ite .none (.ite (.some (Canonical_setPort hs)) (.some (Canonical_setPort hs)))

theorem Canonical_execUlportEnable {port : Nat} {s : State} (hs : s.Canonical) :
    Out.Canonical (execUlportEnable port s) := Canonical_comes (Canonical_tryUlportEnable hs) hs

theorem Canonical_tryUlportDrain {port : Nat} {s : State} (hs : s.Canonical) :
    SomeCanonical (tryUlportDrain port s) :=
  .ite .none (.ite (.some (Canonical_setPort hs)) (.some (Canonical_setPort hs)))

theorem Canonical_execUlportDrain {port : Nat} {s : State} (hs : s.Canonical) :
    Out.Canonical (execUlportDrain port s) := Canonical_comes (Canonical_tryUlportDrain hs) hs

theorem Canonical_retireLane {s : State} {n : Nat} {p : UlPort} {lane : BitVec 2} (hs : s.Canonical) :
    (retireLane s n p lane).Canonical := .ite (Canonical_portDown hs) (Canonical_setPort hs)

theorem Canonical_tryUlportRetireLane {port : Nat} {lane : BitVec 2} {s : State} (hs : s.Canonical) :
    SomeCanonical (tryUlportRetireLane port lane s) :=
  .ite .none (.ite (.some (Canonical_retireLane hs)) (.some (Canonical_setPort hs)))

theorem Canonical_execUlportRetireLane {port : Nat} {lane : BitVec 2} {s : State} (hs : s.Canonical) :
    Out.Canonical (execUlportRetireLane port lane s) := Canonical_comes (Canonical_tryUlportRetireLane hs) hs

theorem Canonical_tryLaneTrainingDone {port : Nat} {lanes : BitVec 4} {peer : BitVec 11} {peerPort : BitVec 6}
    {s : State} (hs : s.Canonical) : SomeCanonical (tryLaneTrainingDone port lanes peer peerPort s) :=
  .ite .none (.ite (.some (Canonical_setPort hs)) (.some (Canonical_setPort hs)))

theorem Canonical_tryLaneErrorThreshold {port : Nat} {lane : BitVec 2} {s : State} (hs : s.Canonical) :
    SomeCanonical (tryLaneErrorThreshold port lane s) := .ite (.some (Canonical_retireLane hs)) .none

theorem Canonical_tryPartnerLost {port : Nat} {s : State} (hs : s.Canonical) :
    SomeCanonical (tryPartnerLost port s) := .ite (.some (Canonical_portDown hs)) .none

theorem Canonical_tryPortDrained {port : Nat} {s : State} (hs : s.Canonical) :
    SomeCanonical (tryPortDrained port s) := .ite .none (.some (Canonical_setPort hs))

theorem Canonical_tryFlitReceived {port : Nat} {flit : Flit} {s : State} (hs : s.Canonical) :
    SomeCanonical (tryFlitReceived port flit s) :=
  .ite .none (.ite (.some (Canonical_setPort hs)) (.ite (.some (Canonical_setPort hs)) (.some hs)))

theorem Canonical_podPerform {s : State} {addr : Nat} {x : PodOp} (hs : s.Canonical) :
    (podPerform s addr x).Canonical := by
  unfold podPerform
  split
  · exact hs
  · exact Canonical_store _ _ _ hs
  · exact Canonical_store _ _ _ hs
  · dsimp only
    split
    · exact Canonical_store _ _ _ hs
    · exact hs
  · split
    · exact Canonical_store _ _ _ hs
    · exact hs

theorem Canonical_answerPeer {s : State} {peer : Nat} {r : PodReply} (hs : s.Canonical) :
    (answerPeer s peer r).Canonical := by
  unfold answerPeer
  dsimp only
  split
  · exact Canonical_sendFlit hs.update
  · exact hs.update

theorem Canonical_countPeer {s : State} {pa : Nat} (hs : s.Canonical) : (countPeer s pa).Canonical :=
  .ite (.ite (Canonical_countFrame hs.update) hs.update) hs

theorem Canonical_tryPodRequestReceived {peer addr : Nat} {op : PodOp} {s : State} (hs : s.Canonical) :
    SomeCanonical (tryPodRequestReceived peer addr op s) :=
  .ite .none (.ite (.some (Canonical_answerPeer hs)) (.ite (.some (Canonical_answerPeer (Canonical_countPeer hs)))
    (.some (Canonical_answerPeer (Canonical_countPeer (Canonical_podPerform hs))))))

theorem Canonical_tryPodResponseReceived {peer req : Nat} {reply : PodReply} {s : State} (hs : s.Canonical) :
    SomeCanonical (tryPodResponseReceived peer req reply s) := by
  unfold tryPodResponseReceived
  split
  · exact .ite (.some hs.update) .none
  · exact .none

/-! ## Power, heat, service and reset -/

theorem Canonical_setTherm {s : State} {die : Nat} {t : Therm} (hs : s.Canonical) :
    (s.setTherm die t).Canonical := hs.update

theorem Canonical_allCores {s : State} {f : Nat → Core → Core} (hs : s.Canonical) :
    (s.allCores f).Canonical := Canonical_foldl _ _ (fun _ _ ht => Canonical_setCore ht) hs

theorem Canonical_controllerRuns {s : State} (hs : s.Canonical) : (controllerRuns s).Canonical :=
  (Canonical_allCores hs).update

theorem Canonical_tryLaneRateChange {core : Nat} {half : Bool} {s : State} (hs : s.Canonical) :
    SomeCanonical (tryLaneRateChange core half s) :=
  .ite .none (.some (Canonical_setCore (.ite (Canonical_controllerRuns hs) hs)))

theorem Canonical_tryVoltageDroop {core : Nat} {s : State} (hs : s.Canonical) :
    SomeCanonical (tryVoltageDroop core s) := .ite (.some hs) .none

theorem Canonical_tryWayGate {tower : Nat} {s : State} (hs : s.Canonical) : SomeCanonical (tryWayGate tower s) :=
  .ite (.some (Canonical_setTower hs)) .none

theorem Canonical_tryWayEnable {tower : Nat} {s : State} (hs : s.Canonical) :
    SomeCanonical (tryWayEnable tower s) := .ite (.some (Canonical_setTower hs)) .none

theorem Canonical_senseAt {s : State} {die col least below : Nat} (hs : s.Canonical) :
    (s.senseAt die col least below).Canonical := (Canonical_setTherm hs).update

theorem Canonical_tryHotTrip {die col : Nat} {s : State} (hs : s.Canonical) :
    SomeCanonical (tryHotTrip die col s) := .ite (.some (Canonical_senseAt (Canonical_setTherm hs))) .none

theorem Canonical_tryHotClear {die col : Nat} {s : State} (hs : s.Canonical) :
    SomeCanonical (tryHotClear die col s) := .ite (.some (Canonical_senseAt (Canonical_setTherm hs))) .none

theorem Canonical_tryThrottleTrip {die col : Nat} {s : State} (hs : s.Canonical) :
    SomeCanonical (tryThrottleTrip die col s) :=
  .ite (.some (Canonical_senseAt (Canonical_setTherm (Canonical_foldl _ _ (fun _ _ ht => Canonical_setCore ht) hs))))
    .none

theorem Canonical_tryThrottleClear {die col : Nat} {s : State} (hs : s.Canonical) :
    SomeCanonical (tryThrottleClear die col s) :=
  .ite (.some (Canonical_senseAt (Canonical_setTherm (Canonical_foldl _ _ (fun _ _ ht => Canonical_setCore ht) hs))))
    .none

theorem Canonical_stopHart {s : State} {k : Nat} (hs : s.Canonical) : (stopHart s k).Canonical :=
  Canonical_modHart (Canonical_cutBound (Canonical_leaveOrders (.ite
    (SomeCanonical.getD (Canonical_tryMatrixWordComplete (Canonical_modHart hs)) (Canonical_modHart hs))
    (Canonical_modHart hs))))

theorem Canonical_writeEmergency {s : State} {pa k : Nat} (hs : s.Canonical) : (writeEmergency s pa k).Canonical :=
  .ite (Canonical_physWords _ _ (Canonical_physWrite _ _ _ (Canonical_physWords _ _ hs))) (Canonical_foldl _ _
    (fun _ _ ht => .ite (Canonical_store _ _ _ ht) ht) (Canonical_foldl _ _ (fun _ _ ht => Canonical_store _ _ _ ht)
    (Canonical_physWords _ _ (Canonical_physWrite _ _ _ (Canonical_physWords _ _ hs)))))

theorem Canonical_saveMember {s : State} {gid parkbase n : Nat} {m : Member} {k : Nat} (hs : s.Canonical) :
    (saveMember s gid parkbase n m k).Canonical := by
  unfold saveMember
  dsimp only
  split
  · exact Canonical_stopHart hs
  · exact Canonical_setHart (Canonical_leavePods (Canonical_setMember (Canonical_renameOps
      (Canonical_writeEmergency (Canonical_writeRecord (Canonical_stopHart hs))))))

theorem Canonical_writeTileStore {s : State} {c pa : Nat} (hs : s.Canonical) : (writeTileStore s c pa).Canonical :=
  (Canonical_store _ _ _ (Canonical_store _ _ _ hs)).update

theorem Canonical_saveGroup {s : State} {gid parkbase : Nat} (hs : s.Canonical) :
    (saveGroup s gid parkbase).Canonical := by
  unfold saveGroup
  split
  · exact hs
  · extract_lets s1 s2 s3
    have h1 : s1.Canonical := by
      refine Canonical_foldl _ _ (fun _ _ ht => ?_) hs
      split
      · exact .ite ht (Canonical_saveMember ht)
      · exact ht
    have h3 : s3.Canonical := Canonical_foldl _ _ (fun _ _ ht => Canonical_freeCore ht)
      (Canonical_foldl _ _ (fun _ _ ht => Canonical_writeTileStore (Canonical_writeCore ht)) h1)
    split
    · exact .ite (Canonical_setGroup h3) (Canonical_endGroup (Canonical_setGroup h3))
    · exact h3

theorem Canonical_loseCtx {s : State} {c : Nat} (hs : s.Canonical) : (loseCtx s c).Canonical := by
  refine Canonical_setCtxState ?_
  split
  · exact Canonical_setCtx (Canonical_dropLams (Canonical_dropMembers (Canonical_leaveCtxAsks hs)))
  · exact Canonical_dropLams (Canonical_dropMembers (Canonical_leaveCtxAsks hs))

theorem Canonical_saveCtx {s : State} {c : Nat} (hs : s.Canonical) : (saveCtx s c).Canonical := by
  unfold saveCtx
  split
  · next e _ =>
    refine Canonical_settleCtx (Canonical_foldl _ _ (fun _ _ ht => ?_) (Canonical_foldl _ _
      (fun _ _ ht => Canonical_saveGroup ht) ((Canonical_reserveCtx hs).of_some e)))
    split
    · exact Canonical_foldl _ _ (fun _ _ ht => .ite (Canonical_parkStream ht) ht) (Canonical_requestStreams ht)
    · exact ht
  · exact Canonical_loseCtx hs

theorem Canonical_unbindAll {s : State} (hs : s.Canonical) : (unbindAll s).Canonical :=
  Canonical_foldl _ _ (fun _ _ ht => Canonical_unbindGroup ht) hs

theorem Canonical_emergency {s : State} (hs : s.Canonical) : (emergency s).Canonical :=
  Canonical_foldl _ _ (fun _ _ ht => Canonical_saveCtx ht) (Canonical_unbindAll hs.update)

theorem Canonical_tryCritTrip {die col : Nat} {s : State} (hs : s.Canonical) :
    SomeCanonical (tryCritTrip die col s) :=
  .ite (.some (Canonical_emergency (Canonical_senseAt (Canonical_setTherm hs)))) .none

theorem Canonical_loseContexts {s : State} (hs : s.Canonical) : (loseContexts s).Canonical :=
  Canonical_foldl _ _ (fun _ _ ht => Canonical_loseCtx ht) (Canonical_unbindAll hs)

theorem Canonical_tryHardPowerOff {s : State} (hs : s.Canonical) : SomeCanonical (tryHardPowerOff s) :=
  .ite (.some ((Canonical_foldl _ _ (fun _ _ ht => Canonical_setCtxState ht) (Canonical_loseContexts hs)).update))
    .none

theorem Canonical_resetChip {s : State} (hs : s.Canonical) : (resetChip s).Canonical := hs.update

theorem Canonical_execDeviceReset {s : State} (hs : s.Canonical) : Out.Canonical (execDeviceReset s) :=
  .next (Canonical_foldl _ _ (fun _ _ ht => Canonical_faultRecord ht) (Canonical_resetChip
    (Canonical_loseContexts hs)))

theorem Canonical_execBistGo {tower : BitVec 3} {pc : BitVec 6} {bank : BitVec 4} {s : State} (hs : s.Canonical) :
    Out.Canonical (execBistGo tower pc bank s) := .ite (.next hs) (.ite (.next hs.update) (.next hs.update))

theorem Canonical_tryBistDone {pass : Bool} {s : State} (hs : s.Canonical) : SomeCanonical (tryBistDone pass s) :=
  .ite .none (.ite (.some hs.update.update) (.some (.ite ((Canonical_modBank hs.update).update) hs.update.update)))

theorem Canonical_fwEnd {s : State} {r : BitVec 3} (hs : s.Canonical) : (fwEnd s r).Canonical := hs.update

theorem Canonical_fwInstall {s : State} {c : Nat} {image : List Byte} (hs : s.Canonical) :
    (fwInstall s c image).Canonical := .ite (Canonical_controllerRuns hs.update.update) hs.update

theorem Canonical_holdSafe {s : State} (hs : s.Canonical) : (holdSafe s).Canonical := (Canonical_allCores hs).update

theorem Canonical_execFwCommit {s : State} (hs : s.Canonical) : Out.Canonical (execFwCommit s) := by
  refine .ite ?_ ?_
  · split
    · exact .next (Canonical_fwEnd (Canonical_fwInstall hs))
    · exact .next hs
  · dsimp only
    split
    · exact .next (Canonical_fwEnd hs.update)
    · exact .next (State.Canonical.update (.ite (Canonical_holdSafe hs.update) hs.update))

theorem Canonical_tryFwBootromRestore {s : State} (hs : s.Canonical) : SomeCanonical (tryFwBootromRestore s) := by
  refine .ite .none (.some ?_)
  split
  · exact hs.update
  · exact Canonical_fwEnd (Canonical_fwInstall hs.update)

theorem Canonical_execFwAttest {s : State} (hs : s.Canonical) : Out.Canonical (execFwAttest s) :=
  .ite (.next hs) (.next ((Canonical_fwEnd (Canonical_store _ _ _ hs.update)).update))

theorem Canonical_writeHqcmd {v : Word} {s : State} (hs : s.Canonical) : Out.Canonical (writeHqcmd v s) := by
  unfold writeHqcmd
  dsimp only
  split
  · exact Canonical_execCreateContext hs
  · exact Canonical_execEnableQueue hs
  · exact Canonical_execDisableQueue hs
  · exact Canonical_execSuspendContext hs
  · exact Canonical_execResumeContext hs
  · exact Canonical_execClearContextFault hs
  · exact Canonical_execDestroyContext hs
  · exact Canonical_execRingNotify hs

theorem Canonical_writeUlport {n : Nat} {v : Word} {s : State} (hs : s.Canonical) :
    Out.Canonical (writeUlport n v s) := by
  unfold writeUlport
  dsimp only
  split
  · exact Canonical_execUlportEnable hs.update
  · exact Canonical_execUlportDrain hs.update
  · exact Canonical_execUlportRetireLane hs.update
  · exact .next (Canonical_setPort hs.update)

theorem Canonical_writeHost {off : Nat} {v : Word} {s : State} (hs : s.Canonical) :
    Out.Canonical (writeHost off v s) := by
  refine .ite (Canonical_writeUlport hs) (.ite (.next hs.update) ?_)
  split
  · exact Canonical_writeHqcmd hs
  · exact .next hs.update
  · exact Canonical_tlbinv hs
  iterate 3 exact .next hs.update
  · exact .ite (Canonical_execRemapSetFloor (.ite hs hs.update)) (Canonical_execRemapRetireBank (.ite hs hs.update))
  · exact .ite (Canonical_execAcctrClear hs) (Canonical_execAcctrSelect hs)
  · exact .next hs.update
  · exact Canonical_execPodidWrite hs
  · exact .ite (Canonical_execHosterrClear hs) (.next hs)
  · exact .next hs

theorem Canonical_writeMgmt {off : Nat} {v : Word} {s : State} (hs : s.Canonical) :
    Out.Canonical (writeMgmt off v s) := by
  unfold writeMgmt
  split
  · exact .ite (.next hs) (.ite (Canonical_execBistGo hs) (.next hs.update))
  · refine .ite (.next hs) ?_
    dsimp only
    split
    · exact Canonical_execFwCommit hs.update
    · exact Canonical_execFwAttest hs.update
    · exact .next hs.update
  · exact .next hs.update
  · exact .next hs

/-! ## VALU -/

theorem Canonical_valuBin {mk : VWord → Instr} {w : VWord} {f : Nat → Nat → Nat → Nat} {s : State}
    (hs : s.Canonical) : Out.Canonical (valuBin mk w f s) := by
  refine Canonical_slotOp hs fun _ _ _ => ?_
  dsimp only
  split
  · next e => exact .error ((Canonical_vecCheck hs).of_error e)
  · exact .ok (Canonical_vecWrite hs)

theorem Canonical_execVmerge {w : VWord} {s : State} (hs : s.Canonical) : Out.Canonical (execVmerge w s) := by
  refine Canonical_slotOp hs fun _ _ _ => ?_
  dsimp only
  split
  · next e => exact .error ((Canonical_vecCheck hs).of_error e)
  · exact .ok (Canonical_vecWrite hs)

theorem Canonical_execVmovx {w : VWord} {s : State} (hs : s.Canonical) : Out.Canonical (execVmovx w s) := by
  refine Canonical_slotOp hs fun _ _ _ => .ite ?_ ?_
  · split
    · next e => exact .error ((Canonical_vecCheck hs).of_error e)
    · exact .ite (.ok hs) (.ok (Canonical_wrX hs))
  · split
    · next e => exact .error ((Canonical_vecCheck hs).of_error e)
    · exact .ok (Canonical_vecWrite hs)

theorem Canonical_execVidx {w : VWord} {s : State} (hs : s.Canonical) : Out.Canonical (execVidx w s) := by
  refine Canonical_slotOp hs fun _ _ _ => ?_
  dsimp only
  split
  · next e => exact .error ((Canonical_vecCheck hs).of_error e)
  · exact .ok (Canonical_vecWrite hs)

theorem Canonical_execVcmp {w : VWord} {s : State} (hs : s.Canonical) : Out.Canonical (execVcmp w s) := by
  refine Canonical_slotOp hs fun _ _ _ => ?_
  dsimp only
  split
  · next e => exact .error ((Canonical_vecCheck hs).of_error e)
  · exact .ok (Canonical_predWrite hs)

theorem Canonical_valuWiden {mk : VWord → Instr} {w : VWord} {f : Int → Int → Int} {s : State} (hs : s.Canonical) :
    Out.Canonical (valuWiden mk w f s) := by
  refine Canonical_slotOp hs fun _ _ _ => ?_
  dsimp only
  split
  · next e => exact .error ((Canonical_vecCheck hs).of_error e)
  · exact .ok (Canonical_vecWrite hs)

theorem Canonical_execVnarrow {w : VWord} {s : State} (hs : s.Canonical) : Out.Canonical (execVnarrow w s) := by
  refine Canonical_slotOp hs fun _ _ _ => ?_
  dsimp only
  split
  · next e => exact .error ((Canonical_vecCheck hs).of_error e)
  · exact .ok (Canonical_vecWrite hs)

theorem Canonical_predOp {mk : VWord → Instr} {w : VWord} {f : Bool → Bool → Bool} {s : State} (hs : s.Canonical) :
    Out.Canonical (predOp mk w f s) := by
  refine Canonical_slotOp hs fun _ _ _ => ?_
  split
  · next e => exact .error (Canonical_vlCheck.of_error e)
  · exact .ok (Canonical_predWrite hs)

theorem Canonical_predScan {mk : VWord → Instr} {w : VWord} {f : List Nat → Nat → Nat} {s : State}
    (hs : s.Canonical) : Out.Canonical (predScan mk w f s) := by
  refine Canonical_slotOp hs fun _ _ _ => ?_
  split
  · next e => exact .error (Canonical_vlCheck.of_error e)
  · exact .ok (.ite hs (Canonical_wrX hs))

theorem Canonical_setvlOp {i : Instr} {d a : Reg} {dist : Option Reg} {ty : BitVec 5} {s : State} (hs : s.Canonical) :
    Out.Canonical (setvlOp i d a dist ty s) :=
  Canonical_scalarOp hs (fun _ _ => .ite (.raise _ _ _) (.ite (.raise _ _ _) (.ite (.raise _ _ _)
    (.ok (Canonical_wrX hs)))))

/-! ## VPERM and reductions -/

theorem Canonical_permOp {mk : VWord → Instr} {w : VWord} {two slide idx : Bool}
    {f : VWord → Nat → Nat → (Nat → Nat) → (Nat → Nat) → Nat → Option Nat} {s : State} (hs : s.Canonical) :
    Out.Canonical (permOp mk w two slide idx f s) := by
  refine Canonical_slotOp hs fun _ _ _ => ?_
  dsimp only
  split
  · next e => exact .error ((Canonical_vecCheck hs).of_error e)
  · exact .ite (.raise _ _ _) (.ite (.ok hs) (.ok (Canonical_setHart hs)))

theorem Canonical_selectOp {mk : VWord → Instr} {w : VWord} {f : List Nat → (Nat → Nat) → Nat → Option Nat}
    {s : State} (hs : s.Canonical) : Out.Canonical (selectOp mk w f s) := by
  refine Canonical_slotOp hs fun _ _ _ => ?_
  dsimp only
  split
  · next e => exact .error ((Canonical_vecCheck hs).of_error e)
  · exact .ite (.ok hs) (.ok (Canonical_setHart hs))

theorem Canonical_reduceOp {mk : VWord → Instr} {w : VWord} {ident : Nat → Nat}
    {f : Nat → RMode → Nat → Nat → Nat × Flags} {s : State} (hs : s.Canonical) :
    Out.Canonical (reduceOp mk w ident f s) := by
  refine Canonical_slotOp hs fun _ _ _ => ?_
  dsimp only
  split
  · next e => exact .error ((Canonical_vecCheck hs).of_error e)
  · exact .ite (.ok hs) (.ok (Canonical_setHart hs))

/-! ## Every instruction and step -/

theorem Canonical_exec {i : Instr} {s : State} (hs : s.Canonical) : Out.Canonical (exec i s) := by
  unfold exec
  cases i with
  | add | addW | sub | subW | and | or | xor | andn | sll | sllW | srl | srlW | sra | sraW | rol | ror | slt
  | sltn | min | max | minn | maxn | mul | mulW | mulh | mulhn | div | divW | divn | divnW | rem | remW | remn
  | remnW | clz | ctz | popc | addi | andi | ori | xori | slti | sltni | slli | srli | srai | rori | ldhi | addpc =>
    exact Canonical_writeOp hs
  | ld => exact Canonical_execLd hs
  | st => exact Canonical_execSt hs
  | beq | bne | blt | bge | bltn | bgen => exact Canonical_branchOp hs
  | jal => exact Canonical_jumpOp hs (fun _ _ => .ok (Canonical_wrX hs))
  | jalr => exact Canonical_jumpOp hs (fun _ _ => .ite (.raise _ _ _) (.ok (Canonical_wrX hs)))
  | amoswap | amoadd | amoand | amoor | amoxor | amomin | amomax | amominn | amomaxn | cas =>
    exact Canonical_atomicOp hs
  | fence | fenceI | hint => exact Canonical_scalarOp hs (fun _ _ => .ok hs)
  | trap => exact Canonical_scalarOp hs (fun _ _ => .raise _ _ _)
  | rett => exact Canonical_execRett hs
  | yield => exact Canonical_execYield hs
  | waite => exact Canonical_execWaite hs
  | csrr | csrw | csrs | csrc | csrx => exact Canonical_csrOp hs
  | setvl | setvlDistance => exact Canonical_setvlOp hs
  | cpw => exact Canonical_execCpw hs
  | cpgo => exact Canonical_execCpgo hs
  | tlwait => exact Canonical_execTlwait hs
  | tlread => exact Canonical_execTlread hs
  | binit => exact Canonical_execBinit hs
  | barrive => exact Canonical_execBarrive hs
  | bexp => exact Canonical_execBexp hs
  | bwait => exact Canonical_execBwait hs
  | btest => exact Canonical_execBtest hs
  | binval => exact Canonical_execBinval hs
  | klaunch => exact Canonical_execKlaunch hs
  | gsync => exact Canonical_execGsync hs
  | gexit => exact Canonical_execGexit hs
  | mxgo => exact Canonical_execMxgo hs
  | vadd | vsub | vmul | vmulh | vmin | vmax | vand | vor | vxor | vsll | vsrl | vsra | vsadd | vssub | vabsd =>
    exact Canonical_valuBin hs
  | vmerge => exact Canonical_execVmerge hs
  | vmovx => exact Canonical_execVmovx hs
  | vidx => exact Canonical_execVidx hs
  | vcmp => exact Canonical_execVcmp hs
  | vwmul | vwadd => exact Canonical_valuWiden hs
  | vnarrow => exact Canonical_execVnarrow hs
  | pand | por | pxor | pandn | pset => exact Canonical_predOp hs
  | pcnt | pfirst => exact Canonical_predScan hs
  | vfadd | vfsub | vfmul | vfma | vfms | vfnma | vfdiv | vfsqrt | vfmin | vfmax | vfrece | vfrsqe =>
    exact Canonical_vfpuOp hs
  | vfcmp => exact Canonical_execVfcmp hs
  | vfcvt => exact Canonical_execVfcvt hs
  | vld | vlds | vst | vsts => exact Canonical_strideOp hs
  | vldx => exact Canonical_execVldx hs
  | vldff => exact Canonical_execVldff hs
  | vstx => exact Canonical_execVstx hs
  | vperm | vslideup | vslidedn | vbcaste | vzip | vunzip => exact Canonical_permOp hs
  | vcompress | vexpand => exact Canonical_selectOp hs
  | vredsum | vredmax | vredmin | vfredsum => exact Canonical_reduceOp hs
  | vxqadd | vxqmax | vxqfma => exact Canonical_vxqOp hs
  | vexta | vinsa | vzera => exact Canonical_vaccOp hs
  | srd => exact Canonical_execSrd hs
  | srstat => exact Canonical_slotOp hs (fun _ _ _ => .ite (.error hs) (.ok (Canonical_wrX hs)))
  | mma => exact Canonical_execMma hs
  | mzero => exact Canonical_matrixOp hs (fun _ _ _ => .ok hs)
  | mtld => exact Canonical_execMtld hs
  | mtst => exact Canonical_execMtst hs
  | mqld => exact Canonical_execMqld hs
  | mqst => exact Canonical_execMqst hs
  | mqadd => exact Canonical_execMqadd hs
  | mqmul => exact Canonical_execMqmul hs
  | chisel => exact Canonical_execChisel hs
  | mqcast | mqfree | mqscl => exact Canonical_maquetteOp hs (fun _ _ _ => Canonical_tileFinish hs)
  | mqrank => exact Canonical_maquetteOp hs (fun _ _ _ => .ok (Canonical_wrX hs))
  | mthdr => exact Canonical_execMthdr hs
  | act => exact Canonical_bankWord hs (fun _ _ _ _ _ ht => Canonical_activate ht)
  | pre => exact Canonical_bankWord hs (fun _ _ _ _ _ ht => .ite ht (Canonical_precharge ht))
  | wb | refb | refq => exact Canonical_bankWord hs (fun _ _ _ _ _ ht => Canonical_modBank ht)
  | rcopy => exact Canonical_bankWord hs (fun _ _ _ _ _ ht => Canonical_modBank (Canonical_noteAct ht))
  | rzero | rcvt | qzero | qwb => exact Canonical_bankWord hs (fun _ _ => Canonical_laneWord)
  | radd | rsub | rmul | rmax | rmin | rand | rior | rxor | rcmp => exact Canonical_execRow2 hs
  | rshr | rscadd | rsel => exact Canonical_bankWord hs (fun _ _ => Canonical_arithWord)
  | qacc | qld => exact Canonical_bankWord hs (fun _ _ => Canonical_accWord)
  | qmac => exact Canonical_execQmac hs
  | rsweep => exact Canonical_execRsweep hs
  | shmov => exact Canonical_execShmov hs
  | bufst => exact Canonical_bankWord hs (fun _ _ _ _ _ ht => Canonical_modTower (Canonical_modBank ht))
  | bufld => exact Canonical_bankWord hs (fun _ _ _ _ _ ht => (Canonical_modBank ht).update)
  | bli | badd => exact Canonical_bWrite hs
  | bbr => exact Canonical_execBbr hs
  | bloop => exact Canonical_execBloop hs
  | bpset => exact Canonical_execBpset hs
  | bsplit => exact Canonical_execBsplit hs
  | bjoin => exact Canonical_controlWord hs (fun _ _ _ _ ht => Canonical_joinStep ht)
  | bsig => exact Canonical_execBsig hs
  | bend => exact Canonical_execBend hs
  | bwaitt => exact Canonical_controlWord hs (fun _ _ _ _ ht => Canonical_waittStep ht)
  | brett => exact Canonical_execBrett hs
  | bnop => exact Canonical_controlWord hs (fun _ _ _ _ ht => Canonical_nextWord ht)
  | tacuElapsed => exact Canonical_comes (Canonical_tryTacuElapsed hs) hs
  | rowPassEnd => exact Canonical_comes (Canonical_tryRowPassEnd hs) hs
  | twbkElapsed => exact Canonical_comes (Canonical_tryTwbkElapsed hs) hs
  | tpreElapsed => exact Canonical_comes (Canonical_tryTpreElapsed hs) hs
  | rcopyComplete => exact Canonical_comes (Canonical_tryRcopyComplete hs) hs
  | refbComplete => exact Canonical_comes (Canonical_tryRefbComplete hs) hs
  | busMoveEnd => exact Canonical_comes (Canonical_tryBusMoveEnd hs) hs
  | refreshInterval => exact Canonical_comes (Canonical_tryRefreshInterval hs) hs
  | refreshDeadline => exact Canonical_comes (Canonical_tryRefreshDeadline hs) hs
  | forcedRefresh => exact Canonical_comes (Canonical_tryForcedRefresh hs) hs
  | plinthRefresh => exact Canonical_comes (Canonical_tryPlinthRefresh hs) hs
  | ordinaryAccess => exact Canonical_comes (Canonical_tryOrdinaryAccess hs) hs
  | streamYield => exact Canonical_comes (Canonical_tryStreamYield hs) hs
  | yieldEnd => exact Canonical_comes (Canonical_tryYieldEnd hs) hs
  | activateHint => exact .next hs
  | streamWake => exact Canonical_comes (Canonical_tryStreamWake hs) hs
  | streamPark => exact Canonical_comes (Canonical_tryStreamPark hs) hs
  | streamResume => exact Canonical_comes (Canonical_tryStreamResume hs) hs
  | hartWake => exact Canonical_comes (Canonical_tryHartWake hs) hs
  | hartUnstall => exact Canonical_comes (Canonical_tryHartUnstall hs) hs
  | preempt => exact Canonical_comes (Canonical_tryPreempt hs) hs
  | preemptionRequest => exact Canonical_comes (Canonical_tryPreemptionRequest hs) hs
  | coreRecordSave => exact Canonical_comes (Canonical_tryCoreRecordSave hs) hs
  | hartResume => exact Canonical_comes (Canonical_tryHartResume hs) hs
  | tilePlacement => exact Canonical_comes (Canonical_tryTilePlacement hs) hs
  | queueAging => exact Canonical_comes (Canonical_tryQueueAging hs) hs
  | kernelAdmission => exact Canonical_comes (Canonical_tryKernelAdmission hs) hs
  | kernelComplete => exact Canonical_comes (Canonical_tryKernelComplete hs) hs
  | kernelSkipped => exact Canonical_comes (Canonical_tryKernelSkipped hs) hs
  | tileHardwareFault => exact Canonical_comes (Canonical_tryTileHardwareFault hs) hs
  | accHandoff => exact Canonical_comes (Canonical_tryAccHandoff hs) hs
  | matrixWordComplete => exact Canonical_comes (Canonical_tryMatrixWordComplete hs) hs
  | gatherDelivered => exact Canonical_comes (Canonical_tryGatherDelivered hs) hs
  | transferOpStart => exact Canonical_comes (Canonical_tryTransferOpStart hs) hs
  | elementGroupLands => exact Canonical_comes (Canonical_tryElementGroupLands hs) hs
  | transferOpComplete => exact Canonical_comes (Canonical_tryTransferOpComplete hs) hs
  | transferOpFault => exact Canonical_comes (Canonical_tryTransferOpFault hs) hs
  | lamAdmission => exact Canonical_comes (Canonical_tryLamAdmission hs) hs
  | lamDeadline => exact Canonical_comes (Canonical_tryLamDeadline hs) hs
  | lamComputeStart => exact Canonical_comes (Canonical_tryLamComputeStart hs) hs
  | lamWeightFault => exact Canonical_comes (Canonical_tryLamWeightFault hs) hs
  | lamComputeEnd => exact Canonical_comes (Canonical_tryLamComputeEnd hs) hs
  | lamSplitComplete => exact Canonical_comes (Canonical_tryLamSplitComplete hs) hs
  | createContext => exact Canonical_execCreateContext hs
  | enableQueue => exact Canonical_execEnableQueue hs
  | disableQueue => exact Canonical_execDisableQueue hs
  | suspendContext => exact Canonical_execSuspendContext hs
  | resumeContext => exact Canonical_execResumeContext hs
  | clearContextFault => exact Canonical_execClearContextFault hs
  | destroyContext => exact Canonical_execDestroyContext hs
  | ringNotify => exact Canonical_execRingNotify hs
  | tlbinvVa | tlbinvAll => exact Canonical_tlbinv hs
  | tlbinvDone => exact Canonical_comes (Canonical_tryTlbinvDone hs) hs
  | acctrSelect => exact Canonical_execAcctrSelect hs
  | acctrClear => exact Canonical_execAcctrClear hs
  | remapRetireBank => exact Canonical_execRemapRetireBank hs
  | remapSetFloor => exact Canonical_execRemapSetFloor hs
  | remapDone => exact Canonical_comes (Canonical_tryRemapDone hs) hs
  | hosterrClear => exact Canonical_execHosterrClear hs
  | podidWrite => exact Canonical_execPodidWrite hs
  | registerWrite => exact .ite (Canonical_writeMgmt hs) (Canonical_writeHost hs)
  | hostBar2Read => exact Canonical_comes (Canonical_tryHostBar2Read hs) hs
  | hostBar2Write => exact Canonical_comes (Canonical_tryHostBar2Write hs) hs
  | poolPortUp => exact Canonical_comes (Canonical_tryPoolPortUp hs) hs
  | poolPortDown => exact Canonical_comes (Canonical_tryPoolPortDown hs) hs
  | ulportEnable => exact Canonical_execUlportEnable hs
  | ulportDrain => exact Canonical_execUlportDrain hs
  | ulportRetireLane => exact Canonical_execUlportRetireLane hs
  | laneTrainingDone => exact Canonical_comes (Canonical_tryLaneTrainingDone hs) hs
  | laneErrorThreshold => exact Canonical_comes (Canonical_tryLaneErrorThreshold hs) hs
  | partnerLost => exact Canonical_comes (Canonical_tryPartnerLost hs) hs
  | portDrained => exact Canonical_comes (Canonical_tryPortDrained hs) hs
  | flitReceived => exact Canonical_comes (Canonical_tryFlitReceived hs) hs
  | podRequestReceived => exact Canonical_comes (Canonical_tryPodRequestReceived hs) hs
  | podResponseReceived => exact Canonical_comes (Canonical_tryPodResponseReceived hs) hs
  | laneRateChange => exact Canonical_comes (Canonical_tryLaneRateChange hs) hs
  | voltageDroop => exact Canonical_comes (Canonical_tryVoltageDroop hs) hs
  | wayGate => exact Canonical_comes (Canonical_tryWayGate hs) hs
  | wayEnable => exact Canonical_comes (Canonical_tryWayEnable hs) hs
  | hotTrip => exact Canonical_comes (Canonical_tryHotTrip hs) hs
  | hotClear => exact Canonical_comes (Canonical_tryHotClear hs) hs
  | throttleTrip => exact Canonical_comes (Canonical_tryThrottleTrip hs) hs
  | throttleClear => exact Canonical_comes (Canonical_tryThrottleClear hs) hs
  | critTrip => exact Canonical_comes (Canonical_tryCritTrip hs) hs
  | supplyLoss => exact .next (Canonical_emergency hs)
  | hardPowerOff => exact Canonical_comes (Canonical_tryHardPowerOff hs) hs
  | watchdogExpiry => exact .next ((Canonical_allCores hs).update)
  | bistGo => exact Canonical_execBistGo hs
  | bistDone => exact Canonical_comes (Canonical_tryBistDone hs) hs
  | fwCommit => exact Canonical_execFwCommit hs
  | fwAttest => exact Canonical_execFwAttest hs
  | fwBootromRestore => exact Canonical_comes (Canonical_tryFwBootromRestore hs) hs
  | deviceReset => exact Canonical_execDeviceReset hs
  | taprElapsed => exact Canonical_comes (Canonical_tryTaprElapsed hs) hs
  | taadElapsed => exact Canonical_comes (Canonical_tryTaadElapsed hs) hs
  | tfawWindowElapsed => exact Canonical_comes (Canonical_tryTfawWindowElapsed hs) hs
  | yieldRowCopyEnd => exact Canonical_comes (Canonical_tryYieldRowCopyEnd hs) hs
  | plinthBufferCrossingEnd => exact Canonical_comes (Canonical_tryPlinthBufferCrossingEnd hs) hs

/-! ## Fetch and issue -/

theorem Canonical_fetchBytes {s : State} {h : Hart} {va : Word} {n : Nat} :
    Ends (fun _ => True) (fetchBytes s h va n) := Canonical_hartLoad

theorem Canonical_fetchWords {s : State} {h : Hart} (n : Nat) {va : Word} :
    Ends (fun _ => True) (fetchWords s h va n) := by
  induction n generalizing va with
  | zero => trivial
  | succ n ih =>
    unfold fetchWords
    split
    · next e => exact .error (Canonical_fetchBytes.of_error e)
    · split
      · next e => exact .error (ih.of_error e)
      · trivial

theorem Canonical_fetchParcels {s : State} {h : Hart} (n : Nat) {va : Word} :
    Ends (fun _ => True) (fetchParcels s h va n) := by
  induction n generalizing va with
  | zero => trivial
  | succ n ih =>
    unfold fetchParcels
    split
    · next e => exact .error (Canonical_fetchBytes.of_error e)
    · exact ih

theorem Canonical_slotTrap {s : State} {k i : Nat} {t : Trap} (hs : s.Canonical) : (slotTrap s k i t).Canonical :=
  Canonical_modHart hs

theorem Canonical_enterConvoy {s : State} {k : Nat} {h : Hart} {p : Parcel} (hs : s.Canonical) :
    Ends (fun r => r.1.Canonical) (enterConvoy s k h p) := by
  refine .ite (.raise _ _ _) (.ite ?_ ?_)
  · split
    · next e => exact .error ((Canonical_fetchParcels _).of_error e)
    · exact .raise _ _ _
  · split
    · next e => exact .error ((Canonical_fetchWords _).of_error e)
    · refine .ite (.raise _ _ _) ?_
      split
      · exact .error (Canonical_slotTrap hs)
      · split
        · exact .error (Canonical_slotTrap hs)
        · exact .ok (Canonical_modHart hs)

theorem Canonical_fetchInstr {s : State} {k : Nat} {h : Hart} (hs : s.Canonical) :
    Ends (fun r => r.1.Canonical) (fetchInstr s k h) := by
  unfold fetchInstr
  split
  · next e => exact .error (Canonical_fetchBytes.of_error e)
  · refine .ite ?_ ?_
    · split
      · next e => exact .error ((Canonical_enterConvoy hs).of_error e)
      · next e =>
        split
        · exact .ok ((Canonical_enterConvoy hs).of_ok e)
        · exact .raise _ _ _
    · split
      · exact .ok (Canonical_modHart hs)
      · exact .raise _ _ _

theorem Canonical_fetchFailed {s : State} {k : Nat} {e : Stop} (hs : s.Canonical) (he : e.Canonical) :
    (fetchFailed s k e).Canonical := by
  unfold fetchFailed
  split
  · exact .ite (Canonical_doubleTrap hs) (Canonical_takeTrap hs)
  · exact Canonical_stop hs he

theorem Canonical_usedCode {s : State} {k : Nat} {ls : List Leaf} (hs : s.Canonical) :
    (usedCode s k ls).Canonical := .ite hs (Canonical_foldl _ _ (fun _ _ ht => Canonical_podUsed ht) hs)

theorem Canonical_countCode {s : State} {ls : List Leaf} (hs : s.Canonical) : (countCode s ls).Canonical :=
  Canonical_foldl _ _ (fun _ _ ht => Canonical_countHart ht) hs

theorem Canonical_settleSeq {s : State} {k : Nat} (hs : s.Canonical) : (settleSeq s k).Canonical :=
  .ite (Canonical_settleGroup hs) hs

theorem Canonical_issueNext {s : State} {k : Nat} (hs : s.Canonical) : Out.Canonical (issueNext s k) := by
  unfold issueNext
  dsimp only
  split
  · split
    · next e' => exact .next (Canonical_settleSeq ((Canonical_exec hs.update).of_next e'))
    · exact Canonical_exec hs.update
  · split
    · next e'' => exact .next (Canonical_settleSeq (Canonical_fetchFailed hs.update
        ((Canonical_fetchInstr hs.update).of_error e'')))
    · next e' =>
      split
      · next e'' => exact .next (Canonical_settleSeq (Canonical_usedCode
          ((Canonical_exec (Canonical_countCode ((Canonical_fetchInstr hs.update).of_ok e'))).of_next e'')))
      · exact Canonical_exec (Canonical_countCode ((Canonical_fetchInstr hs.update).of_ok e'))

theorem Canonical_uncaught {s : State} {k : Nat} (hs : s.Canonical) : (s.uncaught k).Canonical :=
  .ite (Canonical_modHart hs) hs

theorem Canonical_issueAt {s : State} {k : Nat} (hs : s.Canonical) : Out.Canonical (issueAt s k) :=
  .ite (.ite (Canonical_issueNext (Canonical_uncaught hs)) (.ite (.next
    ((Canonical_takePreempt (Canonical_uncaught hs)).update)) (.next (Canonical_setLife (Canonical_uncaught hs)))))
    (Canonical_issueNext (Canonical_uncaught hs))

theorem Canonical_illegalTurn {s : State} {i : Nat} (hs : s.Canonical) : (illegalTurn s i).Canonical := by
  refine .ite ?_ (Canonical_putOff hs)
  split
  · refine .ite ?_ (Canonical_illegalWord (Canonical_reach hs))
    split
    · exact Canonical_nextWord (Canonical_reach hs)
    · exact Canonical_bankTrap (Canonical_reach hs)
  · exact Canonical_illegalWord (Canonical_reach hs)

theorem Canonical_beforeWord {s : State} {i : Nat} {st : Stream} (hs : s.Canonical) :
    SomeCanonical (beforeWord s i st) :=
  .ite (.some (Canonical_endStream hs)) (.ite (.some (Canonical_modStream hs)) (.ite
    (.some (Canonical_deadlineTrap hs)) (.ite (.some (Canonical_modStream hs)) (.ite (.some (Canonical_modStream hs))
    (.ite (.some (.ite (Canonical_parkStream hs) (Canonical_modStream hs))) .none)))))

theorem Canonical_issueStream {s : State} {i : Nat} (hs : s.Canonical) : Out.Canonical (issueStream s i) := by
  refine .ite ?_ (.next hs.update)
  split
  · next e => exact .next ((Canonical_beforeWord hs.update).of_some e)
  · split
    · split
      · exact Canonical_exec hs.update
      · exact .next (Canonical_illegalTurn hs.update)
    · exact .next (Canonical_illegalTurn hs.update)

/-! ## The device's own steps -/

theorem Canonical_preemptTurn {s : State} {k : Nat} (hs : s.Canonical) : SomeCanonical (preemptTurn s k) := by
  unfold preemptTurn
  split
  · split
    · next e => exact .some ((Canonical_tryHartWake hs).of_some e)
    · exact .ite (Canonical_nextOf (Canonical_issueAt hs)) .none
  · exact .ite (Canonical_nextOf (Canonical_issueAt hs)) .none

/-- Each of the steps keeps memory canonical, whatever state it is tried in. -/
def AllCanonical (l : List DevStep) : Prop := ∀ f ∈ l, ∀ s, s.Canonical → SomeCanonical (f s)

theorem AllCanonical.nil : AllCanonical [] := fun _ h => nomatch h

theorem AllCanonical.cons {f : DevStep} {l : List DevStep} (hf : ∀ s, s.Canonical → SomeCanonical (f s))
    (hl : AllCanonical l) : AllCanonical (f :: l) := List.forall_mem_cons.2 ⟨hf, hl⟩

theorem AllCanonical.one {f : DevStep} (hf : ∀ s, s.Canonical → SomeCanonical
    (f s)) : AllCanonical [f] := .cons hf .nil

theorem AllCanonical_append {l l' : List DevStep} : AllCanonical (l ++ l') ↔ AllCanonical l ∧ AllCanonical l' :=
  List.forall_mem_append

theorem AllCanonical.flatMap {α : Type} {l : List α} {f : α → List DevStep} (hf : ∀ a, AllCanonical (f a)) :
    AllCanonical (l.flatMap f) := fun g hg => by
  obtain ⟨a, -, hg⟩ := List.mem_flatMap.1 hg
  exact hf a g hg

theorem AllCanonical.map {α : Type} {l : List α} {f : α → DevStep} (hf : ∀ a s, s.Canonical → SomeCanonical (f a s)) :
    AllCanonical (l.map f) := List.forall_mem_map.2 fun a _ => hf a

theorem AllCanonical.ite {c : Prop} {_ : Decidable c} {l l' : List DevStep} (h : AllCanonical l)
    (h' : AllCanonical l') :
    AllCanonical (if c then l else l') := by
  split
  · exact h
  · exact h'

theorem AllCanonical_hartSteps {s : State} {k : Nat} {h : Hart} : AllCanonical (hartSteps s k h) := by
  simp only [hartSteps, AllCanonical_append, and_assoc]
  refine ⟨.map fun _ _ => Canonical_tryGatherDelivered, .ite (.one fun _ => Canonical_preemptTurn) .nil, ?_⟩
  split
  · exact .one fun _ => Canonical_tryHartWake
  · exact .ite (.one fun _ => Canonical_tryHartUnstall) .nil
  · exact .nil

theorem AllCanonical_coreSteps {c : Nat} {x : Core} : AllCanonical (coreSteps c x) :=
  AllCanonical_append.2 ⟨.ite (.one fun _ => Canonical_tryMatrixWordComplete) .nil, .map fun _ _ =>
    Canonical_tryAccHandoff⟩

theorem AllCanonical_opSteps {c chan : Nat} {o : XferOp} : AllCanonical (opSteps c chan o) := by
  unfold opSteps
  split
  · exact .one fun _ => Canonical_tryTransferOpStart
  · exact .cons (fun _ => Canonical_tryElementGroupLands)
      (.cons (fun _ => Canonical_tryTransferOpComplete) (.one fun _ => Canonical_tryTransferOpFault))
  · exact .one fun _ => Canonical_tryTransferOpFault

theorem AllCanonical_lamSteps {t e : Nat} {x : LamEntry} : AllCanonical (lamSteps t e x) := by
  unfold lamSteps
  split
  · exact .one fun _ => Canonical_tryLamDeadline
  · exact .one fun _ => Canonical_tryLamComputeStart
  · exact .cons (fun _ => Canonical_tryLamWeightFault) (.one fun _ => Canonical_tryLamComputeEnd)
  · exact .one fun _ => Canonical_tryLamSplitComplete
  · exact .nil

theorem AllCanonical_bankSteps {b : Nat} {x : Bank} : AllCanonical (bankSteps b x) := by
  simp only [bankSteps, AllCanonical_append, and_assoc]
  refine ⟨.ite (.one fun _ => Canonical_tryForcedRefresh) .nil, .flatMap fun n => ?_,
    .ite (.one fun _ => Canonical_tryRowPassEnd) .nil, ?_, .ite ?_ .nil,
    .ite (.one fun _ => Canonical_tryRefbComplete) .nil, .ite (.one fun _ => Canonical_tryYieldRowCopyEnd) .nil,
    .ite (.one fun _ => Canonical_tryPlinthRefresh) .nil⟩
  · split
    · exact .one fun _ => Canonical_tryTacuElapsed
    · exact .one fun _ => Canonical_tryTwbkElapsed
    · exact .one fun _ => Canonical_tryTpreElapsed
    · exact .nil
  · exact .map fun _ _ => Canonical_tryRcopyComplete
  · exact AllCanonical_append.2 ⟨.map fun _ _ => Canonical_tryTaprElapsed,
      .cons (fun _ => Canonical_tryTaadElapsed) (.one fun _ => Canonical_tryTfawWindowElapsed)⟩

theorem AllCanonical_streamSteps {i : Nat} {x : Stream} : AllCanonical (streamSteps i x) := by
  have leave : AllCanonical [tryStreamYield i, tryStreamPark i] :=
    .cons (fun _ => Canonical_tryStreamYield) (.one fun _ => Canonical_tryStreamPark)
  unfold streamSteps
  split
  · exact .cons (fun _ => Canonical_tryBusMoveEnd) (.cons (fun _ => Canonical_tryRefreshDeadline) leave)
  · exact .cons (fun _ => Canonical_tryBusMoveEnd) leave
  · exact .cons (fun _ => Canonical_tryBusMoveEnd) (.cons (fun _ => Canonical_tryRefreshDeadline)
      (AllCanonical_append.2 ⟨leave, .one fun _ => Canonical_tryStreamWake⟩))
  · exact .one fun _ => Canonical_tryYieldEnd
  · exact .one fun _ => Canonical_tryStreamResume
  · exact .nil

theorem AllCanonical_groupSteps {s : State} {gid : Nat} {g : Group} : AllCanonical (groupSteps s gid g) := by
  unfold groupSteps
  dsimp only
  split
  · exact .one fun _ => Canonical_tryPreemptionRequest
  · exact .map fun _ _ => Canonical_tryCoreRecordSave
  · split
    · split
      · exact .one fun _ => Canonical_tryHartResume
      · exact .nil
    · exact .nil
  · split
    · exact .one fun _ => Canonical_tryHartResume
    · exact .nil
  · exact .nil

theorem AllCanonical_kernelSteps {kid : Nat} {k : Kernel} : AllCanonical (kernelSteps kid k) := by
  unfold kernelSteps
  split
  · exact .cons (fun _ => Canonical_tryKernelComplete) (.one fun _ => Canonical_tryPreemptionRequest)
  · exact .one fun _ => Canonical_tryKernelSkipped
  · exact .nil

theorem AllCanonical_deviceSteps {s : State} : AllCanonical (deviceSteps s) := by
  simp only [deviceSteps, AllCanonical_append, and_assoc]
  exact ⟨.flatMap fun _ => AllCanonical_coreSteps, .flatMap fun _ => AllCanonical_hartSteps,
    .flatMap fun _ => AllCanonical_append.2 ⟨.flatMap fun _ => .flatMap fun _ => AllCanonical_opSteps,
      .flatMap fun _ => .map fun _ _ => Canonical_tryLamAdmission⟩,
    .flatMap fun _ => AllCanonical_append.2 ⟨.flatMap fun _ => .ite .nil AllCanonical_lamSteps,
      .map fun _ _ => Canonical_tryPlinthBufferCrossingEnd⟩,
    .flatMap fun _ => .ite .nil AllCanonical_streamSteps, .flatMap fun _ => .ite .nil AllCanonical_bankSteps,
    .flatMap fun _ => AllCanonical_kernelSteps, .flatMap fun _ => AllCanonical_groupSteps,
    .flatMap fun _ => .flatMap fun _ => .cons (fun _ => Canonical_tryKernelAdmission)
      (.one fun _ => Canonical_tryTilePlacement),
    .ite .nil (.one fun _ => Canonical_tryTlbinvDone), .ite (.one fun _ => Canonical_tryRemapDone) .nil,
    .ite (.one fun _ hs => Canonical_nextOf (Canonical_execFwCommit hs)) .nil,
    .flatMap fun _ => .ite (.one fun _ => Canonical_tryPortDrained) .nil,
    .flatMap fun _ => .ite (.one fun _ => Canonical_tryRefreshInterval) .nil,
    .ite (.one fun _ => Canonical_tryFwBootromRestore) .nil⟩

theorem Canonical_firstStep {s : State} (hs : s.Canonical) : SomeCanonical (firstStep s) := by
  cases e : firstStep s with
  | none => trivial
  | some t =>
    obtain ⟨f, hf, e⟩ := List.exists_of_findSome?_eq_some e
    exact (AllCanonical_deviceSteps f hf s hs).of_some e

/-! ## Turns -/

theorem Canonical_noteIssue {s : State} {k : Nat} (hs : s.Canonical) : (noteIssue s k).Canonical :=
  Canonical_setCore hs

theorem Canonical_coreTurn {s : State} {c : Nat} {go : State → Nat → Out} (hs : s.Canonical)
    (hg : ∀ s k, s.Canonical → Out.Canonical (go s k)) : Out.Canonical (coreTurn s c go) := by
  unfold coreTurn
  refine .ite (.next hs) ?_
  dsimp only
  split
  · exact .next (Canonical_setCore hs)
  · have ht {x k} := hg _ k (Canonical_noteIssue (k := k) (Canonical_setCore (c := c) (x := x) hs))
    split
    · next e => exact .ite (.next (Canonical_setCore (ht.of_next e))) (.next (ht.of_next e))
    · exact ht

theorem Canonical_partTurn {n : Nat} {s : State} {k : Nat} (hs : s.Canonical) : Out.Canonical (partTurn n s k) := by
  unfold partTurn
  split
  · next e => exact .ite (Canonical_issueAt (Canonical_modHart
      ((Canonical_issueNext (Canonical_modHart hs)).of_next e))) (.next
      (Canonical_modHart ((Canonical_issueNext (Canonical_modHart hs)).of_next e)))
  · exact Canonical_issueNext (Canonical_modHart hs)

theorem Canonical_turn {a : Activity} {s : State} (hs : s.Canonical) : Out.Canonical (turn a s) := by
  refine .ite ?_ ?_
  · split
    · exact Canonical_execDeviceReset hs
    · exact .next hs
  · split
    · exact Canonical_coreTurn hs (fun _ _ ht => Canonical_issueAt ht)
    · exact .ite (Canonical_issueAt hs) (.next hs)
    · exact .ite (Canonical_issueAt hs) (.next hs)
    · exact .ite (.next hs) (.ite (Canonical_partTurn hs) (.ite (Canonical_coreTurn hs
        (fun _ _ ht => Canonical_partTurn ht)) (.next hs)))
    · exact Canonical_issueStream hs
    · exact Canonical_comes (Canonical_preemptTurn hs) hs
    · exact Canonical_comes (.ite (Canonical_tryHartUnstall hs) .none) hs
    · exact .ite (Canonical_exec hs) (.next hs)

theorem Canonical_agentTurn {a : Agent} {x : Activity} {s : State} (hs : s.Canonical) :
    Out.Canonical (agentTurn a x s) := by
  unfold agentTurn
  split
  · next e => exact .next (((Canonical_turn hs).of_next e).update)
  · exact Canonical_turn hs

theorem Canonical_ownTurn {s : State} (hs : s.Canonical) : Out.Canonical (ownTurn s) := by
  unfold ownTurn
  split
  · exact Canonical_agentTurn hs
  · split
    · exact Canonical_agentTurn hs.update
    · split
      · next e => exact .next (((Canonical_firstStep hs).of_some e).update)
      · split
        · exact Canonical_agentTurn hs.update
        · exact .next hs

/-! ## Registers, faults, traps and the ends of instructions -/

theorem Canonical_step {s : State} (hs : s.Canonical) : Out.Canonical (step s) := by
  unfold step
  split
  · exact Canonical_turn hs.update
  · exact Canonical_ownTurn hs

/-! ## The obligation -/

/-- Settles O60: whatever a step runs, the state that it answers has canonical memory (`Canonical_step`). -/
theorem stepKeepsMemoryCanonical : Obligations.StepKeepsMemoryCanonical := by
  intro s t hs e
  exact (Canonical_step hs).of_next e

end Sys2Proof.Machine
end

section
/-! Integer division (O4): the quotient and remainder of 02 R40 at any width as those of the numbers that the words
denote; each of the eight instructions writes one of them, on whole registers or on their low words. -/
namespace Sys2Proof.Machine

/-! ## Quotients and remainders as numbers -/

section
variable {w : Nat} (a b : BitVec w)

theorem eq_zero_iff_toInt_eq_zero : b = 0 ↔ b.toInt = 0 := by
  rw [← BitVec.toInt_inj, BitVec.ofNat_eq_ofNat, BitVec.toInt_zero]

theorem eq_zero_iff_toNat_eq_zero : b = 0 ↔ b.toNat = 0 := by
  rw [← BitVec.toNat_inj, BitVec.ofNat_eq_ofNat, BitVec.toNat_zero]

theorem allOnes_eq_ofInt_neg_one : BitVec.allOnes w = BitVec.ofInt w (-1) := by
  rw [← BitVec.neg_one_eq_allOnes, BitVec.ofInt_neg, BitVec.ofInt_ofNat]

/-- Where the quotient does not fit (the most negative number by -1), both sides wrap to the dividend. -/
theorem sdiv_eq_ofInt_tdiv : a.sdiv b = BitVec.ofInt w (a.toInt.tdiv b.toInt) :=
  BitVec.eq_of_toInt_eq (by rw [BitVec.toInt_sdiv, BitVec.toInt_ofInt])

theorem srem_eq_ofInt_tmod : a.srem b = BitVec.ofInt w (a.toInt.tmod b.toInt) := by
  rw [← BitVec.toInt_srem, BitVec.ofInt_toInt]

theorem quotS_eq_tdiv :
    quotS a b = if b.toInt = 0 then BitVec.ofInt w (-1) else BitVec.ofInt w (a.toInt.tdiv b.toInt) := by
  simp only [quotS, eq_zero_iff_toInt_eq_zero, allOnes_eq_ofInt_neg_one, sdiv_eq_ofInt_tdiv]

theorem remS_eq_tmod : remS a b = if b.toInt = 0 then a else BitVec.ofInt w (a.toInt.tmod b.toInt) := by
  simp only [remS, eq_zero_iff_toInt_eq_zero, srem_eq_ofInt_tmod]

theorem quotU_eq_div :
    quotU a b = if b.toNat = 0 then BitVec.ofInt w (-1) else BitVec.ofNat w (a.toNat / b.toNat) := by
  simp only [quotU, eq_zero_iff_toNat_eq_zero, allOnes_eq_ofInt_neg_one, BitVec.udiv_def]

theorem remU_eq_mod : remU a b = if b.toNat = 0 then a else BitVec.ofNat w (a.toNat % b.toNat) := by
  simp only [remU, eq_zero_iff_toNat_eq_zero, BitVec.umod_def]

end

/-! ## The obligation -/

/-- An instruction that only writes a register completes with `v`, where that is what it computes. -/
theorem writeOp_next_of_eq {s : State} {k : Nat} (h : s.HartTurn k) {d : Reg} {f : Hart → Word} {v : Word}
    (e : f (s.hart k) = v) : writeOp s d f = .next (s.wrote k d v) := e ▸ writeOp_next h d f

/-- A .w form works on the numbers of the registers modulo 2^32 (04 R122). -/
theorem onWords_of_eq {f : BitVec 32 → BitVec 32 → BitVec 32} {x y : Word} {v : BitVec 32}
    (e : f (BitVec.ofNat 32 x.toNat) (BitVec.ofNat 32 y.toNat) = v) : onWords f x y = v.signExtend 64 :=
  congrArg (BitVec.signExtend 64) e

/-- Settles O4: each instruction writes its result and nothing else (`writeOp_next`), and its result is the quotient or
remainder of the numbers that the registers, or their low words, denote. -/
theorem integerDivision : Obligations.IntegerDivision := by
  intro s k d a b h x y x32 y32
  rw [exec_div, exec_rem, exec_divn, exec_remn, exec_divW, exec_remW, exec_divnW, exec_remnW]
  refine ⟨writeOp_next_of_eq h ?_, writeOp_next_of_eq h ?_, writeOp_next_of_eq h ?_, writeOp_next_of_eq h ?_,
    writeOp_next_of_eq h (onWords_of_eq ?_), writeOp_next_of_eq h (onWords_of_eq ?_),
    writeOp_next_of_eq h (onWords_of_eq ?_), writeOp_next_of_eq h (onWords_of_eq ?_)⟩
  · exact quotS_eq_tdiv x y
  · exact remS_eq_tmod x y
  · exact quotU_eq_div x y
  · exact remU_eq_mod x y
  · exact quotS_eq_tdiv x32 y32
  · exact remS_eq_tmod x32 y32
  · exact quotU_eq_div x32 y32
  · exact remU_eq_mod x32 y32

end Sys2Proof.Machine
end

section
/-! Words and instructions (O58, O56): what every table of the decoder reads is a well-formed instruction whose words
are the word read (`Reads`), one lemma per table; the other direction is the table of Laws/PerInstr. -/
namespace Sys2Proof

/-! ## What a word decodes to -/

/-- Whatever `r` decodes to is a well-formed instruction with the words `e`. -/
def Reads (e : Encoded) (r : Decoded) : Prop := ∀ i, r = .ok i → i.wf = true ∧ encode i = e

section
variable {e : Encoded} {c : Bool} {x : Reject} {i : Instr} {r r' : Decoded}

theorem Reads.error : Reads e (.error x) := fun _ h => nomatch h

theorem Reads.ok (hw : i.wf = true) (he : encode i = e) : Reads e (.ok i) := by
  rintro _ ⟨⟩
  exact ⟨hw, he⟩

theorem Reads.ite {p : Prop} {_ : Decidable p} (h : p → Reads e r) (h' : ¬p → Reads e r') :
    Reads e (if p then r else r') := by
  split
  · exact h ‹_›
  · exact h' ‹_›

theorem Reads.need (hw : c = true → i.wf = true) (he : c = true → encode i = e) : Reads e (need c x i) :=
  .ite (fun h => .ok (hw h) (he h)) fun _ => .error

end

/-- A field with the number `n` is the literal `n`. -/
theorem eq_ofNat_of_toNat_eq {k n : Nat} {x : BitVec k} (h : x.toNat = n) : x = BitVec.ofNat k n :=
  (BitVec.toNat_eq_nat.1 h).2

/-- The row `n` of an encoding table, for the words that `f` builds around the selector `x`. -/
theorem Reads.row {k n : Nat} (f : BitVec k → Encoded) {x : BitVec k} {c : Bool} {j : Reject} {i : Instr}
    (hx : x.toNat = n) (hw : c = true → i.wf = true) (he : encode i = f (BitVec.ofNat k n)) :
    Reads (f x) (Sys2Proof.need c j i) :=
  .need hw fun _ => eq_ofNat_of_toNat_eq hx ▸ he

/-! ## Slot and bank words -/

theorem reads_decodeValu (op : BitVec 8) (v : VWord) : Reads (.slot 0 (packV op v)) (decodeValu op.toNat v) := by
  unfold decodeValu
  split
  case h_30 => exact .error
  all_goals exact .row (.slot 0 <| packV · v) ‹_› id rfl

theorem reads_decodeVfpu (op : BitVec 8) (v : VWord) : Reads (.slot 2 (packV op v)) (decodeVfpu op.toNat v) := by
  unfold decodeVfpu
  split
  case h_15 => exact .error
  all_goals exact .row (.slot 2 <| packV · v) ‹_› id rfl

theorem reads_decodeVmem (op : BitVec 8) (v : VWord) : Reads (.slot 3 (packV op v)) (decodeVmem op.toNat v) := by
  unfold decodeVmem
  split
  case h_8 => exact .error
  all_goals exact .row (.slot 3 <| packV · v) ‹_› id rfl

theorem reads_decodeVperm (op : BitVec 8) (v : VWord) : Reads (.slot 4 (packV op v)) (decodeVperm op.toNat v) := by
  unfold decodeVperm
  split
  case h_13 => exact .error
  all_goals exact .row (.slot 4 <| packV · v) ‹_› id rfl

theorem reads_decodeVxq (op : BitVec 8) (v : VWord) : Reads (.slot 5 (packV op v)) (decodeVxq op.toNat v) := by
  unfold decodeVxq
  split
  case h_4 => exact .error
  all_goals exact .row (.slot 5 <| packV · v) ‹_› id rfl

theorem reads_decodeVacc (op : BitVec 8) (v : VWord) : Reads (.slot 6 (packV op v)) (decodeVacc op.toNat v) := by
  unfold decodeVacc
  split
  case h_4 => exact .error
  all_goals exact .row (.slot 6 <| packV · v) ‹_› id rfl

theorem reads_decodeVstr (op : BitVec 8) (v : VWord) : Reads (.slot 7 (packV op v)) (decodeVstr op.toNat v) := by
  unfold decodeVstr
  split
  case h_3 => exact .error
  all_goals exact .row (.slot 7 <| packV · v) ‹_› id rfl

/-- VALU.A and VALU.B decode one map (03 R77, R85), which the encoder writes as VALU.A. -/
theorem reads_decodeVector (u : Nat) (w : BitVec 64) :
    Reads (.slot (if u = 1 then 0 else u) w) (decodeVector u w) := by
  have e := packV_unpackV w
  unfold decodeVector
  generalize fld w 0 8 = op, unpackV w = v at *
  subst e
  match u with
  | 0 | 1 => exact reads_decodeValu op v
  | 2 => exact reads_decodeVfpu op v
  | 3 => exact reads_decodeVmem op v
  | 4 => exact reads_decodeVperm op v
  | 5 => exact reads_decodeVxq op v
  | 6 => exact reads_decodeVacc op v
  | 7 => exact reads_decodeVstr op v
  | _ + 8 => exact .error

theorem reads_decodeMatrix (w : BitVec 64) : Reads (.slot 8 w) (decodeMatrix w) := by
  have e := packM_unpackM w
  unfold decodeMatrix
  generalize fld w 0 8 = op, unpackM w = m at *
  subst e
  split
  case h_15 => exact .error
  all_goals exact .row (.slot 8 <| packM · m) ‹_› id rfl

theorem reads_decodeSlot (h : Parcel) (j : Nat) (w : BitVec 64) :
    Reads (.slot (if headerUnit h j = 1 then 0 else headerUnit h j) w) (decodeSlot h j w) := by
  refine .ite (fun hu => ?_) fun _ => reads_decodeVector _ w
  rw [eq_of_beq hu]
  exact reads_decodeMatrix w

theorem reads_decodeBank (w : BitVec 64) : Reads (.bank w) (decodeBank w) := by
  have e := packB_unpackB w
  unfold decodeBank
  generalize fld w 0 8 = op, unpackB w = b at *
  subst e
  generalize hn : op.toNat = n
  dsimp only
  split
  case h_42 => exact .error
  all_goals exact .row (.bank <| packB · b) hn id rfl

/-! ## Parcels -/

/-! The formats that the encoder writes field by field, as `packR_eta` and its kin have it of the others. -/

theorem parcel_eta (w : Parcel) (h : w.getLsbD 0 = false) : fld w 7 25 ++ majorBits (fld w 1 6) = w := by
  rw [majorBits_fld h]
  repeat rw [fld_cat w (by rfl)]
  exact fld_all w

theorem trap_eta (w : Parcel) (h : w.getLsbD 0 = false) :
    fld w 28 4 ++ fld w 22 6 ++ fld w 12 10 ++ fld w 7 5 ++ majorBits (fld w 1 6) = w := by
  repeat rw [fld_cat w (by rfl)]
  exact parcel_eta w h

theorem fence_eta (w : Parcel) (h : w.getLsbD 0 = false) :
    fld w 31 1 ++ fld w 28 3 ++ fld w 12 16 ++ fld w 7 5 ++ majorBits (fld w 1 6) = w := by
  repeat rw [fld_cat w (by rfl)]
  exact parcel_eta w h

theorem fenceI_eta (w : Parcel) (h : w.getLsbD 0 = false) :
    fld w 31 1 ++ fld w 7 24 ++ majorBits (fld w 1 6) = w := by
  rw [fld_cat w (by rfl)]
  exact parcel_eta w h

theorem setvl_eta (w : Parcel) (h : w.getLsbD 0 = false) :
    fld w 28 4 ++ fld w 23 5 ++ fld w 22 1 ++ fld w 17 5 ++ fld w 12 5 ++ fld w 7 5 ++ majorBits (fld w 1 6) = w := by
  repeat rw [fld_cat w (by rfl)]
  exact parcel_eta w h

/-- A part of a field that is zero is zero. -/
theorem fld_eq_zero_of_fld_eq_zero {k : Nat} {w : BitVec k} {o n o' n' : Nat} (h : fld w o n = 0) (hl : o ≤ o')
    (hr : o' + n' ≤ o + n) : fld w o' n' = 0 := by
  apply BitVec.eq_of_getLsbD_eq
  intro i hi
  have e := congrArg (BitVec.getLsbD · (o' - o + i)) h
  simpa [fld, BitVec.getLsbD_extractLsb', hi, show o' - o + i < n by omega, show o + (o' - o + i) = o' + i by omega]
    using e

theorem reads_decodeOpr (w : Parcel) (h : w.getLsbD 0 = false) (hm : fld w 1 6 = 0) :
    Reads (.parcel w) (decodeOpr w) := by
  have e := packR_eta w h
  rw [hm] at e
  unfold decodeOpr
  generalize fld w 28 4 = x, fld w 22 6 = y, fld w 17 5 = b, fld w 12 5 = a, fld w 7 5 = d at *
  subst e
  split
  case h_38 => exact .error
  all_goals
    obtain rfl := eq_ofNat_of_toNat_eq ‹x.toNat = _›
    obtain rfl := eq_ofNat_of_toNat_eq ‹y.toNat = _›
  case h_35 | h_36 | h_37 => exact .need (fun _ => rfl) fun hb => by rw [eq_of_beq hb]; rfl
  all_goals exact .ok rfl rfl

theorem reads_decodeShi (w : Parcel) (h : w.getLsbD 0 = false) (hm : fld w 1 6 = 7) :
    Reads (.parcel w) (decodeShi w) := by
  refine .ite (fun _ => .error) fun hz => ?_
  have e := packShi_eta w h (Decidable.not_not.1 hz) hm
  generalize fld w 23 2 = x, fld w 17 6 = sh, fld w 12 5 = a, fld w 7 5 = d at *
  subst e
  have kinds : ∀ x : BitVec 2, x = 0 ∨ x = 1 ∨ x = 2 ∨ x = 3 := by decide
  obtain rfl | rfl | rfl | rfl := kinds x <;> exact .ok rfl rfl

theorem reads_decodeBr (w : Parcel) (h : w.getLsbD 0 = false) (hm : fld w 1 6 = 12) :
    Reads (.parcel w) (decodeBr w) := by
  have e := packBr_eta w h hm
  unfold decodeBr
  generalize fld w 20 12 = off, fld w 17 3 = x, fld w 12 5 = b, fld w 7 5 = a at *
  subst e
  split
  case h_7 => exact .error
  all_goals
    obtain rfl := eq_ofNat_of_toNat_eq ‹x.toNat = _›
    exact .ok rfl rfl

theorem reads_decodeAmo (w : Parcel) (h : w.getLsbD 0 = false) (hm : fld w 1 6 = 15) :
    Reads (.parcel w) (decodeAmo w) := by
  have e := packAmo_eta w h
  rw [hm] at e
  unfold decodeAmo
  generalize (fld w 31 1 == 1) = z, fld w 28 3 = sc, fld w 26 2 = sem, fld w 22 4 = x, fld w 17 5 = b, fld w 12 5 = a,
    fld w 7 5 = d at *
  subst e
  split
  case h_10 => exact .error
  all_goals exact .row (fun x => .parcel (packAmo z sc sem x b a d 15)) ‹_› id rfl

theorem reads_decodeCsr (w : Parcel) (h : w.getLsbD 0 = false) (hm : fld w 1 6 = 19) :
    Reads (.parcel w) (decodeCsr w) := by
  have e := packCsr_eta w h hm
  unfold decodeCsr
  generalize fld w 29 3 = x, fld w 17 12 = c, fld w 12 5 = a, fld w 7 5 = d at *
  subst e
  split
  case h_6 => exact .error
  all_goals obtain rfl := eq_ofNat_of_toNat_eq ‹x.toNat = _›
  case h_5 => exact .ok rfl rfl
  all_goals exact .need (fun _ => rfl) fun hz => by rw [eq_of_beq hz]; rfl

theorem reads_decodeEng (w : Parcel) (h : w.getLsbD 0 = false) (hm : fld w 1 6 = 21) :
    Reads (.parcel w) (decodeEng w) := by
  refine .ite (fun _ => .error) fun hz => ?_
  have e := packEng_eta w h (Decidable.not_not.1 hz) hm
  generalize fld w 28 3 = sc, fld w 22 6 = x, fld w 17 5 = b, fld w 12 5 = a, fld w 7 5 = d at *
  subst e
  split
  case h_15 => exact .error
  all_goals obtain rfl := eq_ofNat_of_toNat_eq ‹x.toNat = _›
  case' h_1 => refine .ite (fun hb => .need (fun _ => decide_eq_true hb) fun hz => ?_) fun _ => .error
  case' h_3 | h_8 | h_12 => refine .ite (fun hs => .need (fun _ => hs) fun hz => ?_) fun _ => .error
  case' h_2 | h_4 | h_5 | h_6 | h_7 | h_9 | h_10 | h_11 | h_13 | h_14 => refine .need (fun _ => rfl) fun hz => ?_
  all_goals
    simp only [Bool.and_eq_true, beq_iff_eq] at hz
    simp only [hz]
    rfl

theorem reads_decodeSys (w : Parcel) (h : w.getLsbD 0 = false) (hm : fld w 1 6 = 18) :
    Reads (.parcel w) (decodeSys w) := by
  refine .ite (fun _ => .error) fun hz => ?_
  have e := packR_eta w h
  rw [hm, Decidable.not_not.1 hz] at e
  split
  case h_5 => exact .error
  all_goals
    have hx := eq_ofNat_of_toNat_eq ‹(fld w 22 6).toNat = _›
    rw [hx] at e
  case h_1 =>
    refine .need (fun _ => rfl) fun hd => ?_
    have e := trap_eta w h
    rw [hm, Decidable.not_not.1 hz, hx, eq_of_beq hd] at e
    exact congrArg Encoded.parcel e
  case h_2 =>
    refine .need (fun _ => rfl) fun hd => ?_
    have z {o : Nat} := fld_eq_zero_of_fld_eq_zero (o' := o) (n' := 5) (eq_of_beq hd)
    rw [z (by decide) (by decide), z (by decide) (by decide), z (by decide) (by decide)] at e
    exact congrArg Encoded.parcel e
  case h_3 =>
    refine .need (fun _ => rfl) fun hd => ?_
    simp only [Bool.and_eq_true, beq_iff_eq] at hd
    obtain ⟨hd, hb⟩ := hd
    have z {o : Nat} := fld_eq_zero_of_fld_eq_zero (o' := o) (n' := 5) hd
    rw [← fld_cat w (o := 17) (a := 4) (b := 1) rfl, hb, ← bit1_fld, z (by decide) (by decide),
      z (by decide) (by decide)] at e
    exact congrArg Encoded.parcel e
  case h_4 =>
    refine .need (fun _ => rfl) fun hb => ?_
    rw [eq_of_beq hb] at e
    exact congrArg Encoded.parcel e

theorem reads_decodeFence (w : Parcel) (h : w.getLsbD 0 = false) (hm : fld w 1 6 = 17) :
    Reads (.parcel w) (decodeFence w) := by
  refine .ite (fun hi => .need (fun _ => rfl) fun hz => ?_) fun hi => .ite (fun _ => .error) fun hz =>
    .need id fun _ => ?_
  · have e := fenceI_eta w h
    rw [hm, eq_of_beq hi, eq_of_beq hz] at e
    exact congrArg Encoded.parcel e
  · have e := fence_eta w h
    rw [hm, (BitVec.eq_zero_or_eq_one (fld w 31 1)).resolve_right (by simpa using hi), Decidable.not_not.1 hz] at e
    exact congrArg Encoded.parcel e

theorem reads_decodeSetvl (w : Parcel) (h : w.getLsbD 0 = false) (hm : fld w 1 6 = 20) :
    Reads (.parcel w) (decodeSetvl w) := by
  refine .ite (fun _ => .error) fun hz => .ite (fun _ => .error) fun ht => ?_
  rw [Bool.not_eq_true', Bool.not_eq_false] at ht
  have e := setvl_eta w h
  rw [hm, Decidable.not_not.1 hz] at e
  refine .ite (fun hd => .ok ht ?_) fun hd => .need (fun _ => ht) fun hb => ?_
  · rw [eq_of_beq hd] at e
    exact congrArg Encoded.parcel e
  · rw [(BitVec.eq_zero_or_eq_one (fld w 22 1)).resolve_right (by simpa using hd), eq_of_beq hb] at e
    exact congrArg Encoded.parcel e

theorem reads_decodeScalar (w : Parcel) (h : w.getLsbD 0 = false) : Reads (.parcel w) (decodeScalar w) := by
  unfold decodeScalar
  split
  case h_24 => exact .error
  all_goals have hm := eq_ofNat_of_toNat_eq ‹(fld w 1 6).toNat = _›
  case h_1 => exact reads_decodeOpr w h hm
  case h_8 => exact reads_decodeShi w h hm
  case h_13 => exact reads_decodeBr w h hm
  case h_16 => exact reads_decodeAmo w h hm
  case h_18 => exact reads_decodeFence w h hm
  case h_19 => exact reads_decodeSys w h hm
  case h_20 => exact reads_decodeCsr w h hm
  case h_21 => exact reads_decodeSetvl w h hm
  case h_22 => exact reads_decodeEng w h hm
  case h_9 | h_10 | h_14 =>
    have e := packU_eta w h
    rw [hm] at e
    exact .ok rfl (congrArg Encoded.parcel e)
  case h_11 =>
    have e := packMem_eta w h
    rw [hm] at e
    exact .need id fun _ => congrArg Encoded.parcel e
  case h_12 =>
    refine .need (fun _ => rfl) fun hs => ?_
    have e := packMem_eta w h
    rw [hm, eq_of_beq hs] at e
    exact congrArg Encoded.parcel e
  case h_17 =>
    refine .ite (fun _ => .error) fun hz => .need id fun _ => ?_
    have e := packAmo_eta w h
    rw [hm, Decidable.not_not.1 hz] at e
    exact congrArg Encoded.parcel e
  case h_23 =>
    have e := parcel_eta w h
    rw [hm] at e
    exact .ok rfl (congrArg Encoded.parcel e)
  all_goals
    have e := packI_eta w h
    rw [hm] at e
    exact .ok rfl (congrArg Encoded.parcel e)

/-! ## Words of an instruction -/

theorem decodeEncoded_slot (u : Nat) (w : BitVec 64) :
    decodeEncoded (.slot u w) = if u == 8 then decodeMatrix w else decodeVector u w := by
  by_cases h : u = 8
  · subst h
    rfl
  · simp [decodeEncoded, h]

theorem decodeEncoded_parcel_ok {w : Parcel} {i : Instr} (h : decodeEncoded (.parcel w) = .ok i) :
    w.getLsbD 0 = false ∧ decodeScalar w = .ok i := by
  cases hw : w.getLsbD 0 with
  | false => exact ⟨rfl, decodeEncoded_parcel w hw ▸ h⟩
  | true => exact nomatch (if_pos hw).symm.trans h

theorem decodeTableWord_parcel {w : Parcel} {i : Instr} (hw : w.getLsbD 0 = false) (h : decodeScalar w = .ok i) :
    decodeTableWord 32 w.toNat = some i := by
  simp only [decodeTableWord, BitVec.ofNat_toNat, BitVec.setWidth_eq, hw, h]
  rfl

theorem decodeTableWord_bank {w : BitVec 64} {i : Instr} (h : decodeBank w = .ok i) :
    decodeTableWord 64 w.toNat = some i := by
  simp only [decodeTableWord, BitVec.ofNat_toNat, BitVec.setWidth_eq, h]
  rfl

/-- Every instruction's words decode to it, by the table of Laws/PerInstr; a step of the device has none. -/
theorem Laws.RoundTrip.statement (i : Instr) : Laws.RoundTrip.Statement i := by
  cases i with
  | add => apply add | addW => apply addW | sub => apply sub | subW => apply subW | and => apply and | or => apply or
  | xor => apply xor | andn => apply andn | sll => apply sll | sllW => apply sllW | srl => apply srl
  | srlW => apply srlW | sra => apply sra | sraW => apply sraW | rol => apply rol | ror => apply ror | slt => apply slt
  | sltn => apply sltn | min => apply min | max => apply max | minn => apply minn | maxn => apply maxn
  | mul => apply mul | mulW => apply mulW | mulh => apply mulh | mulhn => apply mulhn | div => apply div
  | divW => apply divW | divn => apply divn | divnW => apply divnW | rem => apply rem | remW => apply remW
  | remn => apply remn | remnW => apply remnW | clz => apply clz | ctz => apply ctz | popc => apply popc
  | addi => apply addi | andi => apply andi | ori => apply ori | xori => apply xori | slti => apply slti
  | sltni => apply sltni | slli => apply slli | srli => apply srli | srai => apply srai | rori => apply rori
  | ldhi => apply ldhi | addpc => apply addpc | ld => apply ld | st => apply st | beq => apply beq | bne => apply bne
  | blt => apply blt | bge => apply bge | bltn => apply bltn | bgen => apply bgen | jal => apply jal
  | jalr => apply jalr | amoswap => apply amoswap | amoadd => apply amoadd | amoand => apply amoand
  | amoor => apply amoor | amoxor => apply amoxor | amomin => apply amomin | amomax => apply amomax
  | amominn => apply amominn | amomaxn => apply amomaxn | cas => apply cas | fence => apply fence
  | fenceI => apply fenceI | trap => apply trap | rett => apply rett | yield => apply yield | waite => apply waite
  | csrr => apply csrr | csrw => apply csrw | csrs => apply csrs | csrc => apply csrc | csrx => apply csrx
  | setvl => apply setvl | setvlDistance => apply setvlDistance | cpw => apply cpw | cpgo => apply cpgo
  | tlwait => apply tlwait | tlread => apply tlread | binit => apply binit | barrive => apply barrive
  | bexp => apply bexp | bwait => apply bwait | btest => apply btest | binval => apply binval
  | klaunch => apply klaunch | gsync => apply gsync | gexit => apply gexit | mxgo => apply mxgo | hint => apply hint
  | vadd => apply vadd | vsub => apply vsub | vmul => apply vmul | vmulh => apply vmulh | vmin => apply vmin
  | vmax => apply vmax | vand => apply vand | vor => apply vor | vxor => apply vxor | vsll => apply vsll
  | vsrl => apply vsrl | vsra => apply vsra | vsadd => apply vsadd | vssub => apply vssub | vabsd => apply vabsd
  | vmerge => apply vmerge | vmovx => apply vmovx | vidx => apply vidx | vcmp => apply vcmp | vwmul => apply vwmul
  | vwadd => apply vwadd | vnarrow => apply vnarrow | pand => apply pand | por => apply por | pxor => apply pxor
  | pandn => apply pandn | pset => apply pset | pcnt => apply pcnt | pfirst => apply pfirst | vfadd => apply vfadd
  | vfsub => apply vfsub | vfmul => apply vfmul | vfma => apply vfma | vfms => apply vfms | vfnma => apply vfnma
  | vfdiv => apply vfdiv | vfsqrt => apply vfsqrt | vfmin => apply vfmin | vfmax => apply vfmax | vfcmp => apply vfcmp
  | vfcvt => apply vfcvt | vfrece => apply vfrece | vfrsqe => apply vfrsqe | vld => apply vld | vlds => apply vlds
  | vldx => apply vldx | vldff => apply vldff | vst => apply vst | vsts => apply vsts | vstx => apply vstx
  | vperm => apply vperm | vslideup => apply vslideup | vslidedn => apply vslidedn | vcompress => apply vcompress
  | vexpand => apply vexpand | vbcaste => apply vbcaste | vzip => apply vzip | vunzip => apply vunzip
  | vredsum => apply vredsum | vredmax => apply vredmax | vredmin => apply vredmin | vfredsum => apply vfredsum
  | vxqadd => apply vxqadd | vxqmax => apply vxqmax | vxqfma => apply vxqfma | vexta => apply vexta
  | vinsa => apply vinsa | vzera => apply vzera | srd => apply srd | srstat => apply srstat | mma => apply mma
  | mzero => apply mzero | mtld => apply mtld | mtst => apply mtst | mqld => apply mqld | mqst => apply mqst
  | mqadd => apply mqadd | mqmul => apply mqmul | chisel => apply chisel | mqcast => apply mqcast
  | mqrank => apply mqrank | mqfree => apply mqfree | mqscl => apply mqscl | mthdr => apply mthdr | act => apply act
  | pre => apply pre | wb => apply wb | refb => apply refb | refq => apply refq | rcopy => apply rcopy
  | rzero => apply rzero | radd => apply radd | rsub => apply rsub | rmul => apply rmul | rmax => apply rmax
  | rmin => apply rmin | rand => apply rand | rior => apply rior | rxor => apply rxor | rshr => apply rshr
  | rscadd => apply rscadd | rcmp => apply rcmp | rsel => apply rsel | rcvt => apply rcvt | qzero => apply qzero
  | qacc => apply qacc | qmac => apply qmac | qwb => apply qwb | qld => apply qld | rsweep => apply rsweep
  | shmov => apply shmov | bufst => apply bufst | bufld => apply bufld | bli => apply bli | badd => apply badd
  | bbr => apply bbr | bloop => apply bloop | bpset => apply bpset | bsplit => apply bsplit | bjoin => apply bjoin
  | bsig => apply bsig | bend => apply bend | bwaitt => apply bwaitt | brett => apply brett | bnop => apply bnop
  | _ => exact fun _ => .inl rfl

/-! ## The obligations -/

/-- Settles O58: each instruction's words decode to it (`Laws.RoundTrip.statement`), and each table of the decoder reads
only words that the encoder writes (`reads_decodeScalar`, `reads_decodeSlot`, `reads_decodeBank`). -/
theorem encodeDecodeRoundTrip : Obligations.EncodeDecodeRoundTrip := by
  refine ⟨fun i hi => ?_, fun w i hw => reads_decodeScalar w hw i, fun h j w => reads_decodeSlot h j w,
    fun w => reads_decodeBank w⟩
  have back {x : Encoded} (e : encode i = x) (hx : x ≠ .none) : decodeEncoded x = .ok i :=
    e ▸ (Laws.RoundTrip.statement i hi).resolve_left (e ▸ hx)
  refine ⟨fun w e => ?_, fun u w h j e hu => ?_, fun w e => ?_⟩
  · obtain ⟨hw, hd⟩ := decodeEncoded_parcel_ok (back e nofun)
    exact ⟨hw, hd, decodeTableWord_parcel hw hd⟩
  · subst hu
    exact (decodeEncoded_slot _ w).symm.trans (back e nofun)
  · exact ⟨back e nofun, decodeTableWord_bank (back e nofun)⟩

theorem ne_ok_of_error {r : Decoded} {x : Reject} (h : r = .error x) (i : Instr) : r ≠ .ok i := by
  rw [h]
  nofun

/-- Settles O56: the decoder evaluates to the instruction on each word, and to a reject on each unassigned one. -/
theorem decodedWords : Obligations.DecodedWords := by
  unfold Obligations.DecodedWords
  refine ⟨rfl, rfl, rfl, rfl, rfl, rfl, rfl, rfl, rfl, rfl, rfl, rfl, rfl, rfl, rfl, rfl, rfl, rfl, rfl, rfl, rfl,
    ?_, ?_, ne_ok_of_error rfl, ne_ok_of_error rfl⟩
  · simp only [List.forall_mem_cons]
    exact ⟨ne_ok_of_error rfl, ne_ok_of_error rfl, ne_ok_of_error rfl, ne_ok_of_error rfl, nofun⟩
  · simp only [List.forall_mem_cons]
    exact ⟨ne_ok_of_error rfl, ne_ok_of_error rfl, nofun⟩

end Sys2Proof
end

section
/-! FENCE, FENCE.I and HINT (O7). -/
namespace Sys2Proof.Machine

/-- A scalar operation that changes nothing. -/
theorem scalarOp_same {s : State} {k : Nat} (h : s.HartTurn k) :
    scalarOp s (fun _ _ => .ok s) = .next (s.advanced k) :=
  scalarOp_ok h rfl

/-- Settles O7: each of the three has no effect of its own, so its completion is all that it does (`scalarOp_ok`). -/
theorem fencesAndHintOnlyAdvance : Obligations.FencesAndHintOnlyAdvance := by
  intro s k m sc imm h
  rw [exec_fence, exec_fenceI, exec_hint]
  exact ⟨scalarOp_same h, scalarOp_same h, scalarOp_same h⟩

end Sys2Proof.Machine
end

section
/-! A step runs what is decoded (O57): the fetch of a parcel or a convoy, what a turn of a hart issues, and the turns of
the agenda, each said by an equation for the case that the statement names. -/
namespace Sys2Proof.Machine

/-! ## The fetch of a convoy -/

theorem length_of_fetchWords {s : State} {h : Hart} {n : Nat} {va : Word} {ws : List (Leaf × BitVec 64)}
    (e : fetchWords s h va n = .ok ws) : ws.length = n := by
  induction n generalizing va ws with
  | zero =>
    cases e
    rfl
  | succ n ih =>
    unfold fetchWords at e
    split at e
    · cases e
    · split at e
      · cases e
      · next hr =>
        cases e
        rw [List.length_cons, ih hr]

/-- The words `ws` of a convoy with header `p`, from slot `j` on, decode to `is`, and variant `v` has their units. -/
inductive SlotsDecode (v : Variant) (p : Parcel) : Nat → List (BitVec 64) → List Instr → Prop
  | nil (j : Nat) : SlotsDecode v p j [] []
  | cons {j : Nat} {w : BitVec 64} {ws : List (BitVec 64)} {x : Instr} {is : List Instr} (hd : decodeSlot p j w = .ok x)
      (hu : absentUnit v x = none) (hr : SlotsDecode v p (j + 1) ws is) : SlotsDecode v p j (w :: ws) (x :: is)

section
variable {v : Variant} {p : Parcel} {j : Nat} {ws : List (BitVec 64)} {is : List Instr}

theorem SlotsDecode.of_getElem (hl : is.length = ws.length) (h : ∀ m x w, is[m]? = some x → ws[m]? = some w →
    decodeSlot p (j + m) w = .ok x ∧ absentUnit v x = none) : SlotsDecode v p j ws is := by
  induction ws generalizing j is with
  | nil =>
    rw [List.length_eq_zero_iff.1 hl]
    exact .nil j
  | cons w ws ih =>
    match is, hl with
    | x :: is, hl =>
      obtain ⟨hd, hu⟩ := h 0 x w rfl rfl
      refine .cons hd hu (ih (by simpa using hl) fun m y z hy hz => ?_)
      rw [Nat.add_right_comm]
      exact h (m + 1) y z hy hz

theorem SlotsDecode.firstIllegal_eq (h : SlotsDecode v p j ws is) : firstIllegal p j ws = none := by
  induction h with
  | nil => rfl
  | cons hd _ _ ih => simp only [firstIllegal, hd, ih]

theorem SlotsDecode.firstAbsent_eq (h : SlotsDecode v p j ws is) : firstAbsent v p j ws = none := by
  induction h with
  | nil => rfl
  | cons hd hu _ ih => simp only [firstAbsent, hd, hu, ih]

theorem SlotsDecode.slotInstrs_eq (h : SlotsDecode v p j ws is) : slotInstrs p j ws = is := by
  induction h with
  | nil => rfl
  | cons hd _ _ ih => simp only [slotInstrs, hd, ih]

end

theorem headerCount_of_headerCheck {q : Bool} {p : Parcel} (h : headerCheck q p = .ok ()) :
    headerCount p ≠ 0 ∧ headerCount p ≠ 7 := by
  unfold headerCheck at h
  dsimp only at h
  split at h
  · cases h
  · next hc => simpa using hc

section
variable {s : State} {k : Nat} {h : Hart} {p : Parcel}

/-- A convoy that passes its checks is entered (03 R76 to R79). -/
theorem enterConvoy_ok {ws : List (Leaf × BitVec 64)} {is : List Instr} (hc : headerCheck (isSeqPlace k) p = .ok ())
    (ha : h.pc.getLsbD 2 = true) (hw : fetchWords s h (h.pc + 4) (headerCount p) = .ok ws)
    (hd : SlotsDecode s.variant p 0 (ws.map (·.2)) is)
    (hch : headerChain p = true → chainOk h (ws.map (·.2)) = true) (hs : h.slot.toNat < headerCount p) :
    enterConvoy s k h p = .ok (s.modHart k fun h => h.entered is (headerCount p), ws.map (·.1)) := by
  obtain ⟨h0, h7⟩ := headerCount_of_headerCheck hc
  have hchain : ¬(headerChain p = true ∧ chainOk h (ws.map (·.2)) = false) := fun ⟨hp, hf⟩ => by
    rw [hch hp] at hf
    cases hf
  simp only [enterConvoy, h0, h7, ha, hw, hc, hchain, Nat.not_le.2 hs, hd.firstIllegal_eq, hd.firstAbsent_eq,
    hd.slotInstrs_eq, or_self, if_false, Bool.true_eq_false, Bool.false_eq_true]

theorem fetchInstr_of_parcel {l : Leaf} {v : Nat} {i : Instr} (hf : fetchBytes s h h.pc 4 = .ok (l, v))
    (hp : (BitVec.ofNat 32 v : Parcel).getLsbD 0 = false) (hd : decodeScalar (BitVec.ofNat 32 v) = .ok i) :
    fetchInstr s k h = .ok (s.modHart k fun h => { h with entering := none }, i, [l]) := by
  simp only [fetchInstr, hf, hp, hd]
  rfl

theorem fetchInstr_of_convoy {l : Leaf} {v : Nat} {i : Instr} {s' : State} {ls : List Leaf} {rest : List Instr}
    (hf : fetchBytes s h h.pc 4 = .ok (l, v)) (hp : (BitVec.ofNat 32 v : Parcel).getLsbD 0 = true)
    (he : enterConvoy s k h (BitVec.ofNat 32 v) = .ok (s', ls)) (hs : (s'.hart k).slots = i :: rest) :
    fetchInstr s k h = .ok (s', i, l :: ls) := by
  simp only [fetchInstr, hf, hp, he, hs, if_true]

end

/-! ## What a turn of a hart issues -/

/-- What follows an instruction of the hart or sequencer at place `k` that completes, with the places fetched for it. -/
def afterIssue (k : Nat) (r : Out) (ls : List Leaf) : Out :=
  match r with
  | .next t => .next (settleSeq (usedCode t k ls) k)
  | r => r

theorem usedCode_nil (s : State) (k : Nat) : usedCode s k [] = s := ite_self s

section
variable {s : State} {k : Nat}

theorem issueNext_of_slots {i : Instr} {rest : List Instr} (h : (s.hart k).slots = i :: rest) :
    issueNext s k = afterIssue k (exec i { s with cur := some (.hart k) }) [] := by
  have h' : (State.hart { s with cur := some (.hart k) } k).slots = i :: rest := h
  simp only [issueNext, h', afterIssue, usedCode_nil]
  rfl

theorem issueNext_of_fetch {i : Instr} {s' : State} {ls : List Leaf} (h : (s.hart k).slots = [])
    (hf : fetchInstr { s with cur := some (.hart k) } k (s.hart k) = .ok (s', i, ls)) :
    issueNext s k = afterIssue k (exec i (countCode s' ls)) ls := by
  have h' : (State.hart { s with cur := some (.hart k) } k).slots = [] := h
  have hf' : fetchInstr { s with cur := some (.hart k) } k (State.hart { s with cur := some (.hart k) } k) =
      .ok (s', i, ls) := hf
  simp only [issueNext, h', hf', afterIssue]
  rfl

theorem issued_issueNext (s : State) (k : Nat) : Issued s k (issueNext s k) := by
  refine ⟨fun i rest h => issueNext_of_slots h, fun h l v hf => ⟨fun hp i hd => ?_, ?_⟩⟩
  · exact issueNext_of_fetch h (fetchInstr_of_parcel hf hp hd)
  · intro hp hc ha ws is i hw hl hd hch hi
    obtain ⟨hs, hi⟩ := List.getElem?_eq_some_iff.1 hi
    have hslots : SlotsDecode s.variant (BitVec.ofNat 32 v) 0 (ws.map (·.2)) is :=
      .of_getElem (by rw [hl, List.length_map, length_of_fetchWords hw]) fun m x w hx hw => by
        rw [List.getElem?_map, Option.map_eq_some_iff] at hw
        obtain ⟨y, hy, rfl⟩ := hw
        rw [Nat.zero_add]
        exact hd m x y hx hy
    exact issueNext_of_fetch h (fetchInstr_of_convoy hf hp (enterConvoy_ok hc ha hw hslots hch (hl ▸ hs))
      ((congrArg Hart.slots (State.hart_modHart ..)).trans (hi ▸ List.drop_eq_getElem_cons hs)))

theorem State.uncaught_eq (s : State) (k : Nat) :
    s.uncaught k = s ∨ s.uncaught k = s.modHart k fun h => { h with caught := false } := by
  unfold State.uncaught
  split
  · exact .inr rfl
  · exact .inl rfl

/-- The mark that a request came inside a turn has no part in whether PREEMPT comes first. -/
theorem preemptFirst_uncaught (s : State) (k : Nat) :
    (s.uncaught k).preemptFirst k ((s.uncaught k).hart k) = s.preemptFirst k (s.hart k) := by
  obtain e | e := s.uncaught_eq k <;> rw [e]
  rw [State.hart_modHart]
  rfl

theorem preemptFirst_iff : s.preemptFirst k (s.hart k) = true ↔
    (s.hart k).preemptDue = true ∧ s.asking k (s.hart k) = false ∧ s.runtimePaused = false := by
  simp only [State.preemptFirst, Bool.and_eq_true, Bool.not_eq_true', and_assoc]

theorem turnOfHart_issueAt (s : State) (k : Nat) : TurnOfHart s k (issueAt s k) := by
  have hu := preemptFirst_uncaught s k
  unfold TurnOfHart issueAt
  simp only [← preemptFirst_iff, hu]
  refine ⟨fun hd => ?_, fun hd ht => ?_, fun hd ht hr => ?_, fun hd ht hr => ?_⟩
  · rw [if_neg hd]
    exact issued_issueNext _ k
  · rw [if_pos hd, if_pos ht]
    exact issued_issueNext _ k
  · rw [if_pos hd, if_neg (by simp [ht]), if_pos hr]
  · rw [if_pos hd, if_neg (by simp [ht]), if_neg (by simp [hr])]

end

/-! ## Turns -/

section
variable {s : State} {a : Activity} {r : List Activity}

theorem step_of_agenda (h : s.agenda = a :: r) : step s = turn a { s with agenda := r } := by
  unfold step
  rw [h]

theorem step_of_no_agenda (h : s.agenda = []) : step s = ownTurn s := by
  unfold step
  rw [h]

theorem turn_slot {k : Nat} (hp : s.svc.powered = true) (hl : (s.hart k).life = .issuing) :
    turn (.slot k) s = issueAt s k := by
  simp [turn, hp, hl]

theorem turn_seq {c : Nat} (hp : s.svc.powered = true) (hl : (s.hart (9 * c + 8)).life = .ready) :
    turn (.seq c) s = issueAt s (9 * c + 8) := by
  simp [turn, hp, hl]

theorem turn_core (c : Nat) (hp : s.svc.powered = true) : turn (.core c) s = coreTurn s c issueAt := by
  simp [turn, hp]

theorem turn_stream (i : Nat) (hp : s.svc.powered = true) : turn (.stream i) s = issueStream s i := by
  simp [turn, hp]

/-- A core cycle after the turn of its hart at place `k`: one that stays STALLED leaves the round as it was in `x`. -/
def keepRound (c k : Nat) (x : Core) (o : Out) : Out :=
  match o with
  | .next t =>
    if (t.hart k).life = .stalled then .next (t.setCore c { t.core c with last := x.last, yielded := x.yielded })
    else .next t
  | r => r

theorem coreTurn_of_choice {c k : Nat} {go : State → Nat → Out} (hc : c < 64 * s.variant.towers)
    (hl : (s.core c).lost = false)
    (hk : coreChoice (s.setCore c { s.core c with cycle := (s.core c).cycle + 1 }) c = some k) :
    coreTurn s c go = keepRound c k (s.core c)
      (go (noteIssue (s.setCore c { s.core c with cycle := (s.core c).cycle + 1 }) k) k) := by
  have hn : ¬(64 * s.variant.towers ≤ c ∨ (s.core c).lost = true) := by simp [hc, hl]
  unfold coreTurn
  simp only [if_neg hn, hk]
  rfl

/-- An event other than PREEMPT comes about as its meaning says; a hart is unstalled where it would go on. -/
theorem turn_event {i : Instr} (hp : s.svc.powered = true) (he : encode i = .none) (hn : ∀ k, i ≠ .preempt k)
    (hw : ∀ k, i = .hartUnstall k → wouldGo s k = true) : turn (.event i) s = exec i s := by
  unfold turn
  rw [if_neg (by simp [hp])]
  split
  case h_6 h => exact absurd (Activity.event.inj h) (hn _)
  case h_7 h =>
    obtain rfl := Activity.event.inj h
    rw [if_pos (hw _ rfl)]
    rfl
  case h_8 h =>
    obtain rfl := Activity.event.inj h
    exact if_pos he
  all_goals contradiction

theorem issueStream_of_word {i : Nat} {w : BitVec 64} {x : Instr}
    (hs : (s.stream i).state = .running ∨ (s.stream i).state = .handler)
    (hb : beforeWord { s with cur := some (.stream i) } i (s.stream i) = none) (hw : (s.stream i).word = some w)
    (hd : decodeBank w = .ok x) : issueStream s i = exec x { s with cur := some (.stream i) } := by
  have hs' : (State.stream { s with cur := some (.stream i) } i) = s.stream i := rfl
  simp only [issueStream, hs', if_pos hs, hb, hw, hd]

end

/-- Settles O57: each turn of the agenda is the turn of its agent or its event (`turn_slot` to `turn_event`), and a
hart's turn issues what is decoded (`turnOfHart_issueAt`). -/
theorem stepRunsDecoded : Obligations.StepRunsDecoded := by
  intro s r hp
  let u : State := { s with agenda := r }
  refine ⟨fun k h hl => ?_, fun c h hl => ?_, fun c k h hc hlost hk => ?_, fun i w x h hs hb hw hd => ?_,
    fun i h he hn hw => ?_, fun p t h hf ht => ?_⟩
  · exact (step_of_agenda h).trans (turn_slot hp hl) ▸ turnOfHart_issueAt _ k
  · exact (step_of_agenda h).trans (turn_seq hp hl) ▸ turnOfHart_issueAt _ _
  · refine ⟨_, turnOfHart_issueAt _ k, ?_⟩
    exact (step_of_agenda h).trans ((turn_core (s := u) c hp).trans (coreTurn_of_choice (s := u) hc hlost hk))
  · exact (step_of_agenda h).trans ((turn_stream (s := u) i hp).trans (issueStream_of_word (s := u) hs hb hw hd))
  · exact (step_of_agenda h).trans (turn_event hp he hn hw)
  · have e : { s with agenda := [] } = s := by rw [← h]
    rw [step_of_agenda (s := { s with agenda := [p.2.2] }) rfl, e] at ht
    rw [step_of_no_agenda h]
    simp only [ownTurn, hf, agentTurn, ht]

end Sys2Proof.Machine
end

section
/-! Atomics (O12): a hart's access and the access counters that it may step leave the name of every byte alone, so the
monitor is armed on the line that the access found; what each operation stores is what `amoResult` says. -/
namespace Sys2Proof.Machine

/-! ## The name of a byte -/

/-- A choice of homes that go by the address `pa`, where they are memory. -/
theorem eq_of_ite_mem {x y : Home} {pa key : Nat} {c : Prop} {_ : Decidable c} (hx : x = .mem key → key = pa)
    (hy : y = .mem key → key = pa) (e : (if c then x else y) = .mem key) : key = pa := by
  split at e
  · exact hx e
  · exact hy e

theorem eq_of_mem_eq {pa key : Nat} (e : Home.mem pa = .mem key) : key = pa := (Home.mem.inj e).symm

/-- Of the on-chip window, the scratchpads are memory (01 R25). -/
theorem eq_of_windowHome_mem {s : State} {pa key : Nat} : windowHome s pa = .mem key → key = pa :=
  eq_of_ite_mem nofun (eq_of_ite_mem nofun (eq_of_ite_mem eq_of_mem_eq (eq_of_ite_mem (eq_of_ite_mem nofun nofun)
    (eq_of_ite_mem nofun (eq_of_ite_mem nofun (eq_of_ite_mem nofun nofun))))))

/-- Outside the spread region a byte of memory goes by its own address (01 R18, R21, R25). -/
theorem eq_of_physHome_mem {s : State} {pa key : Nat} (hpa : ¬ pa < 2 ^ 40) (e : physHome s pa = .mem key) :
    key = pa := by
  rw [physHome, if_neg hpa] at e
  revert e
  exact eq_of_ite_mem eq_of_windowHome_mem (eq_of_ite_mem (eq_of_ite_mem nofun nofun) (eq_of_ite_mem nofun
    (eq_of_ite_mem (eq_of_ite_mem eq_of_mem_eq nofun) (eq_of_ite_mem (eq_of_ite_mem eq_of_mem_eq nofun)
      (eq_of_ite_mem (eq_of_ite_mem nofun nofun) nofun)))))

theorem homeKey_of_not_spread {s : State} {pa : Nat} (hpa : ¬ pa < 2 ^ 40) : homeKey s pa = pa := by
  unfold homeKey
  split
  next e => exact eq_of_physHome_mem hpa e
  next => rfl

/-- The names of bytes depend on the towers alone: the spread region's slabs and their live banks (01 R19, R24). -/
theorem homeKey_congr {s t : State} (hv : t.variant = s.variant) (ht : t.towers = s.towers) :
    homeKey t = homeKey s := by
  funext pa
  by_cases hpa : pa < 2 ^ 40
  · have hw : t.tower = s.tower := funext fun i => by rw [State.tower, State.tower, ht]
    have e : physHome t pa = physHome s pa := by rw [physHome, physHome, if_pos hpa, if_pos hpa, hv, hw]
    rw [homeKey, homeKey, e]
  · rw [homeKey_of_not_spread hpa, homeKey_of_not_spread hpa]

/-! ## What leaves the names of bytes alone -/

theorem homeKey_ite {s t u : State} {c : Prop} {_ : Decidable c} (ht : homeKey t = homeKey s)
    (hu : homeKey u = homeKey s) : homeKey (if c then t else u) = homeKey s := by
  split
  · exact ht
  · exact hu

@[simp] theorem homeKey_setHart (s : State) (k : Nat) (h : Hart) : homeKey (s.setHart k h) = homeKey s :=
  homeKey_congr rfl rfl

theorem homeKey_putTileByte (s : State) (c o : Nat) (b : Byte) : homeKey (putTileByte s c o b) = homeKey s := by
  unfold putTileByte
  dsimp only
  split
  · split <;> exact homeKey_congr rfl rfl
  · exact homeKey_congr rfl rfl

theorem homeKey_putHomeByte (s : State) (x : Home) (b : Byte) : homeKey (putHomeByte s x b) = homeKey s := by
  unfold putHomeByte
  cases x with
  | mem | vreg | acc => dsimp only; split <;> exact homeKey_congr rfl rfl
  | tile c o => exact homeKey_putTileByte s c o b
  | ingress | towerReg | cap | pod | none => rfl

theorem homeKey_putPhysBytes (bs : List Byte) (s : State) (pa : Nat) : homeKey (putPhysBytes s pa bs) = homeKey s := by
  induction bs generalizing s pa with
  | nil => rfl
  | cons b bs ih => exact (ih _ _).trans (homeKey_putHomeByte s _ b)

theorem homeKey_replaceUnits (s : State) (pa n : Nat) : homeKey (replaceUnits s pa n) = homeKey s :=
  homeKey_ite rfl (homeKey_congr rfl rfl)

@[simp] theorem homeKey_store (s : State) (pa : Nat) (bs : List Byte) (by_ : Option Nat) :
    homeKey (store s pa bs by_) = homeKey s :=
  calc homeKey (store s pa bs by_)
    _ = homeKey (putPhysBytes (replaceUnits s pa bs.length) pa bs) := homeKey_congr rfl rfl
    _ = homeKey (replaceUnits s pa bs.length) := homeKey_putPhysBytes bs _ pa
    _ = homeKey s := homeKey_replaceUnits s pa _

@[simp] theorem homeKey_podUsed (s : State) (pa : Nat) : homeKey (podUsed s pa) = homeKey s :=
  homeKey_ite rfl (homeKey_congr rfl rfl)

/-- A number written by the device, between changes that touch no tower. -/
theorem homeKey_of_physWrite {s t u : State} {pa n v : Nat} (hv : u.variant = (physWrite t pa n v).variant)
    (ht : u.towers = (physWrite t pa n v).towers) (e : homeKey t = homeKey s) : homeKey u = homeKey s :=
  calc homeKey u
    _ = homeKey (physWrite t pa n v) := homeKey_congr hv ht
    _ = homeKey t := homeKey_store ..
    _ = homeKey s := e

/-- A counter may write an event to its ring and raise its vector (18 R401). -/
theorem homeKey_countFrame (s : State) (pa : Nat) : homeKey (countFrame s pa) = homeKey s :=
  homeKey_ite rfl (homeKey_ite
    (homeKey_ite
      (homeKey_ite (homeKey_of_physWrite rfl rfl (homeKey_congr rfl rfl))
        (homeKey_of_physWrite rfl rfl (homeKey_congr rfl rfl)))
      (homeKey_congr rfl rfl))
    (homeKey_congr rfl rfl))

@[simp] theorem homeKey_countHart (s : State) (l : Leaf) : homeKey (countHart s l) = homeKey s :=
  homeKey_ite
    (homeKey_ite ((homeKey_countFrame _ _).trans (homeKey_congr rfl rfl)) (homeKey_congr rfl rfl))
    rfl

@[simp] theorem homeKey_hartStore (s : State) (k : Nat) (l : Leaf) (bs : List Byte) (own : Bool) :
    homeKey (hartStore s k l bs own) = homeKey s := by
  rw [hartStore, homeKey_podUsed, homeKey_store, homeKey_countHart]

/-! ## The completion of an atomic -/

/-- A scalar operation that leaves memory as in `t`, writes a register and arms the monitor. -/
theorem scalarOp_loaded {s t : State} {k : Nat} (h : s.HartTurn k) {f : Nat → Hart → Except Stop State} {d : Reg}
    {l : Leaf} {v : Word} (ht : homeKey t = homeKey s) (e : f k (s.hart k) = .ok ((t.wrX k d v).arm k l.pa)) :
    scalarOp s f = .next (s.loaded t k d l v) := by
  rw [scalarOp_ok h e]
  simp only [State.retire_eq, State.arm, State.wrX, State.modHart_eq, State.loaded, homeKey_setHart, ht,
    State.hart_setHart, State.after_setHart]

/-- An AMO or CAS at an aligned address whose access passes its checks, and whose operation stores `new`. -/
theorem atomicOp_ok {s : State} {k : Nat} (h : s.HartTurn k) {d a b : Reg} {w : Bool} {op : AmoOp} {l : Leaf} {o : Nat}
    {new : Option Nat} :
    let h := s.hart k
    let n := if w then 4 else 8
    let y := (h.rd b).toNat % 2 ^ (8 * n)
    let c := (h.rd d).toNat % 2 ^ (8 * n)
    (h.rd a).toNat % n = 0 → hartLoad s h (h.rd a) n .atomic 0 (.amo op w y c) = .ok (l, o) →
    amoResult op w o y c = new →
    atomicOp s d a b w op = .next (s.atomicDone k d l n new
      (if w then BitVec.ofInt 64 (signedOf 32 o) else BitVec.ofNat 64 o)) := by
  intro g n y c ha hl e
  simp only [g, n, y, c] at ha hl e ⊢
  cases new with
  | none =>
    exact scalarOp_loaded h ((homeKey_podUsed ..).trans (homeKey_countHart ..)) (by simp only [ha, hl, e]; rfl)
  | some v => exact scalarOp_loaded h (homeKey_hartStore ..) (by simp only [ha, hl, e]; rfl)

/-! ## What each operation stores (07 R202) -/

section
variable (w : Bool) (o y c : Nat)

theorem amoResult_add : amoResult .add w o y c = some ((o + y) % 2 ^ (8 * if w then 4 else 8)) := by
  cases w <;> rfl

theorem sltAt_eq : sltAt w o y =
    decide (signedOf (8 * if w then 4 else 8) o < signedOf (8 * if w then 4 else 8) y) := by
  cases w <;> rfl

theorem amoResult_min : amoResult .min w o y c =
    some (if signedOf (8 * if w then 4 else 8) y ≤ signedOf (8 * if w then 4 else 8) o then y else o) := by
  simp only [amoResult, sltAt_eq, decide_eq_true_eq, ← Int.not_lt, ite_not]

theorem amoResult_max : amoResult .max w o y c =
    some (if signedOf (8 * if w then 4 else 8) o < signedOf (8 * if w then 4 else 8) y then y else o) := by
  simp only [amoResult, sltAt_eq, decide_eq_true_eq]

theorem amoResult_minn : amoResult .minn w o y c = some (if y ≤ o then y else o) :=
  congrArg some ((Nat.min_comm o y).trans Nat.min_def)

theorem amoResult_maxn : amoResult .maxn w o y c = some (if o ≤ y then y else o) :=
  congrArg some Nat.max_def

end

/-! ## The obligation -/

/-- Settles O12: each instruction is `atomicOp` of its operation, which completes as `atomicOp_ok` says with what
`amoResult` stores. -/
theorem atomicsReadModifyWrite : Obligations.AtomicsReadModifyWrite := by
  intro s k d a b sem sc w h _ n ha m y c sg does
  exact ⟨fun _ _ hl => atomicOp_ok h ha hl rfl,
    fun _ o hl => atomicOp_ok h ha hl (amoResult_add w o y c),
    fun _ _ hl => atomicOp_ok h ha hl rfl,
    fun _ _ hl => atomicOp_ok h ha hl rfl,
    fun _ _ hl => atomicOp_ok h ha hl rfl,
    fun _ o hl => atomicOp_ok h ha hl (amoResult_min w o y c),
    fun _ o hl => atomicOp_ok h ha hl (amoResult_max w o y c),
    fun _ o hl => atomicOp_ok h ha hl (amoResult_minn w o y c),
    fun _ o hl => atomicOp_ok h ha hl (amoResult_maxn w o y c),
    fun _ _ hl => atomicOp_ok h ha hl rfl⟩

end Sys2Proof.Machine
end

section
/-! Barrier objects (O22): where the checks of R242 pass, an instruction on an object only chooses between effects and
traps (09 R243 to R247), and each choice ends as `State.ended` says. -/
namespace Sys2Proof.Machine

/-! ## How a scalar instruction ends, from what its effect answers -/

/-- The state after a scalar instruction of the hart or sequencer at place `k`, which completes or stops with `r`. -/
def State.ended (s : State) (k : Nat) : Except Stop State → State
  | .ok t => t.after k (t.hart k) ((s.hart k).pc + 4)
  | .error e => s.stop k e

section
variable (s : State) (k : Nat)

@[simp] theorem State.ended_ok (t : State) : s.ended k (.ok t) = t.after k (t.hart k) ((s.hart k).pc + 4) := rfl

@[simp] theorem State.ended_raise (c : Nat) (v w : Word) : s.ended k (raise c v w) = s.trapped k c v w := rfl

@[simp] theorem State.ended_wait (t : State) : s.ended k (.error (.wait t)) = t.setLife k .waiting := rfl

@[simp] theorem State.ended_ite (p : Prop) [Decidable p] (x y : Except Stop State) :
    s.ended k (if p then x else y) = if p then s.ended k x else s.ended k y :=
  apply_ite (s.ended k) p x y

end

theorem scalarOp_ended {s : State} {k : Nat} (h : s.HartTurn k) (f : Nat → Hart → Except Stop State) :
    scalarOp s f = .next (s.ended k (f k (s.hart k))) := by
  cases e : f k (s.hart k) with
  | ok t => exact scalarOp_ok h e
  | error r => exact scalarOp_error h e

/-! ## What the use of a peer's answer leaves alone -/

section
variable (s : State) (pa : Nat)

@[simp] theorem podUsed_mem : (podUsed s pa).mem = s.mem := by
  unfold podUsed podDone
  split <;> rfl

@[simp] theorem hart_podUsed (k : Nat) : (podUsed s pa).hart k = s.hart k := by
  unfold podUsed podDone
  split <;> rfl

end

/-! ## The instructions at an object that passes the checks -/

section
variable {s : State} {k pa : Nat} {d a b : Reg} (h : s.HartTurn k)
include h

theorem execBinit_ok (hn : ((s.hart k).rd b).toNat < 2 ^ 20)
    (ha : barAddr s (s.hart k) ((s.hart k).rd a) .barWrite (.binit ((s.hart k).rd b).toNat) = .ok pa) :
    execBinit a b s =
      .next (s.ended k (.ok (barWrite s pa ((barRead s pa).init ((s.hart k).rd b).toNat) (some k)))) := by
  simp only [execBinit, scalarOp_ended h, if_pos hn, ha, if_neg (Nat.not_le.mpr hn)]

theorem execBinit_overflow (hn : 2 ^ 20 ≤ ((s.hart k).rd b).toNat)
    (ha : barAddr s (s.hart k) ((s.hart k).rd a) .barWrite (.read 32) = .ok pa) :
    execBinit a b s = .next (s.trapped k cBarrierOverflow ((s.hart k).rd a) 0) := by
  simp only [execBinit, scalarOp_ended h, if_neg (Nat.not_lt.mpr hn), ha, if_pos hn, State.ended_raise]

theorem execBinval_of_barAddr (ha : barAddr s (s.hart k) ((s.hart k).rd a) .barWrite .binval = .ok pa) :
    let o := barRead s pa
    execBinval a s = .next (if o.valid then s.ended k (.ok (barWrite s pa { o with valid := false } (some k)))
      else s.trapped k cBarrierStale (o.token ((s.hart k).rd a)) 0) := by
  simp only [execBinval, scalarOp_ended h, ha, State.ended_ite, State.ended_raise, ← Bool.not_eq_true,
    ite_not]

theorem execBarrive_of_barAddr (ha : barAddr s (s.hart k) ((s.hart k).rd a) .barWrite .barrive = .ok pa) :
    let o := barRead s pa
    let va := (s.hart k).rd a
    execBarrive d a s = .next (if o.valid = false then s.trapped k cBarrierStale (o.token va) 0
      else if o.penda = 0 then s.trapped k cBarrierOverflow va 0
      else s.ended k (.ok ((barWrite s pa ({ o with penda := o.penda - 1 } : BarObj).settle (some k)).wrX k d
        (o.token va)))) := by
  simp only [execBarrive, scalarOp_ended h, ha, State.ended_ite, State.ended_raise]

theorem execBexp_of_barAddr
    (ha : barAddr s (s.hart k) ((s.hart k).rd a) .barWrite (.bexp ((s.hart k).rd b).toNat) = .ok pa) :
    let o := barRead s pa
    let va := (s.hart k).rd a
    let n := ((s.hart k).rd b).toNat
    execBexp a b s = .next (if o.valid = false then s.trapped k cBarrierStale (o.token va) 0
      else if 2 ^ 39 ≤ n ∨ 2 ^ 39 ≤ o.pendb + n then s.trapped k cBarrierOverflow va 0
      else if n = 0 then s.ended k (.ok (podUsed s pa))
      else s.ended k (.ok (barWrite s pa ({ o with pendb := o.pendb + n } : BarObj).settle (some k)))) := by
  have hr : ((2 ^ 39 : Nat) : Int) = 2 ^ 39 := rfl
  simp only [execBexp, scalarOp_ended h, ha, State.ended_ite, State.ended_raise, hr]

end

section
variable {s : State} {k pa : Nat} {d a : Reg} {sc : BitVec 3} {done : Bool} (h : s.HartTurn k)
  (ht : tokenTest s (s.hart k) ((s.hart k).rd a) = .ok (pa, done))
include h ht

theorem execBtest_of_tokenTest :
    execBtest d a s = .next (s.ended k (.ok ((podUsed s pa).wrX k d (boolWord done)))) := by
  simp only [execBtest, scalarOp_ended h, ht]

theorem execBwait_done (hd : done = true) : execBwait a sc s = .next (s.ended k (.ok (podUsed s pa))) := by
  simp only [execBwait, scalarOp_ended h, ht, if_pos hd]

/-- A BWAIT on a phase that is not complete is kept, WAITING at its object (R246, R114). -/
theorem execBwait_waits (hd : done = false) :
    execBwait a sc s = .next ((podUsed s pa).modHart k
      fun x => { x with latched := some (.bwait a sc), waitObj := some pa, life := .waiting }) := by
  simp only [execBwait, scalarOp_ended h, ht, hd, Bool.false_eq_true, if_false, State.ended_wait, State.setLife,
    State.modHart_modHart]

end

/-! ## The obligation -/

/-- Settles O22: once the checks pass, each instruction completes or traps by the fields of the object alone, as the
lemmas above say. -/
theorem barrierObjectsFollowTheirRules : Obligations.BarrierObjectsFollowTheirRules := by
  intro s k d a b sc pa h g va o n put go completed
  rw [exec_binit, exec_binval, exec_barrive, exec_bexp, exec_btest, exec_bwait]
  refine ⟨execBinit_ok h, execBinit_overflow h, execBinval_of_barAddr h, execBarrive_of_barAddr h,
    execBexp_of_barAddr h, fun done ht => ⟨execBtest_of_tokenTest h ht, execBwait_done h ht, fun hd => ?_⟩⟩
  exact ⟨_, execBwait_waits h ht hd, by simp [g]⟩

end Sys2Proof.Machine
end
